-- ==== Sys2Proof/Word.lean ====
section
/-! DEFINITION. The word types of the Tvedver and of the model's steps (R5, R60, R305). -/

namespace Sys2Proof

/-- One byte of memory (R6). -/
abbrev Byte := BitVec 8

/-- A scalar of 64 bits: a register, an address, lane 0 of a token taken as N64. -/
abbrev W64 := BitVec 64

/-- The DATA of a token, and a local register L0 to L3 (R60, R14). -/
abbrev W512 := BitVec 512

/-- A stake word (R305). -/
abbrev StakeWord := BitVec 128

/-- One word of the model's agenda: a stake word in bits [127:0] with zeros above, or a device step,
whose OPC byte [127:120] is 0x00 (log entry 1). -/
abbrev StepWord := BitVec 1152

end Sys2Proof
end

