-- ==== Sys2Proof/Syntax.lean ====
section
/-! DEFINITION. The syntax of the machine: the fields of a stake word (R305 to R316) and one constructor for every
row of the opcode table, the 126 stake instructions (R333) and the 134 device steps. -/

namespace Sys2Proof

/-- The sixteen types of Table 4.1 (R88), in the order of their TY codes. -/
inductive Ty where
  | i8 | n8 | i16 | n16 | i32 | n32 | i64 | n64
  | f32 | bf16 | f16 | e4m3 | e5m2 | e2m1 | f64 | x
  deriving DecidableEq, Repr

/-- The source selectors of Table 13.3 (R307). -/
inductive Sel where
  /-- Code 0: the token on the port of the position. -/
  | port
  /-- Codes 1 to 4: the stake's local registers. -/
  | l0 | l1 | l2 | l3
  /-- Code 5: the immediate in XF (R309). -/
  | imm
  /-- Code 6: every bit 0. -/
  | zero
  /-- Code 7: the identifier, tensor-map register or accumulator bank of the class. -/
  | special
  deriving DecidableEq, Repr

/-- A destination field (Table 13.2). -/
structure Dest where
  /-- V: the destination is in use. -/
  v : Bool
  /-- Q: the false side of a STEER, the misfit route of every other opcode. -/
  q : Bool
  /-- LSTAKE: the logical stake. -/
  lstake : BitVec 16
  /-- PORT: 0 a, 1 b, 2 c, 3 t. -/
  port : BitVec 2
  deriving DecidableEq, Repr

/-- The fields that every stake word has (Table 13.1): all of it but OPC and XF. -/
structure Common where
  /-- TY, bits [119:116]. -/
  ty : Ty
  /-- MOD, bits [115:112]. -/
  md : BitVec 4
  /-- ACC, bits [111:104] (R63). -/
  acc : BitVec 8
  /-- SA, bits [103:101]. -/
  sa : Sel
  /-- SB, bits [100:98]; the AOP of an atomic's SC lies in SC. -/
  sb : Sel
  /-- SC, bits [97:95]. -/
  sc : Sel
  /-- D0, bits [94:75]. -/
  d0 : Dest
  /-- D1, bits [74:55]. -/
  d1 : Dest
  /-- D2, bits [54:35]. -/
  d2 : Dest
  deriving DecidableEq, Repr

/-- XF in the immediate layout (R310): SUB in [34:32] and IMM in [31:0]. -/
structure ImmX where
  /-- SUB (R312). -/
  sub : BitVec 3
  /-- IMM (R309). -/
  imm : BitVec 32
  deriving DecidableEq, Repr

/-- XF of the memory class (Table 13.4): the sequence fields (R118) and FC, SZ and ORD (R170). -/
structure MemX where
  /-- PRED, XF[34:26]. -/
  pred : BitVec 9
  /-- OWN, XF[25:17]. -/
  own : BitVec 9
  /-- SUCC, XF[16:8]. -/
  succ : BitVec 9
  /-- FC, XF[7:5]. -/
  fc : BitVec 3
  /-- SZ, XF[4:2]. -/
  sz : BitVec 3
  /-- ORD, XF[1:0]. -/
  ord : BitVec 2
  deriving DecidableEq, Repr

/-- XF of FENCE (Table 7.5): the sequence fields and MASK in XF[7:0]. -/
structure FenceX where
  /-- PRED, XF[34:26]. -/
  pred : BitVec 9
  /-- OWN, XF[25:17]. -/
  own : BitVec 9
  /-- SUCC, XF[16:8]. -/
  succ : BitVec 9
  /-- MASK, XF[7:0] (R177). -/
  mask : BitVec 8
  deriving DecidableEq, Repr

/-- XF of TMLD and TMST (R314): the sequence fields, FC, XF[4] = 0, TMN[1:0] in XF[3:2] and ORD.
ORD takes bits [1:0]. -/
structure TmemX where
  /-- PRED, XF[34:26]. -/
  pred : BitVec 9
  /-- OWN, XF[25:17]. -/
  own : BitVec 9
  /-- SUCC, XF[16:8]. -/
  succ : BitVec 9
  /-- FC, XF[7:5]. -/
  fc : BitVec 3
  /-- TMN[1:0], XF[3:2]. -/
  tmLow : BitVec 2
  /-- ORD, XF[1:0]. -/
  ord : BitVec 2
  deriving DecidableEq, Repr

/-- XF of BFX and BFI (Table 13.5): LEN in [15:8] and POS in [7:0]. -/
structure BfX where
  /-- LEN. -/
  len : BitVec 8
  /-- POS. -/
  pos : BitVec 8
  deriving DecidableEq, Repr

/-- XF of the matrix class (R210): BANK in [34:33] and BTY in [32:29]. -/
structure MatX where
  /-- BANK. -/
  bank : BitVec 2
  /-- BTY. -/
  bty : Ty
  deriving DecidableEq, Repr

/-- The instructions: one constructor for each row of the opcode table, in the table's order but
for the device steps without operands, which stand last. A device step without operands acts where its agenda item places
it (log entry 1). -/
inductive Instr where
  /-- CONST, OPC 0x01 (R376). Emits its immediate or local register once for each trigger token. -/
  | const (c : Common) (x : ImmX)
  /-- MOV, OPC 0x02 (R444). Emits operand A unchanged on its destinations. -/
  | mov (c : Common) (x : ImmX)
  /-- STEER, OPC 0x03 (R474). Sends operand A to the T side or the F side according to the predicate in B. -/
  | steer (c : Common) (x : ImmX)
  /-- SELECT, OPC 0x04 (R469). Emits A if the condition in C is non-zero, and B otherwise. -/
  | select (c : Common) (x : ImmX)
  /-- MERGE, OPC 0x05 (R438). Forwards one token from whichever of ports a and b holds one, alternating between them. -/
  | merge (c : Common)
  /-- SINK, OPC 0x06 (R470). Consumes one complete operand set and emits nothing. -/
  | sink (c : Common)
  /-- MOVID, OPC 0x07 (R445). Emits the identifier value that ID selects. -/
  | movid (c : Common) (ident : BitVec 4)
  /-- WAVEADV, OPC 0x08 (R124). Increments WAVE of the token, recomputes CHK and forwards the token. -/
  | waveadv (c : Common)
  /-- FRAMENEW, OPC 0x09 (R404). Allocates a frame with its home and barrier joins, and retags the token into it. -/
  | framenew (c : Common) (join : BitVec 16)
  /-- FRAMEEND, OPC 0x0A (R403). Consumes its input and starts the retirement of its frame. -/
  | frameend (c : Common)
  /-- RETAG, OPC 0x0B (R464). Replaces FRAME, WAVE or both from operand B, checks liveness and forwards the token. -/
  | retag (c : Common) (rsel : BitVec 2)
  /-- KGATE, OPC 0x0C (R419). Admits a token when its count is below K and increments the count. -/
  | kgate (c : Common) (bound : BitVec 12)
  /-- KDONE, OPC 0x0D (R417). Forwards its input and sends one decrement to the named KGATE. -/
  | kdone (c : Common) (gate : BitVec 16)
  /-- BAR, OPC 0x0E (R364). Records the frame's arrival at a barrier and completes the generation when all members have arrived. -/
  | bar (c : Common) (barn : BitVec 4)
  /-- BARLEAVE, OPC 0x0F (R367). Removes the frame from a barrier and forwards its input. -/
  | barleave (c : Common) (barn : BitVec 4)
  /-- TASKPUSH, OPC 0x10 (R481). Sends a control request that pushes a continuation record to a target colour's task queue. -/
  | taskpush (c : Common) (x : ImmX)
  /-- TASKJOIN, OPC 0x11 (R480). Sends a control request that decrements a join counter atomically and pushes the continuation at zero. -/
  | taskjoin (c : Common)
  /-- TASKEND, OPC 0x12 (R478). Ends the root frame and its task, and then joins JOINADDR. -/
  | taskend (c : Common)
  /-- QPOP, OPC 0x13 (R458). Takes the head entry of a user queue, or reports EMPTY, or waits for a push. -/
  | qpop (c : Common) (qsel : BitVec 4)
  /-- QPUSH, OPC 0x14 (R457). Appends DATA to a user queue, or hands it to the oldest waiting QPOP. -/
  | qpush (c : Common) (qsel : BitVec 4)
  /-- FMTCAST, OPC 0x15 (R400). Converts a latched burst to TY, emitting an output header and buffered data tokens. -/
  | fmtcast (c : Common) (sty : Ty)
  /-- ADD, OPC 0x20 (R359). Wrapping integer addition per lane. -/
  | add (c : Common) (x : ImmX)
  /-- SUB, OPC 0x21 (R452). Wrapping integer subtraction per lane. -/
  | sub (c : Common) (x : ImmX)
  /-- ADDS, OPC 0x22 (R360). Saturating integer addition per lane. -/
  | adds (c : Common) (x : ImmX)
  /-- SUBS, OPC 0x23 (R452). Saturating integer subtraction per lane. -/
  | subs (c : Common) (x : ImmX)
  /-- MUL, OPC 0x24 (R447). Low half of the integer product per lane. -/
  | mul (c : Common) (x : ImmX)
  /-- MULH, OPC 0x25 (R448). High half of the exact integer product per lane. -/
  | mulh (c : Common) (x : ImmX)
  /-- MAD, OPC 0x26 (R430). Wrapping a·b + c per lane. -/
  | mad (c : Common) (x : ImmX)
  /-- DIV, OPC 0x27 (R382). Integer division toward zero per lane, with fixed results for division by zero and overflow. -/
  | div (c : Common) (x : ImmX)
  /-- REM, OPC 0x28 (R452). Integer remainder of truncating division per lane. -/
  | rem (c : Common) (x : ImmX)
  /-- MIN, OPC 0x29 (R440). Smaller of a and b per lane. -/
  | min (c : Common) (x : ImmX)
  /-- MAX, OPC 0x2A (R433). Larger of a and b per lane. -/
  | max (c : Common) (x : ImmX)
  /-- ABS, OPC 0x2B (R358). Wrapping absolute value per lane. -/
  | abs (c : Common) (x : ImmX)
  /-- NEG, OPC 0x2C (R452). Wrapping negation per lane. -/
  | neg (c : Common) (x : ImmX)
  /-- AND, OPC 0x2D (R361). Bitwise and. -/
  | and (c : Common) (x : ImmX)
  /-- OR, OPC 0x2E (R452). Bitwise or. -/
  | or (c : Common) (x : ImmX)
  /-- XOR, OPC 0x2F (R452). Bitwise exclusive or. -/
  | xor (c : Common) (x : ImmX)
  /-- ANDN, OPC 0x30 (R362). Bitwise a and not b. -/
  | andn (c : Common) (x : ImmX)
  /-- SHL, OPC 0x31 (R452). Shift left by the count mod w. -/
  | shl (c : Common) (x : ImmX)
  /-- SHR, OPC 0x32 (R452). Logical shift right by the count mod w. -/
  | shr (c : Common) (x : ImmX)
  /-- SAR, OPC 0x33 (R452). Arithmetic shift right by the count mod w. -/
  | sar (c : Common) (x : ImmX)
  /-- ROL, OPC 0x34 (R452). Rotate left by the count mod w. -/
  | rol (c : Common) (x : ImmX)
  /-- CLZ, OPC 0x35 (R374). Count of leading zeros per lane. -/
  | clz (c : Common) (x : ImmX)
  /-- POPC, OPC 0x36 (R452). Count of set bits per lane. -/
  | popc (c : Common) (x : ImmX)
  /-- CMP, OPC 0x37 (R375). Integer comparison per lane, giving all ones or zero. -/
  | cmp (c : Common) (x : ImmX)
  /-- LEA, OPC 0x38 (R429). Computes a + b·2^SUB modulo 2^64. -/
  | lea (c : Common) (x : ImmX)
  /-- SEXT, OPC 0x39 (R452). Sign-extends lanes from STY. -/
  | sext (c : Common) (sty : Ty)
  /-- ZEXT, OPC 0x3A (R452). Zero-extends lanes from STY. -/
  | zext (c : Common) (sty : Ty)
  /-- BFX, OPC 0x3B (R369). Extracts a bit field per lane. -/
  | bfx (c : Common) (x : BfX)
  /-- BFI, OPC 0x3C (R368). Inserts a bit field per lane. -/
  | bfi (c : Common) (x : BfX)
  /-- FADD, OPC 0x40 (R355). Floating-point a + b, rounded once. -/
  | fadd (c : Common) (x : ImmX)
  /-- FSUB, OPC 0x41 (R355). Floating-point a − b, rounded once. -/
  | fsub (c : Common) (x : ImmX)
  /-- FMUL, OPC 0x42 (R355). Floating-point a·b, rounded once. -/
  | fmul (c : Common) (x : ImmX)
  /-- FFMA, OPC 0x43 (R355). Floating-point a·b + c with one rounding. -/
  | ffma (c : Common) (x : ImmX)
  /-- FDIV, OPC 0x44 (R355). Floating-point a / b. -/
  | fdiv (c : Common) (x : ImmX)
  /-- FSQRT, OPC 0x45 (R355). Floating-point square root. -/
  | fsqrt (c : Common) (x : ImmX)
  /-- FMIN, OPC 0x46 (R398). Floating-point minimum under the order of R114. -/
  | fmin (c : Common) (x : ImmX)
  /-- FMAX, OPC 0x47 (R398). Floating-point maximum under the order of R114. -/
  | fmax (c : Common) (x : ImmX)
  /-- FCMP, OPC 0x48 (R390). Floating-point comparison per lane, giving all ones or zero. -/
  | fcmp (c : Common) (x : ImmX)
  /-- FABS, OPC 0x49 (R386). Clears the sign bit of each lane. -/
  | fabs (c : Common) (x : ImmX)
  /-- FNEG, OPC 0x4A (R402). Inverts the sign bit of each lane. -/
  | fneg (c : Common) (x : ImmX)
  /-- FRCP, OPC 0x4B (R356). Approximate reciprocal. -/
  | frcp (c : Common) (x : ImmX)
  /-- FRSQ, OPC 0x4C (R356). Approximate reciprocal square root. -/
  | frsq (c : Common) (x : ImmX)
  /-- FEXP2, OPC 0x4D (R356). Approximate 2^a. -/
  | fexp2 (c : Common) (x : ImmX)
  /-- FLOG2, OPC 0x4E (R356). Approximate log2 a. -/
  | flog2 (c : Common) (x : ImmX)
  /-- FSIN, OPC 0x4F (R356). Approximate sine. -/
  | fsin (c : Common) (x : ImmX)
  /-- FCOS, OPC 0x50 (R356). Approximate cosine. -/
  | fcos (c : Common) (x : ImmX)
  /-- FTANH, OPC 0x51 (R356). Approximate hyperbolic tangent. -/
  | ftanh (c : Common) (x : ImmX)
  /-- FCLASS, OPC 0x52 (R389). Emits the class mask of each lane. -/
  | fclass (c : Common) (x : ImmX)
  /-- FCVT, OPC 0x53 (R392). Float-to-float conversion per lane. -/
  | fcvt (c : Common) (sty : Ty)
  /-- F2I, OPC 0x54 (R385). Float-to-integer conversion per lane. -/
  | f2i (c : Common) (sty : Ty)
  /-- I2F, OPC 0x55 (R416). Integer-to-float conversion per lane. -/
  | i2f (c : Common) (sty : Ty)
  /-- FRND, OPC 0x56 (R407). Rounds each lane to an integral value in the same format. -/
  | frnd (c : Common) (x : ImmX)
  /-- VRED, OPC 0x60 (R502). Reduces the lanes into lane 0. -/
  | vred (c : Common) (x : ImmX)
  /-- VSCAN, OPC 0x61 (R502). Inclusive prefix combination across the lanes. -/
  | vscan (c : Common) (x : ImmX)
  /-- VPERM, OPC 0x62 (R499). Permutes the lanes of a by the indices in b. -/
  | vperm (c : Common) (x : ImmX)
  /-- VBCAST, OPC 0x63 (R491). Broadcasts lane 0 to every lane. -/
  | vbcast (c : Common) (x : ImmX)
  /-- VEXT, OPC 0x64 (R495). Extracts one lane of a into lane 0. -/
  | vext (c : Common) (x : ImmX)
  /-- VINS, OPC 0x65 (R497). Inserts lane 0 of b into one lane of a. -/
  | vins (c : Common) (x : ImmX)
  /-- VPACK, OPC 0x66 (R498). Narrows a and b into one token with saturation. -/
  | vpack (c : Common) (sty : Ty)
  /-- VUNPK, OPC 0x67 (R504). Widens one part of a. -/
  | vunpk (c : Common) (sty : Ty)
  /-- VQUANT, OPC 0x68 (R500). Buffers elements and, once full, emits a block-scaled header and data token. -/
  | vquant (c : Common) (sty : Ty)
  /-- VDEQ, OPC 0x69 (R494). Decodes a narrow burst under its header latch into wider tokens. -/
  | vdeq (c : Common) (sty : Ty)
  /-- VCHAIN, OPC 0x6A (R492). Prefix combination carried across tokens through L0. -/
  | vchain (c : Common) (x : ImmX)
  /-- VSEL, OPC 0x6B (R503). Per-lane selection between a and b by c. -/
  | vsel (c : Common) (x : ImmX)
  /-- VHDR, OPC 0x6C (R496). Builds a burst header from a and b. -/
  | vhdr (c : Common)
  /-- RNG, OPC 0x6D (R466). Emits plait words of a stream per lane. -/
  | rng (c : Common) (stream : BitVec 8)
  /-- LD, OPC 0x70 (R422). Sends a load request to the home wave store buffer. -/
  | ld (c : Common) (x : MemX)
  /-- ST, OPC 0x71 (R471). Sends a store request to the home wave store buffer. -/
  | st (c : Common) (x : MemX)
  /-- LDT, OPC 0x72 (R427). Sends a request that fills scratch lines from global memory. -/
  | ldt (c : Common) (x : MemX)
  /-- STT, OPC 0x73 (R477). Sends a request that stores scratch lines to global memory. -/
  | stt (c : Common) (x : MemX)
  /-- LDF, OPC 0x74 (R424). Sends a load-when-full request on a scratch line. -/
  | ldf (c : Common) (x : MemX)
  /-- STE, OPC 0x75 (R473). Sends a store-when-empty request on a scratch line. -/
  | ste (c : Common) (x : MemX)
  /-- MEMNOP, OPC 0x76 (R123). Sends a placeholder request in the wave chain that forwards its token once linked. -/
  | memnop (c : Common) (x : MemX)
  /-- PREF, OPC 0x77 (R454). Sends a prefetch request that may be dropped. -/
  | pref (c : Common) (x : MemX)
  /-- FENCE, OPC 0x78 (R177). Sends a fence request that emits a ticket when it links. -/
  | fence (c : Common) (x : FenceX)
  /-- FWAIT, OPC 0x79 (R179). Fires once the ticket's covered accesses have performed, frees the slot and emits. -/
  | fwait (c : Common)
  /-- ATOM, OPC 0x7A (R193). Sends an integer atomic request. -/
  | atom (c : Common) (x : MemX)
  /-- FATOM, OPC 0x7B (R388). Sends a floating-point atomic request. -/
  | fatom (c : Common) (x : MemX)
  /-- CAS, OPC 0x7C (R371). Sends a compare-and-swap request. -/
  | cas (c : Common) (x : MemX)
  /-- MCAS, OPC 0x7D (R200). Sends a multi-word compare-and-swap request to the solder engine. -/
  | mcas (c : Common) (x : MemX)
  /-- RED, OPC 0x7E (R463). Sends an integer reduction request without a result. -/
  | red (c : Common) (x : MemX)
  /-- FRED, OPC 0x7F (R406). Sends a floating-point reduction request without a result. -/
  | fred (c : Common) (x : MemX)
  /-- CPY, OPC 0x80 (R377). Sends a queued copy request. -/
  | cpy (c : Common) (x : MemX)
  /-- CPYWP, OPC 0x81 (R381). Sends a queued copy request that advances CQWPn OFF as it goes. -/
  | cpywp (c : Common) (x : MemX)
  /-- QFENCE, OPC 0x82 (R182). Sends a request that emits the token once the named copy queues have performed earlier commands. -/
  | qfence (c : Common) (x : MemX)
  /-- TMLD, OPC 0x90 (R483). Sends a load through a tensor map. -/
  | tmld (c : Common) (x : TmemX)
  /-- TMST, OPC 0x91 (R488). Sends a store through a tensor map. -/
  | tmst (c : Common) (x : TmemX)
  /-- TMSET, OPC 0x92 (R486). Writes a tensor map's shape fields and propagates the update. -/
  | tmset (c : Common) (tmn : BitVec 4)
  /-- TMNAR, OPC 0x93 (R485). Narrows a tensor map's bounds and permissions. -/
  | tmnar (c : Common) (tmn : BitVec 4)
  /-- TMGET, OPC 0x94 (R482). Emits the tile's copy of a tensor map. -/
  | tmget (c : Common) (tmn : BitVec 4)
  /-- MZERO, OPC 0x98 (R449). Enters a command that clears an accumulator bank and takes ownership of it. -/
  | mzero (c : Common) (x : MatX)
  /-- MMA, OPC 0x99 (R442). Enters one K-chunk matrix step command. -/
  | mma (c : Common) (x : MatX)
  /-- MSNAP, OPC 0x9A (R446). Enters a snapshot command for an accumulator bank. -/
  | msnap (c : Common) (x : MatX)
  /-- MDRAIN, OPC 0x9B (R435). Enters a fused drain command for an accumulator bank. -/
  | mdrain (c : Common) (x : MatX)
  /-- MLDACC, OPC 0x9C (R441). Enters a command that loads an accumulator bank from scratch. -/
  | mldacc (c : Common) (x : MatX)
  /-- RDCTL, OPC 0xA0 (R460). Emits the tile's copy of a control register. -/
  | rdctl (c : Common) (ctl : BitVec 8)
  /-- WRCTL, OPC 0xA1 (R506). Writes a control register of the colour and emits the installed value. -/
  | wrctl (c : Common) (ctl : BitVec 8)
  /-- RDTIME, OPC 0xA2 (R462). Emits TIMEBASE. -/
  | rdtime (c : Common)
  /-- TRAP, OPC 0xA3 (R490). Stops the frame with SWTRAP and writes a PASS record. -/
  | trap (c : Common) (code : BitVec 16)
  /-- BRK, OPC 0xA4 (R370). Stops the frame with BRK on the host path. -/
  | brk (c : Common) (code : BitVec 16)
  /-- EVENT, OPC 0xA5 (R383). Posts an event bearing CODE to the VF's event queue and forwards its operand. -/
  | event (c : Common) (code : BitVec 16)
  /-- CFGSWAP, OPC 0xA6 (R372). Requests that the instance be switched to another weave and emits a status. -/
  | cfgswap (c : Common) (weaveId : BitVec 32)
  /-- MARK, OPC 0xA7 (R431). Requests a wale round from the queue home. -/
  | mark (c : Common)
  /-- RPLAY, OPC 0xA8 (R467). Sends a control request that resumes or kills a replay slot. -/
  | rplay (c : Common)
  /-- HINT, OPC 0xA9 (R414). Forwards its operand and passes a placement or prefetch hint. -/
  | hint (c : Common) (hint : BitVec 8)
  /-- UNIT_READY (R339). A unit completes its self-test or training and reports ready. -/
  | unitReady (kind idx ok : W64)
  /-- THERMAL_SHUTDOWN (R344). At 115 °C the package removes its own power. -/
  | thermalShutdown (temp : W64)
  /-- DUTY_RAISE (R344). Power or temperature above limit raises the throttle step within 1 ms. -/
  | dutyRaise (avgw temp : W64)
  /-- DUTY_LOWER (R344). A whole window below limits lowers the throttle step. -/
  | dutyLower (avgw temp : W64)
  /-- PWRCTL_WRITE (R343). Writes the power cap and window, refusing out-of-range values. -/
  | pwrctlWrite (v : W64)
  /-- FIRMWARE_UPDATE (R347). A PLDM update is written to the inactive slot and verified. -/
  | firmwareUpdate (img ver secver key : W64)
  /-- SPDM_REQUEST (R348). The SPDM responder serves a request with measurements and signatures. -/
  | spdmRequest (kind arg : W64)
  /-- REGISTER_WRITE (R8). Write to a register that has no row of its own. -/
  | registerWrite (space off v : W64)
  /-- ART_ENABLE (R162). Write that sets ARTnCTL EN, refused and flagged in ERR when the range is invalid. -/
  | artEnable (n v : W64)
  /-- WSHARE_WRITE (R158). Writes a partition's slice way share, starting a draining sweep for cleared ways. -/
  | wshareWrite (p d v : W64)
  /-- PARTCTL_ENABLE (R281). Write that sets a partition's EN, subject to refusal checks. -/
  | partctlEnable (p v : W64)
  /-- PARTCTL_DISABLE (R281). Write that clears a partition's EN, writing back its L1Ds and emptying its TLBs. -/
  | partctlDisable (p v : W64)
  /-- VFCFG_ENABLE (R283). Write that sets a VF's EN, subject to refusal checks. -/
  | vfcfgEnable (vf v : W64)
  /-- VFCFG_DISABLE (R293). Write that clears a VF's EN, running the VF reset sequence. -/
  | vfcfgDisable (vf v : W64)
  /-- FUNCTION_LEVEL_RESET (R293). FLR of a VF: kills its frames, invalidates its lines, starts scrubbing and resets its registers. -/
  | functionLevelReset (vf : W64)
  /-- VF_PAUSE (R292). Setting PAUSE stops task starts and pre-empts the VF's colours. -/
  | vfPause (vf v : W64)
  /-- VF_UNPAUSE (R292). Clearing PAUSE posts held events and resumes the VF's colours. -/
  | vfUnpause (vf v : W64)
  /-- SCHEDCTL_WRITE (R232). Writes a partition's slice, migration and watchdog controls. -/
  | schedctlWrite (p v : W64)
  /-- QNDL_WRITE (R272). Posting of a quench deadline, evaluated into courses or rejected. -/
  | qndlWrite (p v : W64)
  /-- QUENCH_FALLBACK (R273). A RUN instance that has not finished by its fallback time takes its fallback. -/
  | quenchFallback (p colour : W64)
  /-- QUENCH_VACANCY (R274). The partition becomes vacant; QNSTAT and QNDONE are set and an event is posted. -/
  | quenchVacancy (p : W64)
  /-- SQBASE_WRITE (R284). Writes the submission ring base, refused while busy or out of range. -/
  | sqbaseWrite (vf v : W64)
  /-- EQBASE_WRITE (R284). Writes the event ring base, refused while busy or out of range. -/
  | eqbaseWrite (vf v : W64)
  /-- SQ_DOORBELL (R286). A doorbell write to SQDB makes descriptors available to the job unit. -/
  | sqDoorbell (vf v : W64)
  /-- SQHEAD_WRITE (R287). Writing SQHEAD in error sets the last TAIL and clears SQERR. -/
  | sqheadWrite (vf v : W64)
  /-- INVAL_WRITE (R285). Starts a translation invalidation command over a virtual range. -/
  | invalWrite (vf v : W64)
  /-- INVALIDATION_COMPLETE (R166). No TLB, miss slot or walk cache holds the range any longer, and BUSY clears. -/
  | invalidationComplete (vf : W64)
  /-- TRAPRES_RESUME (R257). TRAPRES with ACT RESUME replays the slot's records. -/
  | trapresResume (vf v : W64)
  /-- TRAPRES_KILL (R258). TRAPRES with ACT KILL ends the trapped frame. -/
  | trapresKill (vf v : W64)
  /-- GSWCTL_GO (R276). Starts a guest switch that saves and restores one of the VF's colours. -/
  | gswctlGo (vf v : W64)
  /-- LAUNCH (R229). The job unit takes a LAUNCH descriptor and pushes its root record. -/
  | launch (vf : W64)
  /-- REPLAY (R235). The job unit takes a REPLAY descriptor and instantiates the task graph. -/
  | replay (vf : W64)
  /-- PATCH (R236). The job unit takes a PATCH descriptor and advances the graph's version. -/
  | patch (vf : W64)
  /-- LAUNCH_PUSH_RETRY (R229). A LAUNCH whose push returned FULL retries every 1,024 clk. -/
  | launchPushRetry (vf : W64)
  /-- TASK_TAKEUP (R51). An idle instance takes the next record from its queues and starts a root frame. -/
  | taskTakeup (colour : W64)
  /-- TASKJOIN_RETRY (R54). TASKEND's join that returned FULL is retried every 1,024 clk. -/
  | taskjoinRetry (colour : W64)
  /-- EVENT_WRITE (R288). The device writes a buffered event to the event ring when there is room. -/
  | eventWrite (vf : W64)
  /-- EVENT_SLOT_RETRY (R524). A held event write to a faulting slot is retried. -/
  | eventSlotRetry (vf : W64)
  /-- MSIX_MESSAGE (R289). The MSI-X vector is sent once MODUS has passed since the last message. -/
  | msixMessage (vf : W64)
  /-- HOST_INBOUND_REQUEST (R186). A request from the host port performs at the device in PCI Express order. -/
  | hostInboundRequest (write addr size : W64) (data : W512)
  /-- HOST_COMPLETION (R176). A completion or acknowledgement returns from the host for a device request. -/
  | hostCompletion (tag status : W64) (data : W512)
  /-- ATS_TRANSLATION_RESPONSE (R279). An ATS translation completion returns for a waiting host-window access. -/
  | atsTranslationResponse (page perm xlat : W64)
  /-- PRI_PAGE_RESPONSE (R279). A PRI page request completes, resuming the access or raising PGFLT HOSTPF. -/
  | priPageResponse (page ok : W64)
  /-- ATS_INVALIDATION (R279). A host ATS invalidation empties the cache for the range. -/
  | atsInvalidation (base log2l : W64)
  /-- LOCK_INTERFACE_REQUEST (R298). TDISP lock: freezes the VF's registers and builds the report. -/
  | lockInterfaceRequest (vf nonce stream : W64)
  /-- START_INTERFACE_REQUEST (R298). TDISP start moves the TDI to RUN. -/
  | startInterfaceRequest (vf nonce : W64)
  /-- STOP_INTERFACE_REQUEST (R298). TDISP stop returns the TDI to CONFIG_UNLOCKED. -/
  | stopInterfaceRequest (vf : W64)
  /-- IDE_INTEGRITY_FAILURE (R298). An IDE failure on the VF's stream moves the TDI to ERROR. -/
  | ideIntegrityFailure (vf : W64)
  /-- RDQ (R302). An incoming wicker read request is performed through an export window. -/
  | rdq (port srcdev tag off size : W64)
  /-- WRQ (R303). An incoming wicker write is performed once and cached against reissue. -/
  | wrq (port srcdev tag off mask : W64) (data : W512)
  /-- ATQ (R303). An incoming wicker atomic or reduction is performed once and cached. -/
  | atq (port srcdev tag off op : W64) (data : W512)
  /-- REL (R303). The source releases a completion-cache entry. -/
  | rel (port srcdev tag : W64)
  /-- RDR (R302). Read data returns to the requesting device. -/
  | rdr (port tag status : W64) (data : W512)
  /-- WRA (R303). A write acknowledgement returns and decrements ACKOUT. -/
  | wra (port tag status : W64)
  /-- ATR (R302). An atomic result returns to the requesting device. -/
  | atr (port tag status : W64) (data : W512)
  /-- FLIT_REPLAY_REQUEST (R302). A CRC failure makes the receiver ask for a replay from a sequence number. -/
  | flitReplayRequest (port seq : W64)
  /-- TOKEN_ARRIVAL (R74). A token reaches a port: it is checked, latched, matched, stored or spilled. -/
  | tokenArrival (colour src dst : W64)
  /-- SPILL_WRITE_RETRY (R76). A faulting spill write is retried after invalidation or 100 µs. -/
  | spillWriteRetry (colour : W64)
  /-- SPILL_REINJECT (R77). The oldest spilled token is re-injected when a row frees within quota. -/
  | spillReinject (colour : W64)
  /-- MISFIT_FORWARD (R64). A misfit token is forwarded unchanged along the misfit route. -/
  | misfitForward (colour lstake port : W64)
  /-- STRAY_REJECT (R242). A token of a foreign or unbound colour, or for an empty slot, is returned to its source. -/
  | strayReject (colour src dst : W64)
  /-- WEAVE_LOAD (R241). The partition scheduler loads an absent weave into shadow banks. -/
  | weaveLoad (colour : W64)
  /-- WALE_MARKER_ARRIVAL (R79). A wale marker reaches a port and leaves a boundary record. -/
  | waleMarkerArrival (colour src dst : W64)
  /-- ROUND_ENTRY (R80). A stake enters round w + 1, records its state and sends the marker on. -/
  | roundEntry (colour lstake : W64)
  /-- MARKER_INJECTION (R84). The quench controller injects marker w into every source of the colour. -/
  | markerInjection (colour : W64)
  /-- UNIT_MARKER_FORWARD (R83). A cluster unit forwards the marker once its earlier results have returned. -/
  | unitMarkerForward (colour lstake : W64)
  /-- FRAME_QUIESCED (R36). A retiring frame has quiesced; it leaves its barriers and a purge sweep starts. -/
  | frameQuiesced (colour frame : W64)
  /-- PURGE_SWEEP_DONE (R36). Every tile has acknowledged the sweep, and the frame number becomes free. -/
  | purgeSweepDone (colour frame : W64)
  /-- KGATE_DECREMENT (R420). A KDONE's decrement lands at its KGATE, changing the count. -/
  | kgateDecrement (colour gate : W64)
  /-- WSB_REQUEST_ARRIVAL (R128). A request reaches the home wave store buffer and is held or halts the frame. -/
  | wsbRequestArrival (colour lstake : W64)
  /-- WSB_LINK (R128). A held request links in wave order and issues, or raises its fault. -/
  | wsbLink (colour frame : W64)
  /-- FRAME_STOP_ACK (R135). A tile acknowledges the stop once begun firings have completed. -/
  | frameStopAck (colour frame tile : W64)
  /-- TRAP_RAISE (R135). All acks and issued requests are in; the replay queue closes and the trap is raised. -/
  | trapRaise (colour frame : W64)
  /-- TRAP_DELIVERY (R254). The trap is delivered on the handler path or the host path. -/
  | trapDelivery (colour frame : W64)
  /-- REPLAY_SLOT_RETRY (R250). A stopping frame waiting for a free replay slot looks again. -/
  | replaySlotRetry (colour frame : W64)
  /-- REPLAY_AREA_WRITE_RETRY (R250). A faulting write to the replay area is retried. -/
  | replayAreaWriteRetry (colour frame : W64)
  /-- CONTROL_REQUEST_SEND (R450). A held control request is sent to its unit once the frame's earlier requests have performed. -/
  | controlRequestSend (req : W64)
  /-- ACCESS_PERFORM (R168). An issued access performs at its perform point and its result returns. -/
  | accessPerform (req : W64)
  /-- FULL_EMPTY_PERFORM (R184). An LDF or STE performs when the line's full/empty condition is met. -/
  | fullEmptyPerform (req : W64)
  /-- LDT_LINE_WRITE (R427). One line of an LDT is read and written into scratch. -/
  | ldtLineWrite (req : W64)
  /-- STT_LINE_WRITE (R477). One scratch line of an STT is read and stored. -/
  | sttLineWrite (req : W64)
  /-- SY_RELEASE_DRAIN (R175). The ACKOUT epoch waits of an SY release end, and it performs. -/
  | syReleaseDrain (req : W64)
  /-- ATOMIC_RMW (R189). A read-modify-write unit applies an atomic or reduction. -/
  | atomicRmw (req : W64)
  /-- PAGE_WALK (R165). A walker translates a missing granule through the page tables. -/
  | pageWalk (cluster va : W64)
  /-- WALK_COMPLETE (R166). A completed walk satisfies or faults every waiter. -/
  | walkComplete (cluster va : W64)
  /-- RECLASSIFY_REQUEST (R156). The owning cluster flushes a PRIVATE page and acknowledges reclassification. -/
  | reclassifyRequest (cluster va : W64)
  /-- GETS (R151). The directory handles a shared read request. -/
  | gets (cluster line : W64)
  /-- GETX (R151). The directory handles an exclusive request. -/
  | getx (cluster line : W64)
  /-- PUTX (R151). The directory handles a writeback or clean eviction. -/
  | putx (cluster line : W64)
  /-- DIRECTORY_RMW (R151). The directory clears a line to I before a read-modify-write. -/
  | directoryRmw (line : W64)
  /-- DIRECTORY_EVICTION (R151). A directory entry is evicted, invalidating or recalling copies. -/
  | directoryEviction (line : W64)
  /-- PROBE (R152). A cluster answers a downgrade, invalidation or recall probe. -/
  | probe (cluster line : W64)
  /-- PROBE_ACK (R152). An acknowledgement or data reaches a busy directory entry. -/
  | probeAck (line : W64)
  /-- LOCK_REQUEST (R201). A solder lock request reaches the home directory, which locks and returns the line or queues it. -/
  | lockRequest (cluster slot : W64)
  /-- LOCK_GRANT (R200). A grant reaches the solder engine, which requests the next lock or performs the MCAS. -/
  | lockGrant (cluster slot : W64)
  /-- MCAS_CHECKS (R199). The solder engine checks an issued MCAS and its block in order. -/
  | mcasChecks (req : W64)
  /-- WRITE_AND_UNLOCK (R200). A home writes the MCAS's new words, unlocks and grants the next waiter. -/
  | writeAndUnlock (cluster slot line : W64)
  /-- UNLOCK_ACK (R200). The last unlock acknowledgement arrives; the block is written and the result emitted. -/
  | unlockAck (cluster slot : W64)
  /-- LOCK_WITHDRAWAL (R203). An unlock without write or a withdrawal reaches a home at a cut or kill. -/
  | lockWithdrawal (cluster slot : W64)
  /-- COPY_COMMAND_ACCEPT (R378). The queue home translates both ranges and accepts a copy command. -/
  | copyCommandAccept (req : W64)
  /-- COPY_PIECE (R380). The copy engine reads and writes one 64-byte piece. -/
  | copyPiece (colour queue : W64)
  /-- QFENCE_RELEASE (R182). Earlier commands of the named queues have performed and QFENCE emits. -/
  | qfenceRelease (colour idx : W64)
  /-- THROTTLED_ACTIVATION (R296). A throttled row is activated after DLY. -/
  | throttledActivation (row : W64)
  /-- MZERO_PERFORM (R219). A queued MZERO clears the bank. -/
  | mzeroPerform (tile bank : W64)
  /-- MLDACC_PERFORM (R219). A queued MLDACC loads the bank once its lines are full. -/
  | mldaccPerform (tile bank : W64)
  /-- MSNAP_START (R218). MSNAP copies the bank and starts its stream. -/
  | msnapStart (tile bank : W64)
  /-- MDRAIN_PERFORM (R221). MDRAIN computes and streams the bank once the residual lines are full. -/
  | mdrainPerform (tile bank : W64)
  /-- SLICE_EXPIRY (R232). A VF's time slice ends, and its colours are pre-empted. -/
  | sliceExpiry (p : W64)
  /-- FORCED_CUT (R260). At 12 µs an incomplete round is forced and channel state is spilled. -/
  | forcedCut (colour : W64)
  /-- SAVE_COMMIT (R267). The save's blocks are written, and CURRENT is written as a release. -/
  | saveCommit (colour : W64)
  /-- CFGSWAP_SWITCH (R373). At the slice boundary a queued switch saves the colour and rebinds it. -/
  | cfgswapSwitch (colour : W64)
  /-- MIGRATION_ROUND (R238). The scheduler starts a migration round by injecting a marker. -/
  | migrationRound (colour : W64)
  /-- STAKE_MOVE (R239). A stake is held, drained, copied to a new slot and remapped. -/
  | stakeMove (colour lstake tile slot : W64)
  /-- WATCHDOG_EXPIRY (R243). A colour is silent for WDOG clk. -/
  | watchdogExpiry (colour : W64)
  /-- SCHEDULER_UNBIND (R40). The scheduler on its own unbinds an idle weave instance, leaving its colour's task queues preserved in memory. -/
  | schedulerUnbind (colour : W64)
  /-- RESET_RELEASE (R339). Release of reset: the boot ROM verifies the firmware and releases the dies. -/
  | resetRelease
  /-- WARM_RESET (R342). Warm reset that leaves the scrub bitmap as it stood. -/
  | warmReset
  /-- PLDM_MONITOR_REQUEST (R345). The management endpoint reports TEMP, AVGW, DUTY and READY1. -/
  | pldmMonitorRequest
  /-- SLICE_SHRINK_SWEEP (R158). The sweep writes back and invalidates a partition's lines in draining ways, set by set. -/
  | sliceShrinkSweep
  /-- SLICE_SHRINK_COMPLETE (R158). The last writeback is acknowledged, and the SLDRAIN bit clears. -/
  | sliceShrinkComplete
  /-- WVREG (R329). PF command that validates and registers a weave image. -/
  | wvreg
  /-- BIND (R295). PF command that binds a colour to a registered weave. -/
  | bind
  /-- UNBIND (R295). PF command that unbinds an idle colour. -/
  | unbind
  /-- SAVE (R259). PF command that pre-empts and saves a colour. -/
  | save
  /-- RESUME (R513). PF command that resumes a context, possibly moving the VF to another partition. -/
  | resume
  /-- CKPTALL (R304). PF command that checkpoints partitions' memory to pooled memory. -/
  | ckptall
  /-- STRAY_RETURN (R242). The returned token reaches its source tile, which stops the sending frame with STRAY. -/
  | strayReturn
  /-- UPSETT_ARRIVAL (R86). An upsett token arrives and the tile flips its configuration banks. -/
  | upsettArrival
  /-- FENCE_SLOT_GRANT (R180). A fence waiting for a ticket slot takes a freed one. -/
  | fenceSlotGrant
  /-- SCRUB_GRANULE (R294). The scrub engine zeroes one granule and clears its bit. -/
  | scrubGranule
  /-- HAMMER_WINDOW_END (R296). The 32 ms activation window ends and throttling stops. -/
  | hammerWindowEnd
  /-- MMA_STEP_START (R215). An MMA step starts once all its operand lines are full. -/
  | mmaStepStart
  /-- MMA_STEP_COMMIT (R217). An MMA step commits its updates and emits STEPS. -/
  | mmaStepCommit
  /-- WICKER_LINK_DOWN (R349). A wicker link port loses its link, and its link-down event counter increments. -/
  | wickerLinkDown
  deriving DecidableEq, Repr

end Sys2Proof
end

