-- ==== Sys2Proof/Config.lean ====
section
/-! DEFINITION. What the device fixes and the spec does not state: fused values, signature checks and free values.
A free value is an opaque constant applied to the operands it may depend on or to a counter of the state; nothing in
Lean can evaluate one, so a claim about it holds for every value (log entry 2). -/

namespace Sys2Proof.Config

/-- Which of the two F32 values adjacent to f(a) an approximate function returns under RNE, by the function's opcode and
its operand (R356): true for the one of larger value. -/
opaque approxUpper : Nat → BitVec 32 → Bool

/-- A fresh free bit for each value of the state's counter: the choice between an old and a new byte in a copy of
overlapping ranges (R380), in an LDT onto its own source (R427), and in lines stored to during an MMA step (R215). -/
opaque freeBit : Nat → Bool

/-- A fresh free value of 64 bits for each value of the state's counter: a value that the spec names and gives no value for. -/
opaque freeWord : Nat → W64

/-- The bytes that a granule with the poison code of R164 reads as where a rule delivers them. -/
opaque poisonByte : Nat → Byte

/-- PFID STEP, fused (R340). -/
opaque step : BitVec 8

/-- The part is a TVD-4M-768, fused (R340). -/
opaque formM : Bool

/-- PFID FORM, fused: 0 TVD-4P-768, 1 TVD-4M-768 (R340). -/
def form : BitVec 8 := if formM then 1 else 0

/-- The image public key fused in position k, from 0 to 3, when one is (R346). -/
opaque imageKey : Nat → Option (Nat × Nat)

/-- The bytes of a firmware image, by its number: what precedes its signature (R347). -/
opaque fwBytes : Nat → List Byte

/-- The signature (r, s) of a firmware image, by its number (R346, R347). -/
opaque fwSig : Nat → Nat × Nat

/-- The bytes of the boot ROM (R348). -/
opaque romBytes : List Byte

/-- The fused device key, a private key, which certifies identities (R348). -/
opaque deviceKey : Nat

/-- The private key of the identity, from the fused secret and the digest of the running firmware (R348). -/
opaque identityKey : List Byte → Nat

/-- The nonce of a signature, for each value of the state's counter (R346). -/
opaque nonce : Nat → Nat

/-- The corrected errors that a unit meets between two clk, which no other step of the model shows: by kind, 0 HBM, 1 slice, 2
die-to-die retries and 3 scratch, by die or tile, and by the two clk (R349). -/
opaque corrected : Nat → Nat → Nat → Nat → Nat

/-- Where a VF's MSI-X table stands in its BAR0 (R300): the spec does not place it. -/
opaque msixOffset : W64

/-- The number of this device in its pod: SRCDEV of its messages (R302). -/
opaque devNumber : Nat

/-- The wicker port that carries the requests for one line of one target: a fixed hash (R303). -/
opaque portHash : Nat → Nat → Nat

/-- The routers that a channel between two tiles of different clusters crosses: its route is fixed for the channel and the
spec does not give it (R73). The result counts the routers beyond two. -/
opaque extraHops : Nat → Nat → Nat

end Sys2Proof.Config
end

