-- ==== Sys2Proof/Machine/Fields.lean ====
section
/-! DEFINITION. The codes of the fields of a stake word (Tables 4.1, 13.1, 13.2, 13.3) and the sizes of the types. -/

namespace Sys2Proof

/-- The TY code of a type (Table 4.1). -/
def Ty.code : Ty → BitVec 4
  | .i8 => 0 | .n8 => 1 | .i16 => 2 | .n16 => 3 | .i32 => 4 | .n32 => 5 | .i64 => 6 | .n64 => 7
  | .f32 => 8 | .bf16 => 9 | .f16 => 10 | .e4m3 => 11 | .e5m2 => 12 | .e2m1 => 13 | .f64 => 14 | .x => 15

/-- The type of a TY code: every code is assigned. -/
def Ty.ofCode (b : BitVec 4) : Ty :=
  match b.toNat with
  | 0 => .i8 | 1 => .n8 | 2 => .i16 | 3 => .n16 | 4 => .i32 | 5 => .n32 | 6 => .i64 | 7 => .n64
  | 8 => .f32 | 9 => .bf16 | 10 => .f16 | 11 => .e4m3 | 12 => .e5m2 | 13 => .e2m1 | 14 => .f64
  | _ => .x

/-- The width of a lane in bits (Table 4.1). -/
def Ty.width : Ty → Nat
  | .i8 | .n8 | .e4m3 | .e5m2 => 8
  | .i16 | .n16 | .bf16 | .f16 => 16
  | .i32 | .n32 | .f32 => 32
  | .i64 | .n64 | .f64 => 64
  | .e2m1 => 4
  | .x => 512

/-- The number of lanes of a token (Table 4.1). -/
def Ty.lanes (t : Ty) : Nat := 512 / t.width

/-- The I types: two's complement integers (R89). -/
def Ty.isSigned : Ty → Bool
  | .i8 | .i16 | .i32 | .i64 => true
  | _ => false

/-- The N types: unsigned integers (R89). -/
def Ty.isUnsigned : Ty → Bool
  | .n8 | .n16 | .n32 | .n64 => true
  | _ => false

/-- INT of Table 14.2: TY 0 to 7. -/
def Ty.isInt (t : Ty) : Bool := t.isSigned || t.isUnsigned

/-- FLT of Table 14.2: TY 8, 9, 10 and 14. -/
def Ty.isFlt : Ty → Bool
  | .f32 | .bf16 | .f16 | .f64 => true
  | _ => false

/-- NAR of Table 14.2: TY 11, 12 and 13. -/
def Ty.isNar : Ty → Bool
  | .e4m3 | .e5m2 | .e2m1 => true
  | _ => false

/-- TY 8 to 14: every floating-point type. -/
def Ty.isFloat (t : Ty) : Bool := t.isFlt || t.isNar

/-- TY 8, 9 and 10. -/
def Ty.isFlt3 : Ty → Bool
  | .f32 | .bf16 | .f16 => true
  | _ => false

/-- The format tag of a result (Table 4.1, R61): 0 RAW, 1 F32, 2 BF16, 3 F16, 4 E4M3, 5 E5M2, 6 E2M1. -/
def Ty.fmt : Ty → BitVec 3
  | .f32 => 1 | .bf16 => 2 | .f16 => 3 | .e4m3 => 4 | .e5m2 => 5 | .e2m1 => 6
  | _ => 0

/-- The code of a selector (Table 13.3). -/
def Sel.code : Sel → BitVec 3
  | .port => 0 | .l0 => 1 | .l1 => 2 | .l2 => 3 | .l3 => 4 | .imm => 5 | .zero => 6 | .special => 7

/-- The selector of a code: every code is assigned. -/
def Sel.ofCode (b : BitVec 3) : Sel :=
  match b.toNat with
  | 0 => .port | 1 => .l0 | 2 => .l1 | 3 => .l2 | 4 => .l3 | 5 => .imm | 6 => .zero
  | _ => .special

/-- The 20 bits of a destination field (Table 13.2). -/
def Dest.bits (d : Dest) : BitVec 20 :=
  BitVec.ofBool d.v ++ BitVec.ofBool d.q ++ d.lstake ++ d.port

/-- A destination field read from its 20 bits (Table 13.2). -/
def Dest.ofBits (b : BitVec 20) : Dest :=
  { v := b.getLsbD 19, q := b.getLsbD 18, lstake := b.extractLsb' 2 16, port := b.extractLsb' 0 2 }

/-- The field of a destination not in use: V = 0 must be all zero (R306). -/
def Dest.none : Dest := { v := false, q := false, lstake := 0, port := 0 }

/-- V = 1 and Q = 0: the destination takes results (R306). -/
def Dest.isResult (d : Dest) : Bool := d.v && !d.q

/-- V = 1 and Q = 1: a misfit route, or the false side of a STEER. -/
def Dest.isQ (d : Dest) : Bool := d.v && d.q

/-- Bits [127:35] of a stake word but for OPC, in the order of Table 13.1. -/
def Common.bits (c : Common) : BitVec 85 :=
  c.ty.code ++ c.md ++ c.acc ++ c.sa.code ++ c.sb.code ++ c.sc.code ++ c.d0.bits ++ c.d1.bits ++ c.d2.bits

/-- The common fields of a stake word (Table 13.1). -/
def Common.ofWord (w : StakeWord) : Common :=
  { ty := Ty.ofCode (w.extractLsb' 116 4), md := w.extractLsb' 112 4, acc := w.extractLsb' 104 8,
    sa := Sel.ofCode (w.extractLsb' 101 3), sb := Sel.ofCode (w.extractLsb' 98 3),
    sc := Sel.ofCode (w.extractLsb' 95 3), d0 := Dest.ofBits (w.extractLsb' 75 20),
    d1 := Dest.ofBits (w.extractLsb' 55 20), d2 := Dest.ofBits (w.extractLsb' 35 20) }

/-- MOD[3] as the V flag of the arithmetic and vector classes (R310). -/
def Common.vec (c : Common) : Bool := c.md.getLsbD 3

/-- MOD[2:0], the rounding field (R98). -/
def Common.rnd (c : Common) : Nat := (c.md.extractLsb' 0 3).toNat

/-- MOD[1:0], the scope of a memory operation (Table 7.2). -/
def Common.scp (c : Common) : Nat := (c.md.extractLsb' 0 2).toNat

/-- MOD[3:2] of a memory operation (Table 7.2). -/
def Common.mdHi (c : Common) : Nat := (c.md.extractLsb' 2 2).toNat

/-- The three destination fields in order. -/
def Common.dests (c : Common) : List Dest := [c.d0, c.d1, c.d2]

/-- The AOP of a single-location atomic: the SC field (R191, Table 8.3). -/
def Common.aop (c : Common) : Nat := c.sc.code.toNat

/-- The sequence-field code of "none" (Table 5.1). -/
def seqNone : BitVec 9 := 0x1FE

/-- The sequence-field code of "unknown" (Table 5.1). -/
def seqUnknown : BitVec 9 := 0x1FF

/-- The bytes that an SZ code stands for (R313): codes 0 to 6 give 1 to 64. -/
def szBytes (sz : BitVec 3) : Nat := 2 ^ sz.toNat

end Sys2Proof
end

