-- ==== Sys2Proof/Machine/Legal.lean ====
section
/-! DEFINITION. The load-time rules about one stake word: its class (step 4 of R329), its destination fields
(R306, step 6) and its wave fields (R122, step 7). -/

namespace Sys2Proof.Machine

/-- Selectors 0 to 4: a port or a local register. -/
def selReg : Sel → Bool
  | .port | .l0 | .l1 | .l2 | .l3 => true
  | _ => false

/-- Selectors 1 to 4. -/
def selLocal : Sel → Bool
  | .l0 | .l1 | .l2 | .l3 => true
  | _ => false

/-- Selectors 0 to 5. -/
def selRegImm (s : Sel) : Bool := selReg s || s == .imm

/-- Selectors 0 to 4 and 6. -/
def selRegZero (s : Sel) : Bool := selReg s || s == .zero

/-- Selectors 0 to 6: a named position whose entry lists no selectors (log entry 5). -/
def selAny (s : Sel) : Bool := s != .special

/-- The number of immediates among SA, SB and SC (R309). -/
def immCount (c : Common) : Nat :=
  (if c.sa = .imm then 1 else 0) + (if c.sb = .imm then 1 else 0) + (if c.sc = .imm then 1 else 0)

/-- R309: the immediate must be encodable in TY. -/
def immFits (t : Ty) (imm : BitVec 32) : Bool :=
  match t with
  | .i8 => imm == (imm.setWidth 8).signExtend 32
  | .i16 => imm == (imm.setWidth 16).signExtend 32
  | .n8 | .e4m3 | .e5m2 => imm == (imm.setWidth 8).setWidth 32
  | .n16 | .bf16 | .f16 => imm == (imm.setWidth 16).setWidth 32
  | .e2m1 => imm == (imm.setWidth 4).setWidth 32
  | _ => true

/-- R309: at most one immediate; it fits TY; without one, XF[31:0] is zero. -/
def immOk (c : Common) (x : ImmX) : Bool :=
  match immCount c with
  | 0 => x.imm == 0
  | 1 => immFits c.ty x.imm
  | _ => false

/-- The immediate layout with SUB = 0 (R312). -/
def immX0 (c : Common) (x : ImmX) : Bool := x.sub == 0 && immOk c x

/-- MOD 0 of Table 14.2. -/
def mod0 (c : Common) : Bool := c.md == 0

/-- MOD V of Table 14.2. -/
def modV (c : Common) : Bool := c.rnd == 0

/-- MOD VR of Table 14.2. -/
def modVR (c : Common) : Bool := c.rnd ≤ 4

/-- At least one destination with V = 1. -/
def someDest (c : Common) : Bool := c.dests.any (·.v)

/-- At least one destination with V = 1 and Q = 0. -/
def someResult (c : Common) : Bool := c.dests.any (·.isResult)

/-- SA as given, SB and SC zero: one operand. -/
def srcs1 (c : Common) (p : Sel → Bool) : Bool := p c.sa && c.sb == .zero && c.sc == .zero

/-- Two operands. -/
def srcs2 (c : Common) (p q : Sel → Bool) : Bool := p c.sa && q c.sb && c.sc == .zero

/-- Three operands. -/
def srcs3 (c : Common) (p q r : Sel → Bool) : Bool := p c.sa && q c.sb && r c.sc

/-- Port a alone. -/
def srcPortA (c : Common) : Bool := srcs1 c (· == .port)

/-- Exponent bits, fraction bits and bias of a floating-point type (Table 4.2); zeros for the others. -/
def Ty.fp (t : Ty) : Nat × Nat × Nat :=
  match t with
  | .f64 => (11, 52, 1023) | .f32 => (8, 23, 127) | .bf16 => (8, 7, 127) | .f16 => (5, 10, 15)
  | .e5m2 => (5, 2, 15) | .e4m3 => (4, 3, 7) | .e2m1 => (2, 1, 1)
  | _ => (0, 0, 0)

/-- The exponent of the largest finite value (Table 4.3). -/
def Ty.emax (t : Ty) : Nat :=
  match t with
  | .f64 => 1023 | .f32 | .bf16 => 127 | .f16 | .e5m2 => 15 | .e4m3 => 8 | .e2m1 => 2
  | _ => 0

/-- R98: a floating-point conversion narrows when its target cannot represent some value of the source: its
fraction is shorter, its largest exponent is smaller, or its smallest spacing is coarser. -/
def narrowsFloat (ty sty : Ty) : Bool :=
  let (_, mt, bt) := Ty.fp ty
  let (_, ms, bs) := Ty.fp sty
  mt < ms || Ty.emax ty < Ty.emax sty || bt + mt < bs + ms

/-- R98, Table 17.2: an integer source of at most this many significant bits is exact in the target. -/
def narrowsInt (ty sty : Ty) : Bool :=
  let (_, mt, _) := Ty.fp ty
  let sig := if sty.isSigned then sty.width - 1 else sty.width
  mt + 1 < sig

/-- MOD VS of Table 14.2 for a floating-point pair. -/
def modVSFloat (c : Common) (sty : Ty) : Bool := c.rnd ≤ 4 || (c.rnd == 5 && narrowsFloat c.ty sty)

/-- MOD VS of Table 14.2 for I2F. -/
def modVSInt (c : Common) (sty : Ty) : Bool := c.rnd ≤ 4 || (c.rnd == 5 && narrowsInt c.ty sty)

/-- MOD of VRED, VSCAN and VCHAIN (R492): rounding 0 to 4 for floating types and 0 for integer types. -/
def modRed (c : Common) : Bool := if c.ty.isInt then modV c else modVR c

/-- SUB of VRED, VSCAN and VCHAIN (R312, R492): AND, OR and XOR are for integer types only. -/
def subRed (c : Common) (x : ImmX) : Bool := x.sub.toNat ≤ (if c.ty.isInt then 5 else 2)

/-- A two-operand integer instruction whose entry lists no selectors. -/
def int2 (c : Common) (x : ImmX) : Bool := c.ty.isInt && modV c && srcs2 c selAny selAny && immX0 c x

/-- A two-operand integer instruction of Table 18.1 (R452). -/
def int2t (c : Common) (x : ImmX) : Bool := c.ty.isInt && modV c && srcs2 c selRegImm selRegImm && immX0 c x

/-- A bitwise instruction: INT or X. -/
def bit2 (c : Common) (x : ImmX) (p : Sel → Bool) : Bool :=
  (c.ty.isInt || c.ty == .x) && modV c && srcs2 c p p && immX0 c x

/-- A two-operand float instruction (R355). -/
def flt2 (c : Common) (x : ImmX) : Bool := c.ty.isFlt && modVR c && srcs2 c selAny selAny && immX0 c x

/-- A one-operand approximate function (R356). -/
def flt1a (c : Common) (x : ImmX) : Bool := c.ty.isFlt3 && modVR c && srcs1 c selAny && immX0 c x

/-- Table 7.3: ORD and SCP of a memory operation; ORD = 0 requires SCP = 0. -/
def ordScp (c : Common) (ord : BitVec 2) (allowed : List Nat) : Bool :=
  allowed.contains ord.toNat && c.scp != 3 && (ord != 0 || c.scp == 0)

/-- R421: SZ is a whole number of elements of TY, at least one; for TY 13 and 15 any SZ is legal. -/
def szOk (t : Ty) (sz : BitVec 3) : Bool :=
  sz != 7 && (t == .e2m1 || t == .x || t.width ≤ 8 * szBytes sz)

/-- The element size of an atomic (Table 8.2): SZ equals the width of TY. -/
def szIsWidth (t : Ty) (sz : BitVec 3) : Bool := sz != 7 && 8 * szBytes sz == t.width

/-- TY 4 to 7. -/
def tyAtom (t : Ty) : Bool := t == .i32 || t == .n32 || t == .i64 || t == .n64

/-- The form shared by LD and LDF (R421). -/
def loadForm (c : Common) (m : MemX) : Bool :=
  c.mdHi == 0 && ordScp c m.ord [0, 1] && srcs1 c selReg && someResult c && szOk c.ty m.sz

/-- The form shared by ST and STE (R471). -/
def storeForm (c : Common) (m : MemX) : Bool :=
  c.mdHi == 0 && ordScp c m.ord [0, 2] && srcs2 c selReg selRegZero && szOk c.ty m.sz

/-- The form shared by MEMNOP, WAVEADV and the other one-token control stakes of TY 15. -/
def ctlPortA (c : Common) : Bool := c.ty == .x && mod0 c && srcPortA c

/-- A TY 15 stake with SA 0 to 4 (system class, R414). -/
def ctlReg (c : Common) : Bool := c.ty == .x && mod0 c && srcs1 c selReg

/-- Destinations only as misfit routes (FRAMEEND, TASKEND, SINK). -/
def onlyMisfit (c : Common) : Bool := c.dests.all fun d => !d.v || d.q

/-- R317, Table 13.7: the assigned control registers. -/
def ctlAssigned (n : Nat) : Bool :=
  n == 0 || n == 2 || n == 3 || n == 4 || n == 5 || (0x10 ≤ n && n ≤ 0x2F) || n == 0x30 || n == 0x31

/-- R210: the pairs of TY and BTY of MMA. -/
def mmaPair (a b : Ty) : Bool :=
  match a, b with
  | .e2m1, .e2m1 | .bf16, .bf16 | .f16, .f16 => true
  | .e4m3, .e4m3 | .e4m3, .e5m2 | .e5m2, .e4m3 | .e5m2, .e5m2 => true
  | .i8, .i8 | .i8, .n8 | .n8, .i8 | .n8, .n8 => true
  | _, _ => false

/-- The form of MZERO and MLDACC (Table 9.1). -/
def matZero (c : Common) (x : MatX) : Bool :=
  (c.ty == .f32 || c.ty == .i32) && mod0 c && srcs1 c selReg && x.bty == .i8

/-- Step 4 of R329: the word against its class, TY, MOD, selectors and XF values; ACC of a STEER is 0 (R474; log entry 111). Device
steps have no such rule. -/
def Instr.formOk (i : Instr) : Bool :=
  match i with
  | .const c x => mod0 c && srcs1 c (fun s => selLocal s || s == .imm) && immX0 c x
  | .mov c x => mod0 c && srcs1 c selRegImm && immX0 c x
  | .steer c x => mod0 c && srcs2 c selRegImm selRegImm && immX0 c x && c.acc == 0
  | .select c x => mod0 c && srcs3 c selRegImm selRegImm selRegImm && immX0 c x
  | .merge c => mod0 c && srcs2 c (· == .port) (· == .port)
  | .sink c => c.ty == .x && mod0 c &&
      srcs3 c (· == .port) (fun s => s == .port || s == .zero) (fun s => s == .port || s == .zero) && onlyMisfit c
  | .movid c ident => c.ty == .n32 && mod0 c && srcs1 c (· == .special) && ident.toNat ≤ 8
  | .waveadv c => ctlPortA c && someDest c
  | .framenew c _ => ctlPortA c
  | .frameend c => ctlPortA c && onlyMisfit c
  | .retag c rsel => c.ty == .x && mod0 c && srcs2 c (· == .port) selReg && rsel != 3
  | .kgate c bound => ctlPortA c && bound != 0
  | .kdone c _ => ctlPortA c
  | .bar c _ => ctlPortA c
  | .barleave c _ => ctlPortA c
  | .taskpush c x => c.ty == .x && mod0 c && srcs2 c selReg selRegImm && immX0 c x && someResult c
  | .taskjoin c => ctlReg c && someResult c
  | .taskend c => ctlPortA c && onlyMisfit c
  | .qpop c _ => ctlReg c && someResult c && c.d0.v && !c.d2.v
  | .qpush c _ => ctlReg c && someResult c
  | .fmtcast c sty => c.ty.isFloat && c.ty != .f64 && sty.isFloat && sty != .f64 && sty != c.ty && c.vec &&
      modVSFloat c sty && srcPortA c
  | .add c x | .adds c x | .mul c x | .mulh c x | .div c x | .min c x | .max c x => int2 c x
  | .sub c x | .subs c x | .rem c x | .shl c x | .shr c x | .sar c x | .rol c x => int2t c x
  | .mad c x => c.ty.isInt && modV c && srcs3 c selAny selAny selAny && immX0 c x
  | .abs c x => c.ty.isSigned && modV c && srcs1 c selAny && immX0 c x
  | .neg c x | .popc c x => c.ty.isInt && modV c && srcs1 c selRegImm && immX0 c x
  | .and c x | .andn c x => bit2 c x selAny
  | .or c x | .xor c x => bit2 c x selRegImm
  | .clz c x => c.ty.isInt && modV c && srcs1 c selAny && immX0 c x
  | .cmp c x => c.ty.isInt && modV c && srcs2 c selAny selAny && immOk c x && x.sub.toNat ≤ 5
  | .lea c x => c.ty == .n64 && modV c && srcs2 c selAny selAny && immOk c x && x.sub.toNat ≤ 6
  | .sext c sty => c.ty.isSigned && sty.isSigned && sty.width < c.ty.width && modV c && srcs1 c selReg
  | .zext c sty => c.ty.isUnsigned && sty.isUnsigned && sty.width < c.ty.width && modV c && srcs1 c selReg
  | .bfx c x => c.ty.isInt && modV c && srcs1 c selRegZero && x.len != 0 && x.pos.toNat + x.len.toNat ≤ c.ty.width
  | .bfi c x => c.ty.isInt && modV c && srcs2 c selRegZero selRegZero && x.len != 0 &&
      x.pos.toNat + x.len.toNat ≤ c.ty.width
  | .fadd c x | .fsub c x | .fmul c x | .fdiv c x => flt2 c x
  | .ffma c x => c.ty.isFlt && modVR c && srcs3 c selAny selAny selAny && immX0 c x
  | .fsqrt c x | .frnd c x => c.ty.isFlt && modVR c && srcs1 c selAny && immX0 c x
  | .fmin c x | .fmax c x => c.ty.isFlt && modV c && srcs2 c selAny selAny && immX0 c x
  | .fcmp c x => c.ty.isFlt && modV c && srcs2 c selAny selAny && immOk c x && x.sub.toNat ≤ 6
  | .fabs c x | .fneg c x => c.ty.isFlt && modV c && srcs1 c selAny && immX0 c x
  | .frcp c x | .frsq c x | .fexp2 c x | .flog2 c x | .fsin c x | .fcos c x | .ftanh c x => flt1a c x
  | .fclass c x => c.ty.isFloat && modV c && srcs1 c selAny && immX0 c x
  | .fcvt c sty => c.ty.isFloat && sty.isFloat && sty != c.ty && modVSFloat c sty && srcs1 c selRegZero
  | .f2i c sty => c.ty.isInt && sty.isFlt && modVR c && srcs1 c selRegZero
  | .i2f c sty => c.ty.isFlt && sty.isInt && modVSInt c sty && srcs1 c selReg
  | .vred c x | .vscan c x => c.ty != .x && modRed c && srcs1 c selReg && subRed c x && x.imm == 0
  | .vperm c x => c.ty != .x && modV c && srcs2 c selReg selReg && immX0 c x
  | .vbcast c x => c.ty != .x && modV c && srcs1 c selRegImm && immX0 c x
  | .vext c x => c.ty != .x && mod0 c && srcs2 c selRegImm selRegImm && immX0 c x
  | .vins c x | .vsel c x => c.ty != .x && modV c && srcs3 c selRegImm selRegImm selRegImm && immX0 c x
  | .vpack c sty => c.ty != .x && c.ty != .f64 && 2 * c.ty.width ≤ sty.width && srcs2 c selReg selReg &&
      ((c.ty.isInt && sty.isInt && modV c) || (c.ty.isFloat && sty.isFloat && modVSFloat c sty))
  | .vunpk c sty => c.ty != .x && sty.width < c.ty.width && modV c && srcs2 c selReg selRegZero &&
      ((c.ty.isInt && sty.isInt) || (c.ty.isFloat && sty.isFloat))
  | .vquant c sty => c.ty.isNar && sty.isFlt3 && c.vec && c.rnd ≤ 5 &&
      srcs2 c (· == .port) (fun s => selLocal s || s == .zero)
  | .vdeq c sty => c.ty.isFlt3 && sty.isNar && modVR c && srcPortA c
  | .vchain c x => c.ty != .x && modRed c && srcs2 c (· == .port) (fun s => s == .port || s == .zero) &&
      subRed c x && x.imm == 0
  | .vhdr c => c.ty == .x && mod0 c && srcs2 c selReg selRegZero
  | .rng c stream => c.ty == .n32 && modV c && srcs1 c selReg && stream != 1 && stream != 2
  | .ld c m => loadForm c m
  | .st c m => storeForm c m
  | .ldt c m => c.mdHi == 0 && ordScp c m.ord [0, 1] && srcs1 c selReg && someResult c && m.sz == 6
  | .stt c m => c.mdHi == 0 && ordScp c m.ord [0, 2] && srcs1 c selReg && someResult c && m.sz == 6
  | .ldf c m => loadForm c m
  | .ste c m => storeForm c m
  | .memnop c m => ctlPortA c && m.fc == 0 && m.sz == 0 && m.ord == 0
  | .pref c m => mod0 c && srcs1 c selReg && m.fc == 0 && m.sz != 7 && m.ord == 0
  | .fence c x => c.ty == .x && c.mdHi != 0 && c.scp != 3 && srcPortA c && someDest c && x.mask != 0
  | .fwait c => ctlPortA c && someDest c
  | .atom c m => tyAtom c.ty && c.mdHi == 0 && ordScp c m.ord [0, 1, 2, 3] && selReg c.sa && selRegZero c.sb &&
      c.aop ≤ 6 && someDest c && szIsWidth c.ty m.sz
  | .fatom c m => (c.ty == .f32 || c.ty == .f64) && c.mdHi == 0 && ordScp c m.ord [0, 1, 2, 3] && selReg c.sa &&
      selRegZero c.sb && [0, 4, 5, 6].contains c.aop && someDest c && szIsWidth c.ty m.sz
  | .cas c m => tyAtom c.ty && c.mdHi == 0 && ordScp c m.ord [0, 1, 2, 3] && selReg c.sa && selRegZero c.sb &&
      selRegZero c.sc && someDest c && szIsWidth c.ty m.sz
  | .red c m => tyAtom c.ty && c.mdHi == 0 && ordScp c m.ord [0, 2] && selReg c.sa && selRegZero c.sb &&
      c.aop ≤ 5 && szOk c.ty m.sz
  | .fred c m => c.ty.isFlt && c.mdHi == 0 && ordScp c m.ord [0, 2] && selReg c.sa && selRegZero c.sb &&
      [0, 4, 5].contains c.aop && szOk c.ty m.sz
  | .mcas c m => ctlReg c && someDest c && m.sz == 3 && m.ord == 0
  | .cpy c m | .cpywp c m => mod0 c && srcs1 c selReg && m.sz == 0 && m.ord == 0
  | .qfence c m => c.ty == .n32 && c.mdHi == 0 && c.scp != 3 && srcs1 c selReg && someDest c && m.fc == 0 &&
      m.sz == 0 && m.ord == 0
  | .tmld c m => c.ty == .x && ordScp c m.ord [0, 1] && srcs2 c selReg (· == .special)
  | .tmst c m => c.ty == .x && ordScp c m.ord [0, 2] && srcs3 c selReg (· == .special) selReg
  | .tmset c _ | .tmnar c _ | .tmget c _ => c.ty == .x && mod0 c && srcs2 c selReg (· == .special)
  | .mzero c x | .mldacc c x => matZero c x
  | .mma c x => mod0 c && srcs3 c (· == .port) (· == .port) (· == .special) && mmaPair c.ty x.bty
  | .msnap c x => (c.ty == .f32 || c.ty == .i32) && mod0 c && srcs2 c selReg (· == .special) && x.bty == .i8 &&
      c.d0.v && c.d1.v && !c.d2.v
  | .mdrain c x => (c.ty == .i32 && mod0 c || c.ty == .f32 && c.rnd ≤ 4 || c.ty.isFloat && c.ty != .f32 && c.ty != .f64 && c.rnd ≤ 5) &&
      !c.vec && srcs2 c selReg (· == .special) && x.bty == .i8 && c.d0.v && !c.d2.v
  | .rdctl c ctl | .wrctl c ctl => c.ty == .n64 && mod0 c && srcs1 c selReg && ctlAssigned ctl.toNat
  | .rdtime c => c.ty == .n64 && mod0 c && srcs1 c selReg
  | .trap c _ | .brk c _ | .event c _ | .cfgswap c _ | .mark c => ctlReg c
  | .rplay c => ctlReg c && someResult c
  | .hint c kind => ctlReg c && kind.toNat ≤ 3
  | .resetRelease | .unitReady _ _ _ | .warmReset | .thermalShutdown _ | .dutyRaise _ _ | .dutyLower _ _
  | .pwrctlWrite _ | .firmwareUpdate _ _ _ _ | .spdmRequest _ _ | .pldmMonitorRequest | .registerWrite _ _ _
  | .artEnable _ _ | .wshareWrite _ _ _ | .sliceShrinkSweep | .sliceShrinkComplete | .partctlEnable _ _
  | .partctlDisable _ _ | .vfcfgEnable _ _ | .vfcfgDisable _ _ | .functionLevelReset _ | .vfPause _ _
  | .vfUnpause _ _ | .schedctlWrite _ _ | .qndlWrite _ _ | .quenchFallback _ _ | .quenchVacancy _
  | .sqbaseWrite _ _ | .eqbaseWrite _ _ | .sqDoorbell _ _ | .sqheadWrite _ _ | .invalWrite _ _
  | .invalidationComplete _ | .trapresResume _ _ | .trapresKill _ _ | .gswctlGo _ _ | .wvreg | .bind | .unbind
  | .save | .resume | .ckptall | .launch _ | .replay _ | .patch _ | .launchPushRetry _ | .taskTakeup _
  | .taskjoinRetry _ | .eventWrite _ | .eventSlotRetry _ | .msixMessage _ | .hostInboundRequest _ _ _ _
  | .hostCompletion _ _ _ | .atsTranslationResponse _ _ _ | .priPageResponse _ _ | .atsInvalidation _ _
  | .lockInterfaceRequest _ _ _ | .startInterfaceRequest _ _ | .stopInterfaceRequest _ | .ideIntegrityFailure _
  | .rdq _ _ _ _ _ | .wrq _ _ _ _ _ _ | .atq _ _ _ _ _ _ | .rel _ _ _ | .rdr _ _ _ _ | .wra _ _ _ | .atr _ _ _ _
  | .flitReplayRequest _ _ | .tokenArrival _ _ _ | .spillWriteRetry _ | .spillReinject _ | .misfitForward _ _ _
  | .strayReject _ _ _ | .strayReturn | .weaveLoad _ | .waleMarkerArrival _ _ _ | .roundEntry _ _
  | .markerInjection _ | .unitMarkerForward _ _ | .upsettArrival | .frameQuiesced _ _ | .purgeSweepDone _ _
  | .kgateDecrement _ _ | .wsbRequestArrival _ _ | .wsbLink _ _ | .frameStopAck _ _ _ | .trapRaise _ _
  | .trapDelivery _ _ | .replaySlotRetry _ _ | .replayAreaWriteRetry _ _ | .controlRequestSend _
  | .accessPerform _ | .fullEmptyPerform _ | .ldtLineWrite _ | .sttLineWrite _ | .fenceSlotGrant
  | .syReleaseDrain _ | .atomicRmw _ | .pageWalk _ _ | .walkComplete _ _ | .reclassifyRequest _ _ | .gets _ _
  | .getx _ _ | .putx _ _ | .directoryRmw _ | .directoryEviction _ | .probe _ _ | .probeAck _ | .lockRequest _ _
  | .lockGrant _ _ | .mcasChecks _ | .writeAndUnlock _ _ _ | .unlockAck _ _ | .lockWithdrawal _ _
  | .copyCommandAccept _ | .copyPiece _ _ | .qfenceRelease _ _ | .scrubGranule | .throttledActivation _
  | .hammerWindowEnd | .mmaStepStart | .mmaStepCommit | .mzeroPerform _ _ | .mldaccPerform _ _
  | .msnapStart _ _ | .mdrainPerform _ _ | .sliceExpiry _ | .forcedCut _ | .saveCommit _ | .cfgswapSwitch _
  | .migrationRound _ | .stakeMove _ _ _ _ | .watchdogExpiry _ | .wickerLinkDown | .schedulerUnbind _ => true

/-- The common fields of a stake instruction; none for a device step. -/
def Instr.common? (i : Instr) : Option Common :=
  match i with
  | .const c _ | .mov c _ | .steer c _ | .select c _ | .merge c | .sink c | .movid c _ | .waveadv c
  | .framenew c _ | .frameend c | .retag c _ | .kgate c _ | .kdone c _ | .bar c _ | .barleave c _
  | .taskpush c _ | .taskjoin c | .taskend c | .qpop c _ | .qpush c _ | .fmtcast c _ | .add c _ | .sub c _
  | .adds c _ | .subs c _ | .mul c _ | .mulh c _ | .mad c _ | .div c _ | .rem c _ | .min c _ | .max c _
  | .abs c _ | .neg c _ | .and c _ | .or c _ | .xor c _ | .andn c _ | .shl c _ | .shr c _ | .sar c _ | .rol c _
  | .clz c _ | .popc c _ | .cmp c _ | .lea c _ | .sext c _ | .zext c _ | .bfx c _ | .bfi c _ | .fadd c _
  | .fsub c _ | .fmul c _ | .ffma c _ | .fdiv c _ | .fsqrt c _ | .fmin c _ | .fmax c _ | .fcmp c _ | .fabs c _
  | .fneg c _ | .frcp c _ | .frsq c _ | .fexp2 c _ | .flog2 c _ | .fsin c _ | .fcos c _ | .ftanh c _
  | .fclass c _ | .fcvt c _ | .f2i c _ | .i2f c _ | .frnd c _ | .vred c _ | .vscan c _ | .vperm c _
  | .vbcast c _ | .vext c _ | .vins c _ | .vpack c _ | .vunpk c _ | .vquant c _ | .vdeq c _ | .vchain c _
  | .vsel c _ | .vhdr c | .rng c _ | .ld c _ | .st c _ | .ldt c _ | .stt c _ | .ldf c _ | .ste c _ | .memnop c _
  | .pref c _ | .fence c _ | .fwait c | .atom c _ | .fatom c _ | .cas c _ | .mcas c _ | .red c _ | .fred c _
  | .cpy c _ | .cpywp c _ | .qfence c _ | .tmld c _ | .tmst c _ | .tmset c _ | .tmnar c _ | .tmget c _
  | .mzero c _ | .mma c _ | .msnap c _ | .mdrain c _ | .mldacc c _ | .rdctl c _ | .wrctl c _ | .rdtime c
  | .trap c _ | .brk c _ | .event c _ | .cfgswap c _ | .mark c | .rplay c | .hint c _ => some c
  | .resetRelease | .unitReady _ _ _ | .warmReset | .thermalShutdown _ | .dutyRaise _ _ | .dutyLower _ _
  | .pwrctlWrite _ | .firmwareUpdate _ _ _ _ | .spdmRequest _ _ | .pldmMonitorRequest | .registerWrite _ _ _
  | .artEnable _ _ | .wshareWrite _ _ _ | .sliceShrinkSweep | .sliceShrinkComplete | .partctlEnable _ _
  | .partctlDisable _ _ | .vfcfgEnable _ _ | .vfcfgDisable _ _ | .functionLevelReset _ | .vfPause _ _
  | .vfUnpause _ _ | .schedctlWrite _ _ | .qndlWrite _ _ | .quenchFallback _ _ | .quenchVacancy _
  | .sqbaseWrite _ _ | .eqbaseWrite _ _ | .sqDoorbell _ _ | .sqheadWrite _ _ | .invalWrite _ _
  | .invalidationComplete _ | .trapresResume _ _ | .trapresKill _ _ | .gswctlGo _ _ | .wvreg | .bind | .unbind
  | .save | .resume | .ckptall | .launch _ | .replay _ | .patch _ | .launchPushRetry _ | .taskTakeup _
  | .taskjoinRetry _ | .eventWrite _ | .eventSlotRetry _ | .msixMessage _ | .hostInboundRequest _ _ _ _
  | .hostCompletion _ _ _ | .atsTranslationResponse _ _ _ | .priPageResponse _ _ | .atsInvalidation _ _
  | .lockInterfaceRequest _ _ _ | .startInterfaceRequest _ _ | .stopInterfaceRequest _ | .ideIntegrityFailure _
  | .rdq _ _ _ _ _ | .wrq _ _ _ _ _ _ | .atq _ _ _ _ _ _ | .rel _ _ _ | .rdr _ _ _ _ | .wra _ _ _ | .atr _ _ _ _
  | .flitReplayRequest _ _ | .tokenArrival _ _ _ | .spillWriteRetry _ | .spillReinject _ | .misfitForward _ _ _
  | .strayReject _ _ _ | .strayReturn | .weaveLoad _ | .waleMarkerArrival _ _ _ | .roundEntry _ _
  | .markerInjection _ | .unitMarkerForward _ _ | .upsettArrival | .frameQuiesced _ _ | .purgeSweepDone _ _
  | .kgateDecrement _ _ | .wsbRequestArrival _ _ | .wsbLink _ _ | .frameStopAck _ _ _ | .trapRaise _ _
  | .trapDelivery _ _ | .replaySlotRetry _ _ | .replayAreaWriteRetry _ _ | .controlRequestSend _
  | .accessPerform _ | .fullEmptyPerform _ | .ldtLineWrite _ | .sttLineWrite _ | .fenceSlotGrant
  | .syReleaseDrain _ | .atomicRmw _ | .pageWalk _ _ | .walkComplete _ _ | .reclassifyRequest _ _ | .gets _ _
  | .getx _ _ | .putx _ _ | .directoryRmw _ | .directoryEviction _ | .probe _ _ | .probeAck _ | .lockRequest _ _
  | .lockGrant _ _ | .mcasChecks _ | .writeAndUnlock _ _ _ | .unlockAck _ _ | .lockWithdrawal _ _
  | .copyCommandAccept _ | .copyPiece _ _ | .qfenceRelease _ _ | .scrubGranule | .throttledActivation _
  | .hammerWindowEnd | .mmaStepStart | .mmaStepCommit | .mzeroPerform _ _ | .mldaccPerform _ _
  | .msnapStart _ _ | .mdrainPerform _ _ | .sliceExpiry _ | .forcedCut _ | .saveCommit _ | .cfgswapSwitch _
  | .migrationRound _ | .stakeMove _ _ _ _ | .watchdogExpiry _ | .wickerLinkDown | .schedulerUnbind _ => none

/-- R306 for one word: an unused field is zero; a STEER has a true side; any other stake has at most one misfit
route and, with one, ACC ≠ 0. -/
def commonDestsOk (isSteer : Bool) (c : Common) : Bool :=
  c.dests.all (fun d => d.v || d == Dest.none) &&
    (if isSteer then c.dests.any (·.isResult)
     else (c.dests.filter (·.isQ)).length ≤ 1 && (c.acc != 0 || c.dests.all fun d => !d.q))

/-- R306, the part of step 6 of R329 that one word decides. -/
def Instr.destsOk (i : Instr) : Bool :=
  match i with
  | .steer c _ => commonDestsOk true c
  | _ => match Instr.common? i with
    | some c => commonDestsOk false c
    | none => true

/-- The sequence fields PRED, OWN and SUCC of a wave-ordered operation (R118); none for the others. -/
def Instr.seq? (i : Instr) : Option (BitVec 9 × BitVec 9 × BitVec 9) :=
  match i with
  | .ld _ m | .st _ m | .ldt _ m | .stt _ m | .ldf _ m | .ste _ m | .memnop _ m | .pref _ m | .atom _ m
  | .fatom _ m | .cas _ m | .mcas _ m | .red _ m | .fred _ m | .cpy _ m | .cpywp _ m | .qfence _ m =>
      some (m.pred, m.own, m.succ)
  | .fence _ x => some (x.pred, x.own, x.succ)
  | .tmld _ m | .tmst _ m => some (m.pred, m.own, m.succ)
  | _ => none

/-- R122: OWN is a sequence number, PRED and SUCC differ from it, and numeric ones lie on their sides of it. -/
def seqOk (pred own succ : BitVec 9) : Bool :=
  own.toNat ≤ 509 && pred != own && succ != own &&
    (pred.toNat > 509 || pred.toNat < own.toNat) && (succ.toNat > 509 || own.toNat < succ.toNat)

/-- R122, step 7 of R329. -/
def Instr.waveOk (i : Instr) : Bool :=
  match Instr.seq? i with
  | some (p, o, s) => seqOk p o s
  | none => true

/-- A legal instruction: steps 4, 6 and 7 of R329 as far as one word decides them. -/
def Instr.legal (i : Instr) : Bool := Instr.formOk i && Instr.destsOk i && Instr.waveOk i

end Sys2Proof.Machine
end

