-- ==== Sys2Proof/WellFormed.lean ====
section
/-! DEFINITION. Which instructions are well formed: the legality that R329 checks word by word before a stake may fire. -/

namespace Sys2Proof

/-- A well-formed instruction: a stake word that passes steps 3, 4, 6 and 7 of R329 as far as one word shows it;
a device step always is. -/
def Instr.wf (i : Instr) : Bool := Machine.Instr.legal i

end Sys2Proof
end

