-- ==== Sys2Proof/Decode.lean ====
section
/-! DEFINITION. The decoder and the encoder of stake words (R305 to R316, R333) and of device steps (log entry 1). -/

namespace Sys2Proof

/-- Why a word is not an instruction (R332). -/
inductive DecodeError where
  /-- OPC 0x00 of an empty slot, or an opcode that Table 14.1 reserves (R333). -/
  | reservedOpcode
  /-- The code of a device step is none of the table's rows (log entry 1). -/
  | reservedEvent
  /-- A bit that the layout requires to be zero is not zero (R332). -/
  | strayBits
  /-- A field value that the class does not allow (R329 steps 4, 6 and 7). -/
  | illegalField
  /-- The byte string holds no whole word. -/
  | shortWord
  deriving DecidableEq, Repr

/-- The immediate layout of XF (R310). -/
def ImmX.bits (x : ImmX) : BitVec 35 := x.sub ++ x.imm

/-- XF read in the immediate layout (R310). -/
def ImmX.ofBits (b : BitVec 35) : ImmX := { sub := b.extractLsb' 32 3, imm := b.extractLsb' 0 32 }

/-- XF of the memory class (Table 13.4). -/
def MemX.bits (x : MemX) : BitVec 35 := x.pred ++ x.own ++ x.succ ++ x.fc ++ x.sz ++ x.ord

/-- XF read in the memory layout (Table 13.4). -/
def MemX.ofBits (b : BitVec 35) : MemX :=
  { pred := b.extractLsb' 26 9, own := b.extractLsb' 17 9, succ := b.extractLsb' 8 9,
    fc := b.extractLsb' 5 3, sz := b.extractLsb' 2 3, ord := b.extractLsb' 0 2 }

/-- XF of FENCE (Table 7.5). -/
def FenceX.bits (x : FenceX) : BitVec 35 := x.pred ++ x.own ++ x.succ ++ x.mask

/-- XF read in the layout of FENCE (Table 7.5). -/
def FenceX.ofBits (b : BitVec 35) : FenceX :=
  { pred := b.extractLsb' 26 9, own := b.extractLsb' 17 9, succ := b.extractLsb' 8 9, mask := b.extractLsb' 0 8 }

/-- XF of TMLD and TMST: XF[4] is 0 (R314). -/
def TmemX.bits (x : TmemX) : BitVec 35 :=
  x.pred ++ x.own ++ x.succ ++ x.fc ++ (0 : BitVec 1) ++ x.tmLow ++ x.ord

/-- XF read in the layout of TMLD and TMST (R314). -/
def TmemX.ofBits (b : BitVec 35) : TmemX :=
  { pred := b.extractLsb' 26 9, own := b.extractLsb' 17 9, succ := b.extractLsb' 8 9,
    fc := b.extractLsb' 5 3, tmLow := b.extractLsb' 2 2, ord := b.extractLsb' 0 2 }

/-- XF of BFX and BFI (Table 13.5). -/
def BfX.bits (x : BfX) : BitVec 35 := (0 : BitVec 19) ++ x.len ++ x.pos

/-- XF read in the layout of BFX and BFI (Table 13.5). -/
def BfX.ofBits (b : BitVec 35) : BfX := { len := b.extractLsb' 8 8, pos := b.extractLsb' 0 8 }

/-- XF of the matrix class (R210). -/
def MatX.bits (x : MatX) : BitVec 35 := x.bank ++ x.bty.code ++ (0 : BitVec 29)

/-- XF read in the matrix layout (R210). -/
def MatX.ofBits (b : BitVec 35) : MatX := { bank := b.extractLsb' 33 2, bty := Ty.ofCode (b.extractLsb' 29 4) }

/-- XF with one field of `n` bits at bit 0 and zeros above (R311). -/
def xfLow {n : Nat} (b : BitVec n) : BitVec 35 := b.setWidth 35

/-- A stake word from its opcode, its common fields and XF (Table 13.1). -/
def packStake (opc : BitVec 8) (c : Common) (xf : BitVec 35) : StepWord :=
  ((opc ++ c.bits ++ xf : StakeWord)).setWidth 1152

/-- The word of a device step: its code in [119:112] under an OPC byte of zero, eight fields of 64 bits from bit 128
upward, and 512 bits of data on top (log entry 1). -/
def packEvent (code : BitVec 8) (f0 f1 f2 f3 f4 f5 : W64) (data : W512) : StepWord :=
  (data ++ (0 : W64) ++ (0 : W64) ++ f5 ++ f4 ++ f3 ++ f2 ++ f1 ++ f0 ++ (0 : BitVec 8) ++ code ++ (0 : BitVec 112) : StepWord)

/-- Field `k` of the word of a device step (log entry 1). -/
def eventField (w : StepWord) (k : Nat) : W64 := w.extractLsb' (128 + 64 * k) 64

/-- The data of the word of a device step (log entry 1). -/
def eventData (w : StepWord) : W512 := w.extractLsb' 640 512

/-- The word of an instruction, written from Tables 13.1 to 13.5, 5.2, 7.5, 8.2 and 9.1 and R333; a device step from log
entry 1. -/
def encode (i : Instr) : StepWord :=
  match i with
  | .const c x => packStake 0x01 c x.bits
  | .mov c x => packStake 0x02 c x.bits
  | .steer c x => packStake 0x03 c x.bits
  | .select c x => packStake 0x04 c x.bits
  | .merge c => packStake 0x05 c 0
  | .sink c => packStake 0x06 c 0
  | .movid c ident => packStake 0x07 c (xfLow ident)
  | .waveadv c => packStake 0x08 c 0
  | .framenew c join => packStake 0x09 c (xfLow join)
  | .frameend c => packStake 0x0A c 0
  | .retag c rsel => packStake 0x0B c (xfLow rsel)
  | .kgate c bound => packStake 0x0C c (xfLow bound)
  | .kdone c gate => packStake 0x0D c (xfLow gate)
  | .bar c barn => packStake 0x0E c (xfLow barn)
  | .barleave c barn => packStake 0x0F c (xfLow barn)
  | .taskpush c x => packStake 0x10 c x.bits
  | .taskjoin c => packStake 0x11 c 0
  | .taskend c => packStake 0x12 c 0
  | .qpop c qsel => packStake 0x13 c (xfLow qsel)
  | .qpush c qsel => packStake 0x14 c (xfLow qsel)
  | .fmtcast c sty => packStake 0x15 c (xfLow sty.code)
  | .add c x => packStake 0x20 c x.bits
  | .sub c x => packStake 0x21 c x.bits
  | .adds c x => packStake 0x22 c x.bits
  | .subs c x => packStake 0x23 c x.bits
  | .mul c x => packStake 0x24 c x.bits
  | .mulh c x => packStake 0x25 c x.bits
  | .mad c x => packStake 0x26 c x.bits
  | .div c x => packStake 0x27 c x.bits
  | .rem c x => packStake 0x28 c x.bits
  | .min c x => packStake 0x29 c x.bits
  | .max c x => packStake 0x2A c x.bits
  | .abs c x => packStake 0x2B c x.bits
  | .neg c x => packStake 0x2C c x.bits
  | .and c x => packStake 0x2D c x.bits
  | .or c x => packStake 0x2E c x.bits
  | .xor c x => packStake 0x2F c x.bits
  | .andn c x => packStake 0x30 c x.bits
  | .shl c x => packStake 0x31 c x.bits
  | .shr c x => packStake 0x32 c x.bits
  | .sar c x => packStake 0x33 c x.bits
  | .rol c x => packStake 0x34 c x.bits
  | .clz c x => packStake 0x35 c x.bits
  | .popc c x => packStake 0x36 c x.bits
  | .cmp c x => packStake 0x37 c x.bits
  | .lea c x => packStake 0x38 c x.bits
  | .sext c sty => packStake 0x39 c (xfLow sty.code)
  | .zext c sty => packStake 0x3A c (xfLow sty.code)
  | .bfx c x => packStake 0x3B c x.bits
  | .bfi c x => packStake 0x3C c x.bits
  | .fadd c x => packStake 0x40 c x.bits
  | .fsub c x => packStake 0x41 c x.bits
  | .fmul c x => packStake 0x42 c x.bits
  | .ffma c x => packStake 0x43 c x.bits
  | .fdiv c x => packStake 0x44 c x.bits
  | .fsqrt c x => packStake 0x45 c x.bits
  | .fmin c x => packStake 0x46 c x.bits
  | .fmax c x => packStake 0x47 c x.bits
  | .fcmp c x => packStake 0x48 c x.bits
  | .fabs c x => packStake 0x49 c x.bits
  | .fneg c x => packStake 0x4A c x.bits
  | .frcp c x => packStake 0x4B c x.bits
  | .frsq c x => packStake 0x4C c x.bits
  | .fexp2 c x => packStake 0x4D c x.bits
  | .flog2 c x => packStake 0x4E c x.bits
  | .fsin c x => packStake 0x4F c x.bits
  | .fcos c x => packStake 0x50 c x.bits
  | .ftanh c x => packStake 0x51 c x.bits
  | .fclass c x => packStake 0x52 c x.bits
  | .fcvt c sty => packStake 0x53 c (xfLow sty.code)
  | .f2i c sty => packStake 0x54 c (xfLow sty.code)
  | .i2f c sty => packStake 0x55 c (xfLow sty.code)
  | .frnd c x => packStake 0x56 c x.bits
  | .vred c x => packStake 0x60 c x.bits
  | .vscan c x => packStake 0x61 c x.bits
  | .vperm c x => packStake 0x62 c x.bits
  | .vbcast c x => packStake 0x63 c x.bits
  | .vext c x => packStake 0x64 c x.bits
  | .vins c x => packStake 0x65 c x.bits
  | .vpack c sty => packStake 0x66 c (xfLow sty.code)
  | .vunpk c sty => packStake 0x67 c (xfLow sty.code)
  | .vquant c sty => packStake 0x68 c (xfLow sty.code)
  | .vdeq c sty => packStake 0x69 c (xfLow sty.code)
  | .vchain c x => packStake 0x6A c x.bits
  | .vsel c x => packStake 0x6B c x.bits
  | .vhdr c => packStake 0x6C c 0
  | .rng c stream => packStake 0x6D c (xfLow stream)
  | .ld c x => packStake 0x70 c x.bits
  | .st c x => packStake 0x71 c x.bits
  | .ldt c x => packStake 0x72 c x.bits
  | .stt c x => packStake 0x73 c x.bits
  | .ldf c x => packStake 0x74 c x.bits
  | .ste c x => packStake 0x75 c x.bits
  | .memnop c x => packStake 0x76 c x.bits
  | .pref c x => packStake 0x77 c x.bits
  | .fence c x => packStake 0x78 c x.bits
  | .fwait c => packStake 0x79 c 0
  | .atom c x => packStake 0x7A c x.bits
  | .fatom c x => packStake 0x7B c x.bits
  | .cas c x => packStake 0x7C c x.bits
  | .mcas c x => packStake 0x7D c x.bits
  | .red c x => packStake 0x7E c x.bits
  | .fred c x => packStake 0x7F c x.bits
  | .cpy c x => packStake 0x80 c x.bits
  | .cpywp c x => packStake 0x81 c x.bits
  | .qfence c x => packStake 0x82 c x.bits
  | .tmld c x => packStake 0x90 c x.bits
  | .tmst c x => packStake 0x91 c x.bits
  | .tmset c tmn => packStake 0x92 c (xfLow tmn)
  | .tmnar c tmn => packStake 0x93 c (xfLow tmn)
  | .tmget c tmn => packStake 0x94 c (xfLow tmn)
  | .mzero c x => packStake 0x98 c x.bits
  | .mma c x => packStake 0x99 c x.bits
  | .msnap c x => packStake 0x9A c x.bits
  | .mdrain c x => packStake 0x9B c x.bits
  | .mldacc c x => packStake 0x9C c x.bits
  | .rdctl c ctl => packStake 0xA0 c (xfLow ctl)
  | .wrctl c ctl => packStake 0xA1 c (xfLow ctl)
  | .rdtime c => packStake 0xA2 c 0
  | .trap c code => packStake 0xA3 c (xfLow code)
  | .brk c code => packStake 0xA4 c (xfLow code)
  | .event c code => packStake 0xA5 c (xfLow code)
  | .cfgswap c weaveId => packStake 0xA6 c (xfLow weaveId)
  | .mark c => packStake 0xA7 c 0
  | .rplay c => packStake 0xA8 c 0
  | .hint c hint => packStake 0xA9 c (xfLow hint)
  | .resetRelease => packEvent 1 0 0 0 0 0 0 0
  | .unitReady kind idx ok => packEvent 2 kind idx ok 0 0 0 0
  | .warmReset => packEvent 3 0 0 0 0 0 0 0
  | .thermalShutdown temp => packEvent 4 temp 0 0 0 0 0 0
  | .dutyRaise avgw temp => packEvent 5 avgw temp 0 0 0 0 0
  | .dutyLower avgw temp => packEvent 6 avgw temp 0 0 0 0 0
  | .pwrctlWrite v => packEvent 7 v 0 0 0 0 0 0
  | .firmwareUpdate img ver secver key => packEvent 8 img ver secver key 0 0 0
  | .spdmRequest kind arg => packEvent 9 kind arg 0 0 0 0 0
  | .pldmMonitorRequest => packEvent 10 0 0 0 0 0 0 0
  | .registerWrite space off v => packEvent 11 space off v 0 0 0 0
  | .artEnable n v => packEvent 12 n v 0 0 0 0 0
  | .wshareWrite p d v => packEvent 13 p d v 0 0 0 0
  | .sliceShrinkSweep => packEvent 14 0 0 0 0 0 0 0
  | .sliceShrinkComplete => packEvent 15 0 0 0 0 0 0 0
  | .partctlEnable p v => packEvent 16 p v 0 0 0 0 0
  | .partctlDisable p v => packEvent 17 p v 0 0 0 0 0
  | .vfcfgEnable vf v => packEvent 18 vf v 0 0 0 0 0
  | .vfcfgDisable vf v => packEvent 19 vf v 0 0 0 0 0
  | .functionLevelReset vf => packEvent 20 vf 0 0 0 0 0 0
  | .vfPause vf v => packEvent 21 vf v 0 0 0 0 0
  | .vfUnpause vf v => packEvent 22 vf v 0 0 0 0 0
  | .schedctlWrite p v => packEvent 23 p v 0 0 0 0 0
  | .qndlWrite p v => packEvent 24 p v 0 0 0 0 0
  | .quenchFallback p colour => packEvent 25 p colour 0 0 0 0 0
  | .quenchVacancy p => packEvent 26 p 0 0 0 0 0 0
  | .sqbaseWrite vf v => packEvent 27 vf v 0 0 0 0 0
  | .eqbaseWrite vf v => packEvent 28 vf v 0 0 0 0 0
  | .sqDoorbell vf v => packEvent 29 vf v 0 0 0 0 0
  | .sqheadWrite vf v => packEvent 30 vf v 0 0 0 0 0
  | .invalWrite vf v => packEvent 31 vf v 0 0 0 0 0
  | .invalidationComplete vf => packEvent 32 vf 0 0 0 0 0 0
  | .trapresResume vf v => packEvent 33 vf v 0 0 0 0 0
  | .trapresKill vf v => packEvent 34 vf v 0 0 0 0 0
  | .gswctlGo vf v => packEvent 35 vf v 0 0 0 0 0
  | .wvreg => packEvent 36 0 0 0 0 0 0 0
  | .bind => packEvent 37 0 0 0 0 0 0 0
  | .unbind => packEvent 38 0 0 0 0 0 0 0
  | .save => packEvent 39 0 0 0 0 0 0 0
  | .resume => packEvent 40 0 0 0 0 0 0 0
  | .ckptall => packEvent 41 0 0 0 0 0 0 0
  | .launch vf => packEvent 42 vf 0 0 0 0 0 0
  | .replay vf => packEvent 43 vf 0 0 0 0 0 0
  | .patch vf => packEvent 44 vf 0 0 0 0 0 0
  | .launchPushRetry vf => packEvent 45 vf 0 0 0 0 0 0
  | .taskTakeup colour => packEvent 46 colour 0 0 0 0 0 0
  | .taskjoinRetry colour => packEvent 47 colour 0 0 0 0 0 0
  | .eventWrite vf => packEvent 48 vf 0 0 0 0 0 0
  | .eventSlotRetry vf => packEvent 49 vf 0 0 0 0 0 0
  | .msixMessage vf => packEvent 50 vf 0 0 0 0 0 0
  | .hostInboundRequest write addr size d => packEvent 51 write addr size 0 0 0 d
  | .hostCompletion tag status d => packEvent 52 tag status 0 0 0 0 d
  | .atsTranslationResponse page perm xlat => packEvent 53 page perm xlat 0 0 0 0
  | .priPageResponse page ok => packEvent 54 page ok 0 0 0 0 0
  | .atsInvalidation base log2l => packEvent 55 base log2l 0 0 0 0 0
  | .lockInterfaceRequest vf nonce stream => packEvent 56 vf nonce stream 0 0 0 0
  | .startInterfaceRequest vf nonce => packEvent 57 vf nonce 0 0 0 0 0
  | .stopInterfaceRequest vf => packEvent 58 vf 0 0 0 0 0 0
  | .ideIntegrityFailure vf => packEvent 59 vf 0 0 0 0 0 0
  | .rdq port srcdev tag off size => packEvent 60 port srcdev tag off size 0 0
  | .wrq port srcdev tag off mask d => packEvent 61 port srcdev tag off mask 0 d
  | .atq port srcdev tag off op d => packEvent 62 port srcdev tag off op 0 d
  | .rel port srcdev tag => packEvent 63 port srcdev tag 0 0 0 0
  | .rdr port tag status d => packEvent 64 port tag status 0 0 0 d
  | .wra port tag status => packEvent 65 port tag status 0 0 0 0
  | .atr port tag status d => packEvent 66 port tag status 0 0 0 d
  | .flitReplayRequest port seq => packEvent 67 port seq 0 0 0 0 0
  | .tokenArrival colour src dst => packEvent 68 colour src dst 0 0 0 0
  | .spillWriteRetry colour => packEvent 69 colour 0 0 0 0 0 0
  | .spillReinject colour => packEvent 70 colour 0 0 0 0 0 0
  | .misfitForward colour lstake port => packEvent 71 colour lstake port 0 0 0 0
  | .strayReject colour src dst => packEvent 72 colour src dst 0 0 0 0
  | .strayReturn => packEvent 73 0 0 0 0 0 0 0
  | .weaveLoad colour => packEvent 74 colour 0 0 0 0 0 0
  | .waleMarkerArrival colour src dst => packEvent 75 colour src dst 0 0 0 0
  | .roundEntry colour lstake => packEvent 76 colour lstake 0 0 0 0 0
  | .markerInjection colour => packEvent 77 colour 0 0 0 0 0 0
  | .unitMarkerForward colour lstake => packEvent 78 colour lstake 0 0 0 0 0
  | .upsettArrival => packEvent 79 0 0 0 0 0 0 0
  | .frameQuiesced colour frame => packEvent 80 colour frame 0 0 0 0 0
  | .purgeSweepDone colour frame => packEvent 81 colour frame 0 0 0 0 0
  | .kgateDecrement colour gate => packEvent 82 colour gate 0 0 0 0 0
  | .wsbRequestArrival colour lstake => packEvent 83 colour lstake 0 0 0 0 0
  | .wsbLink colour frame => packEvent 84 colour frame 0 0 0 0 0
  | .frameStopAck colour frame tile => packEvent 85 colour frame tile 0 0 0 0
  | .trapRaise colour frame => packEvent 86 colour frame 0 0 0 0 0
  | .trapDelivery colour frame => packEvent 87 colour frame 0 0 0 0 0
  | .replaySlotRetry colour frame => packEvent 88 colour frame 0 0 0 0 0
  | .replayAreaWriteRetry colour frame => packEvent 89 colour frame 0 0 0 0 0
  | .controlRequestSend req => packEvent 90 req 0 0 0 0 0 0
  | .accessPerform req => packEvent 91 req 0 0 0 0 0 0
  | .fullEmptyPerform req => packEvent 92 req 0 0 0 0 0 0
  | .ldtLineWrite req => packEvent 93 req 0 0 0 0 0 0
  | .sttLineWrite req => packEvent 94 req 0 0 0 0 0 0
  | .fenceSlotGrant => packEvent 95 0 0 0 0 0 0 0
  | .syReleaseDrain req => packEvent 96 req 0 0 0 0 0 0
  | .atomicRmw req => packEvent 97 req 0 0 0 0 0 0
  | .pageWalk cluster va => packEvent 98 cluster va 0 0 0 0 0
  | .walkComplete cluster va => packEvent 99 cluster va 0 0 0 0 0
  | .reclassifyRequest cluster va => packEvent 100 cluster va 0 0 0 0 0
  | .gets cluster line => packEvent 101 cluster line 0 0 0 0 0
  | .getx cluster line => packEvent 102 cluster line 0 0 0 0 0
  | .putx cluster line => packEvent 103 cluster line 0 0 0 0 0
  | .directoryRmw line => packEvent 104 line 0 0 0 0 0 0
  | .directoryEviction line => packEvent 105 line 0 0 0 0 0 0
  | .probe cluster line => packEvent 106 cluster line 0 0 0 0 0
  | .probeAck line => packEvent 107 line 0 0 0 0 0 0
  | .lockRequest cluster slot => packEvent 108 cluster slot 0 0 0 0 0
  | .lockGrant cluster slot => packEvent 109 cluster slot 0 0 0 0 0
  | .mcasChecks req => packEvent 110 req 0 0 0 0 0 0
  | .writeAndUnlock cluster slot line => packEvent 111 cluster slot line 0 0 0 0
  | .unlockAck cluster slot => packEvent 112 cluster slot 0 0 0 0 0
  | .lockWithdrawal cluster slot => packEvent 113 cluster slot 0 0 0 0 0
  | .copyCommandAccept req => packEvent 114 req 0 0 0 0 0 0
  | .copyPiece colour queue => packEvent 115 colour queue 0 0 0 0 0
  | .qfenceRelease colour idx => packEvent 116 colour idx 0 0 0 0 0
  | .scrubGranule => packEvent 117 0 0 0 0 0 0 0
  | .throttledActivation row => packEvent 118 row 0 0 0 0 0 0
  | .hammerWindowEnd => packEvent 119 0 0 0 0 0 0 0
  | .mmaStepStart => packEvent 120 0 0 0 0 0 0 0
  | .mmaStepCommit => packEvent 121 0 0 0 0 0 0 0
  | .mzeroPerform tile bank => packEvent 122 tile bank 0 0 0 0 0
  | .mldaccPerform tile bank => packEvent 123 tile bank 0 0 0 0 0
  | .msnapStart tile bank => packEvent 124 tile bank 0 0 0 0 0
  | .mdrainPerform tile bank => packEvent 125 tile bank 0 0 0 0 0
  | .sliceExpiry p => packEvent 126 p 0 0 0 0 0 0
  | .forcedCut colour => packEvent 127 colour 0 0 0 0 0 0
  | .saveCommit colour => packEvent 128 colour 0 0 0 0 0 0
  | .cfgswapSwitch colour => packEvent 129 colour 0 0 0 0 0 0
  | .migrationRound colour => packEvent 130 colour 0 0 0 0 0 0
  | .stakeMove colour lstake tile slot => packEvent 131 colour lstake tile slot 0 0 0
  | .watchdogExpiry colour => packEvent 132 colour 0 0 0 0 0 0
  | .wickerLinkDown => packEvent 133 0 0 0 0 0 0 0
  | .schedulerUnbind colour => packEvent 134 colour 0 0 0 0 0 0

/-- The stake instruction of an opcode with its common fields and XF (R333); none for a reserved opcode. -/
def stakeTable (opc : Nat) (c : Common) (xf : BitVec 35) : Option Instr :=
  match opc with
  | 0x01 => some (.const c (ImmX.ofBits xf))
  | 0x02 => some (.mov c (ImmX.ofBits xf))
  | 0x03 => some (.steer c (ImmX.ofBits xf))
  | 0x04 => some (.select c (ImmX.ofBits xf))
  | 0x05 => some (.merge c)
  | 0x06 => some (.sink c)
  | 0x07 => some (.movid c (xf.extractLsb' 0 4))
  | 0x08 => some (.waveadv c)
  | 0x09 => some (.framenew c (xf.extractLsb' 0 16))
  | 0x0A => some (.frameend c)
  | 0x0B => some (.retag c (xf.extractLsb' 0 2))
  | 0x0C => some (.kgate c (xf.extractLsb' 0 12))
  | 0x0D => some (.kdone c (xf.extractLsb' 0 16))
  | 0x0E => some (.bar c (xf.extractLsb' 0 4))
  | 0x0F => some (.barleave c (xf.extractLsb' 0 4))
  | 0x10 => some (.taskpush c (ImmX.ofBits xf))
  | 0x11 => some (.taskjoin c)
  | 0x12 => some (.taskend c)
  | 0x13 => some (.qpop c (xf.extractLsb' 0 4))
  | 0x14 => some (.qpush c (xf.extractLsb' 0 4))
  | 0x15 => some (.fmtcast c (Ty.ofCode (xf.extractLsb' 0 4)))
  | 0x20 => some (.add c (ImmX.ofBits xf))
  | 0x21 => some (.sub c (ImmX.ofBits xf))
  | 0x22 => some (.adds c (ImmX.ofBits xf))
  | 0x23 => some (.subs c (ImmX.ofBits xf))
  | 0x24 => some (.mul c (ImmX.ofBits xf))
  | 0x25 => some (.mulh c (ImmX.ofBits xf))
  | 0x26 => some (.mad c (ImmX.ofBits xf))
  | 0x27 => some (.div c (ImmX.ofBits xf))
  | 0x28 => some (.rem c (ImmX.ofBits xf))
  | 0x29 => some (.min c (ImmX.ofBits xf))
  | 0x2A => some (.max c (ImmX.ofBits xf))
  | 0x2B => some (.abs c (ImmX.ofBits xf))
  | 0x2C => some (.neg c (ImmX.ofBits xf))
  | 0x2D => some (.and c (ImmX.ofBits xf))
  | 0x2E => some (.or c (ImmX.ofBits xf))
  | 0x2F => some (.xor c (ImmX.ofBits xf))
  | 0x30 => some (.andn c (ImmX.ofBits xf))
  | 0x31 => some (.shl c (ImmX.ofBits xf))
  | 0x32 => some (.shr c (ImmX.ofBits xf))
  | 0x33 => some (.sar c (ImmX.ofBits xf))
  | 0x34 => some (.rol c (ImmX.ofBits xf))
  | 0x35 => some (.clz c (ImmX.ofBits xf))
  | 0x36 => some (.popc c (ImmX.ofBits xf))
  | 0x37 => some (.cmp c (ImmX.ofBits xf))
  | 0x38 => some (.lea c (ImmX.ofBits xf))
  | 0x39 => some (.sext c (Ty.ofCode (xf.extractLsb' 0 4)))
  | 0x3A => some (.zext c (Ty.ofCode (xf.extractLsb' 0 4)))
  | 0x3B => some (.bfx c (BfX.ofBits xf))
  | 0x3C => some (.bfi c (BfX.ofBits xf))
  | 0x40 => some (.fadd c (ImmX.ofBits xf))
  | 0x41 => some (.fsub c (ImmX.ofBits xf))
  | 0x42 => some (.fmul c (ImmX.ofBits xf))
  | 0x43 => some (.ffma c (ImmX.ofBits xf))
  | 0x44 => some (.fdiv c (ImmX.ofBits xf))
  | 0x45 => some (.fsqrt c (ImmX.ofBits xf))
  | 0x46 => some (.fmin c (ImmX.ofBits xf))
  | 0x47 => some (.fmax c (ImmX.ofBits xf))
  | 0x48 => some (.fcmp c (ImmX.ofBits xf))
  | 0x49 => some (.fabs c (ImmX.ofBits xf))
  | 0x4A => some (.fneg c (ImmX.ofBits xf))
  | 0x4B => some (.frcp c (ImmX.ofBits xf))
  | 0x4C => some (.frsq c (ImmX.ofBits xf))
  | 0x4D => some (.fexp2 c (ImmX.ofBits xf))
  | 0x4E => some (.flog2 c (ImmX.ofBits xf))
  | 0x4F => some (.fsin c (ImmX.ofBits xf))
  | 0x50 => some (.fcos c (ImmX.ofBits xf))
  | 0x51 => some (.ftanh c (ImmX.ofBits xf))
  | 0x52 => some (.fclass c (ImmX.ofBits xf))
  | 0x53 => some (.fcvt c (Ty.ofCode (xf.extractLsb' 0 4)))
  | 0x54 => some (.f2i c (Ty.ofCode (xf.extractLsb' 0 4)))
  | 0x55 => some (.i2f c (Ty.ofCode (xf.extractLsb' 0 4)))
  | 0x56 => some (.frnd c (ImmX.ofBits xf))
  | 0x60 => some (.vred c (ImmX.ofBits xf))
  | 0x61 => some (.vscan c (ImmX.ofBits xf))
  | 0x62 => some (.vperm c (ImmX.ofBits xf))
  | 0x63 => some (.vbcast c (ImmX.ofBits xf))
  | 0x64 => some (.vext c (ImmX.ofBits xf))
  | 0x65 => some (.vins c (ImmX.ofBits xf))
  | 0x66 => some (.vpack c (Ty.ofCode (xf.extractLsb' 0 4)))
  | 0x67 => some (.vunpk c (Ty.ofCode (xf.extractLsb' 0 4)))
  | 0x68 => some (.vquant c (Ty.ofCode (xf.extractLsb' 0 4)))
  | 0x69 => some (.vdeq c (Ty.ofCode (xf.extractLsb' 0 4)))
  | 0x6A => some (.vchain c (ImmX.ofBits xf))
  | 0x6B => some (.vsel c (ImmX.ofBits xf))
  | 0x6C => some (.vhdr c)
  | 0x6D => some (.rng c (xf.extractLsb' 0 8))
  | 0x70 => some (.ld c (MemX.ofBits xf))
  | 0x71 => some (.st c (MemX.ofBits xf))
  | 0x72 => some (.ldt c (MemX.ofBits xf))
  | 0x73 => some (.stt c (MemX.ofBits xf))
  | 0x74 => some (.ldf c (MemX.ofBits xf))
  | 0x75 => some (.ste c (MemX.ofBits xf))
  | 0x76 => some (.memnop c (MemX.ofBits xf))
  | 0x77 => some (.pref c (MemX.ofBits xf))
  | 0x78 => some (.fence c (FenceX.ofBits xf))
  | 0x79 => some (.fwait c)
  | 0x7A => some (.atom c (MemX.ofBits xf))
  | 0x7B => some (.fatom c (MemX.ofBits xf))
  | 0x7C => some (.cas c (MemX.ofBits xf))
  | 0x7D => some (.mcas c (MemX.ofBits xf))
  | 0x7E => some (.red c (MemX.ofBits xf))
  | 0x7F => some (.fred c (MemX.ofBits xf))
  | 0x80 => some (.cpy c (MemX.ofBits xf))
  | 0x81 => some (.cpywp c (MemX.ofBits xf))
  | 0x82 => some (.qfence c (MemX.ofBits xf))
  | 0x90 => some (.tmld c (TmemX.ofBits xf))
  | 0x91 => some (.tmst c (TmemX.ofBits xf))
  | 0x92 => some (.tmset c (xf.extractLsb' 0 4))
  | 0x93 => some (.tmnar c (xf.extractLsb' 0 4))
  | 0x94 => some (.tmget c (xf.extractLsb' 0 4))
  | 0x98 => some (.mzero c (MatX.ofBits xf))
  | 0x99 => some (.mma c (MatX.ofBits xf))
  | 0x9A => some (.msnap c (MatX.ofBits xf))
  | 0x9B => some (.mdrain c (MatX.ofBits xf))
  | 0x9C => some (.mldacc c (MatX.ofBits xf))
  | 0xA0 => some (.rdctl c (xf.extractLsb' 0 8))
  | 0xA1 => some (.wrctl c (xf.extractLsb' 0 8))
  | 0xA2 => some (.rdtime c)
  | 0xA3 => some (.trap c (xf.extractLsb' 0 16))
  | 0xA4 => some (.brk c (xf.extractLsb' 0 16))
  | 0xA5 => some (.event c (xf.extractLsb' 0 16))
  | 0xA6 => some (.cfgswap c (xf.extractLsb' 0 32))
  | 0xA7 => some (.mark c)
  | 0xA8 => some (.rplay c)
  | 0xA9 => some (.hint c (xf.extractLsb' 0 8))
  | _ => none

/-- The stake instruction that the fields of a stake word spell, by its opcode (R333). -/
def parseStake (w : StakeWord) : Option Instr :=
  stakeTable (w.extractLsb' 120 8).toNat (Common.ofWord w) (w.extractLsb' 0 35)

/-- The device step of a code with its fields and data (log entry 1); none for a code that the table does not list. -/
def eventTable (code : Nat) (f0 f1 f2 f3 f4 _f5 : W64) (data : W512) : Option Instr :=
  match code with
  | 1 => some (.resetRelease)
  | 2 => some (.unitReady f0 f1 f2)
  | 3 => some (.warmReset)
  | 4 => some (.thermalShutdown f0)
  | 5 => some (.dutyRaise f0 f1)
  | 6 => some (.dutyLower f0 f1)
  | 7 => some (.pwrctlWrite f0)
  | 8 => some (.firmwareUpdate f0 f1 f2 f3)
  | 9 => some (.spdmRequest f0 f1)
  | 10 => some (.pldmMonitorRequest)
  | 11 => some (.registerWrite f0 f1 f2)
  | 12 => some (.artEnable f0 f1)
  | 13 => some (.wshareWrite f0 f1 f2)
  | 14 => some (.sliceShrinkSweep)
  | 15 => some (.sliceShrinkComplete)
  | 16 => some (.partctlEnable f0 f1)
  | 17 => some (.partctlDisable f0 f1)
  | 18 => some (.vfcfgEnable f0 f1)
  | 19 => some (.vfcfgDisable f0 f1)
  | 20 => some (.functionLevelReset f0)
  | 21 => some (.vfPause f0 f1)
  | 22 => some (.vfUnpause f0 f1)
  | 23 => some (.schedctlWrite f0 f1)
  | 24 => some (.qndlWrite f0 f1)
  | 25 => some (.quenchFallback f0 f1)
  | 26 => some (.quenchVacancy f0)
  | 27 => some (.sqbaseWrite f0 f1)
  | 28 => some (.eqbaseWrite f0 f1)
  | 29 => some (.sqDoorbell f0 f1)
  | 30 => some (.sqheadWrite f0 f1)
  | 31 => some (.invalWrite f0 f1)
  | 32 => some (.invalidationComplete f0)
  | 33 => some (.trapresResume f0 f1)
  | 34 => some (.trapresKill f0 f1)
  | 35 => some (.gswctlGo f0 f1)
  | 36 => some (.wvreg)
  | 37 => some (.bind)
  | 38 => some (.unbind)
  | 39 => some (.save)
  | 40 => some (.resume)
  | 41 => some (.ckptall)
  | 42 => some (.launch f0)
  | 43 => some (.replay f0)
  | 44 => some (.patch f0)
  | 45 => some (.launchPushRetry f0)
  | 46 => some (.taskTakeup f0)
  | 47 => some (.taskjoinRetry f0)
  | 48 => some (.eventWrite f0)
  | 49 => some (.eventSlotRetry f0)
  | 50 => some (.msixMessage f0)
  | 51 => some (.hostInboundRequest f0 f1 f2 data)
  | 52 => some (.hostCompletion f0 f1 data)
  | 53 => some (.atsTranslationResponse f0 f1 f2)
  | 54 => some (.priPageResponse f0 f1)
  | 55 => some (.atsInvalidation f0 f1)
  | 56 => some (.lockInterfaceRequest f0 f1 f2)
  | 57 => some (.startInterfaceRequest f0 f1)
  | 58 => some (.stopInterfaceRequest f0)
  | 59 => some (.ideIntegrityFailure f0)
  | 60 => some (.rdq f0 f1 f2 f3 f4)
  | 61 => some (.wrq f0 f1 f2 f3 f4 data)
  | 62 => some (.atq f0 f1 f2 f3 f4 data)
  | 63 => some (.rel f0 f1 f2)
  | 64 => some (.rdr f0 f1 f2 data)
  | 65 => some (.wra f0 f1 f2)
  | 66 => some (.atr f0 f1 f2 data)
  | 67 => some (.flitReplayRequest f0 f1)
  | 68 => some (.tokenArrival f0 f1 f2)
  | 69 => some (.spillWriteRetry f0)
  | 70 => some (.spillReinject f0)
  | 71 => some (.misfitForward f0 f1 f2)
  | 72 => some (.strayReject f0 f1 f2)
  | 73 => some (.strayReturn)
  | 74 => some (.weaveLoad f0)
  | 75 => some (.waleMarkerArrival f0 f1 f2)
  | 76 => some (.roundEntry f0 f1)
  | 77 => some (.markerInjection f0)
  | 78 => some (.unitMarkerForward f0 f1)
  | 79 => some (.upsettArrival)
  | 80 => some (.frameQuiesced f0 f1)
  | 81 => some (.purgeSweepDone f0 f1)
  | 82 => some (.kgateDecrement f0 f1)
  | 83 => some (.wsbRequestArrival f0 f1)
  | 84 => some (.wsbLink f0 f1)
  | 85 => some (.frameStopAck f0 f1 f2)
  | 86 => some (.trapRaise f0 f1)
  | 87 => some (.trapDelivery f0 f1)
  | 88 => some (.replaySlotRetry f0 f1)
  | 89 => some (.replayAreaWriteRetry f0 f1)
  | 90 => some (.controlRequestSend f0)
  | 91 => some (.accessPerform f0)
  | 92 => some (.fullEmptyPerform f0)
  | 93 => some (.ldtLineWrite f0)
  | 94 => some (.sttLineWrite f0)
  | 95 => some (.fenceSlotGrant)
  | 96 => some (.syReleaseDrain f0)
  | 97 => some (.atomicRmw f0)
  | 98 => some (.pageWalk f0 f1)
  | 99 => some (.walkComplete f0 f1)
  | 100 => some (.reclassifyRequest f0 f1)
  | 101 => some (.gets f0 f1)
  | 102 => some (.getx f0 f1)
  | 103 => some (.putx f0 f1)
  | 104 => some (.directoryRmw f0)
  | 105 => some (.directoryEviction f0)
  | 106 => some (.probe f0 f1)
  | 107 => some (.probeAck f0)
  | 108 => some (.lockRequest f0 f1)
  | 109 => some (.lockGrant f0 f1)
  | 110 => some (.mcasChecks f0)
  | 111 => some (.writeAndUnlock f0 f1 f2)
  | 112 => some (.unlockAck f0 f1)
  | 113 => some (.lockWithdrawal f0 f1)
  | 114 => some (.copyCommandAccept f0)
  | 115 => some (.copyPiece f0 f1)
  | 116 => some (.qfenceRelease f0 f1)
  | 117 => some (.scrubGranule)
  | 118 => some (.throttledActivation f0)
  | 119 => some (.hammerWindowEnd)
  | 120 => some (.mmaStepStart)
  | 121 => some (.mmaStepCommit)
  | 122 => some (.mzeroPerform f0 f1)
  | 123 => some (.mldaccPerform f0 f1)
  | 124 => some (.msnapStart f0 f1)
  | 125 => some (.mdrainPerform f0 f1)
  | 126 => some (.sliceExpiry f0)
  | 127 => some (.forcedCut f0)
  | 128 => some (.saveCommit f0)
  | 129 => some (.cfgswapSwitch f0)
  | 130 => some (.migrationRound f0)
  | 131 => some (.stakeMove f0 f1 f2 f3)
  | 132 => some (.watchdogExpiry f0)
  | 133 => some (.wickerLinkDown)
  | 134 => some (.schedulerUnbind f0)
  | _ => none

/-- The device step that a word spells, by its code (log entry 1). -/
def parseEvent (w : StepWord) : Option Instr :=
  eventTable (w.extractLsb' 112 8).toNat (eventField w 0) (eventField w 1) (eventField w 2) (eventField w 3) (eventField w 4)
    (eventField w 5) (eventData w)

/-- The instruction that the fields of a word spell, whatever its stray bits: a stake word where the OPC byte is not zero,
else a device step. -/
def parse (w : StepWord) : Option Instr :=
  if w.extractLsb' 120 8 = 0 then parseEvent w else parseStake (w.setWidth 128)

/-- The decoder, total on every word: a reserved opcode, a bit that its layout requires to be zero, and a field value that
its class does not allow are refused by name (R332). -/
def decode (w : StepWord) : Except DecodeError Instr :=
  match parse w with
  | none => if w.extractLsb' 120 8 = 0 then .error .reservedEvent else .error .reservedOpcode
  | some i =>
    if encode i ≠ w then .error .strayBits
    else if i.wf then .ok i else .error .illegalField

/-- The decoder on a stake word, as a slot of a configuration bank holds it (R305); OPC 0x00 is that of an empty slot (R333). -/
def decodeStake (w : StakeWord) : Except DecodeError Instr :=
  if w.extractLsb' 120 8 = 0 then .error .reservedOpcode else decode (w.setWidth 1152)

/-- The number that bytes spell, the first the least significant (R6). -/
def leNat : List Byte → Nat
  | [] => 0
  | b :: bs => b.toNat + 256 * leNat bs

/-- The first `n` bytes of a number, the least significant first (R6). -/
def natBytes : Nat → Nat → List Byte
  | 0, _ => []
  | n + 1, v => BitVec.ofNat 8 v :: natBytes n (v / 256)

/-- The decoder on bytes as memory holds them (R6): 16 bytes are a stake word, 144 bytes a word of the agenda. -/
def decodeBytes (bs : List Byte) : Except DecodeError Instr :=
  if bs.length = 16 ∨ bs.length = 144 then decode (BitVec.ofNat 1152 (leNat bs)) else .error .shortWord

/-- The instruction that the decoder reads from an instruction whose bits are `w`, bit 0 the least significant bit of the
first word: the bits are laid out in bytes, little-endian (R6), and given to the decoder. -/
def decodeTableWord (nbits w : Nat) : Option Instr :=
  match decodeBytes (natBytes 144 (w % 2 ^ nbits)) with
  | .ok i => some i
  | .error _ => none

end Sys2Proof
end

