-- ==== Sys2Proof/Machine/State.lean ====
section
/-! DEFINITION. The state of the Tvedver as plain data: every register, memory, queue and table that the spec names, the
schedule of the model's steps, and the state right after reset. -/

namespace Sys2Proof.Machine

/-- A table from numbers to data: pairs in strictly rising order of their numbers. -/
abbrev NMap (α : Type) := List (Nat × α)

/-- Why a step stops with a fault. -/
inductive Fault where
  /-- Raised by `step` where the agenda fires a slot number of 128 or more or a tile number of 2,048 or more: the spec says no
  such slot exists (R17). Safe. -/
  | noSuchSlot (ptile slot : Nat)
  deriving DecidableEq, Repr

/-- Why a step has no meaning. -/
inductive Refusal where
  /-- An instruction whose meaning the model does not give yet, by its mnemonic. Safe. -/
  | notModelled (mnemonic : String)
  /-- Raised by `step` where the word that it fetches is no instruction: no stake word that passes R329 and no device step
  (R332). A bank never holds such a word, for WVREG rejects it. Safe. -/
  | undecodable (e : DecodeError)
  deriving DecidableEq, Repr

/-! ## Tokens, channels and ports -/

/-- A token (Table 3.1, R60), with the source tile and the parity that travel beside it (R242, R68). -/
structure Token where
  /-- DATA. -/
  data : W512
  /-- FMT: 0 RAW, 1 F32, 2 BF16, 3 F16, 4 E4M3, 5 E5M2, 6 E2M1, 7 HDR. -/
  fmt : BitVec 3
  /-- COLOUR of the tag word. -/
  colour : BitVec 12
  /-- FRAME of the tag word. -/
  frame : BitVec 12
  /-- WAVE of the tag word. -/
  wave : BitVec 24
  /-- KIND: 0 DATA, 1 WALE marker, 2 UPSETT, 3 reserved. -/
  kind : BitVec 2
  /-- Destination logical stake. -/
  lstake : BitVec 16
  /-- Destination port: 0 a, 1 b, 2 c, 3 t. -/
  port : BitVec 2
  /-- CHK (R68). -/
  chk : BitVec 16
  /-- Source physical tile (R242). -/
  src : Nat
  /-- A per-hop parity error has been seen (R70). -/
  parityErr : Bool
  deriving DecidableEq, Repr

/-- What feeds a channel (R61, R83, R84). -/
inductive SrcKind where
  /-- A destination field of a stake. -/
  | stake
  /-- The return channel of a cluster unit or a stream sequencer for a destination field of a stake. -/
  | unit
  /-- The task-start path into an entry stake. -/
  | task
  /-- The spill engine's re-injection path. -/
  | spill
  deriving DecidableEq, Repr

/-- A channel: its producer and its consuming port. -/
structure ChanKey where
  /-- The colour. -/
  colour : BitVec 12
  /-- The kind of producer. -/
  kind : SrcKind
  /-- The producing stake. -/
  lsrc : BitVec 16
  /-- The destination field of the producing stake, 0 to 2. -/
  dfield : BitVec 2
  /-- The consuming stake. -/
  ldst : BitVec 16
  /-- The consuming port. -/
  port : BitVec 2
  deriving DecidableEq, Repr

/-- One entry in the router stages of a channel. -/
inductive ChanItem where
  /-- A token in a skid buffer. -/
  | tok (t : Token)
  /-- An entry beyond the capacity of an extended stage, held in the colour's spill ring under this sequence number (R244). -/
  | beyond (seq : Nat)
  deriving DecidableEq, Repr

/-- The router stages of one channel, oldest first (R71, R73). -/
structure Chan where
  /-- Which channel. -/
  key : ChanKey
  /-- Its entries, the next to arrive first. -/
  items : List ChanItem
  /-- The deadlock watchdog has extended it (R244). -/
  ext : Bool
  deriving DecidableEq, Repr

/-- One entry of a port's channel order: a token that waits, or the boundary record of a wale marker (R79, R81). -/
structure PItem where
  /-- The channel that brought it. -/
  key : ChanKey
  /-- The token; a boundary record has KIND 1. -/
  tok : Token
  /-- ACC does not accept its FMT: it waits for its misfit route (R63, R64). -/
  misfit : Bool
  deriving DecidableEq, Repr

/-- A latched burst header (R66). -/
structure Latch where
  /-- The pair it belongs to on a MATCH port; none on a FIFO port. -/
  pair : Option (BitVec 12 × BitVec 12)
  /-- The header (Table 3.2). -/
  hdr : W512
  /-- Data tokens taken under it. -/
  count : Nat
  /-- FMTCAST has emitted its output header (R400). -/
  sent : Bool
  deriving DecidableEq, Repr

/-- A port of a stake: what waits there in arrival order, and its header latches. -/
structure Port where
  /-- Entries in arrival order. -/
  buf : List PItem
  /-- Latches (R66). -/
  latches : List Latch
  deriving DecidableEq, Repr

/-- The port with nothing in it. -/
def Port.empty : Port := { buf := [], latches := [] }

/-- A complete operand set of a stake with MATCH ports (R62, R74). -/
structure OpSet where
  /-- The token of port a. -/
  ta : Option Token
  /-- The token of port b. -/
  tb : Option Token
  /-- The token of port c. -/
  tc : Option Token
  /-- The token of port t. -/
  tt : Option Token
  deriving DecidableEq, Repr

/-- A token on its way out on a destination field of a stake. -/
structure Emission where
  /-- The destination field, 0 to 2. -/
  d : Nat
  /-- The token. -/
  tok : Token
  deriving DecidableEq, Repr

/-! ## Tiles -/

/-- One slot of a configuration bank with a stake in it (R14, R305, R325). -/
structure StakeSt where
  /-- The stake word. -/
  word : StakeWord
  /-- Its logical stake. -/
  lstake : BitVec 16
  /-- ENTRY (Table 13.10). -/
  entry : Bool
  /-- FIX (Table 13.10). -/
  fix : Bool
  /-- MATCH port mode (R62). -/
  isMatch : Bool
  /-- Depth of port a (R308). -/
  da : Nat
  /-- Depth of port b. -/
  db : Nat
  /-- Depth of port c. -/
  dc : Nat
  /-- Depth of port t. -/
  dt : Nat
  /-- Local register L0. -/
  l0 : W512
  /-- Local register L1. -/
  l1 : W512
  /-- Local register L2. -/
  l2 : W512
  /-- Local register L3. -/
  l3 : W512
  /-- Port a. -/
  pa : Port
  /-- Port b. -/
  pb : Port
  /-- Port c. -/
  pc : Port
  /-- Port t. -/
  pt : Port
  /-- Complete operand sets, in the order in which they completed (R74). -/
  ready : List OpSet
  /-- The wale round the stake is in (R79, R80). -/
  round : BitVec 16
  /-- MERGE: the previous firing took port a while port b held its token (R439). -/
  mergeB : Bool
  /-- The element buffer of FMTCAST and VQUANT (R399, R500). -/
  ebuf : List (BitVec 32)
  /-- The group count of VQUANT (R500). -/
  group : Nat
  /-- The admission count of KGATE (R43). -/
  kn : Nat
  /-- Tokens of a firing that leave one per clk (R400, R494, R501). -/
  out : List Emission
  /-- A wale marker that the stake has passed to the unit that returns its results (R83), with the number of the next request
  at that moment. -/
  unitMark : Option (BitVec 16 × Nat)
  /-- The stake of the NEAR hint (R414). -/
  near : Option (BitVec 16)
  /-- The HOT (1) or COLD (2) hint (R414). -/
  heat : BitVec 2
  /-- The request channel has been extended (R244). -/
  reqExt : Bool
  /-- It has entered its round and not fired in it (R239). -/
  fresh : Bool
  deriving DecidableEq, Repr

/-- A configuration bank of a tile (R14, R86). -/
structure Bank where
  /-- The colour whose weave it holds. -/
  colour : Option (BitVec 12)
  /-- The logical tile that it holds. -/
  ltile : Nat
  /-- The slots with stakes; a slot not listed holds OPC 0x00. -/
  slots : NMap StakeSt
  deriving DecidableEq, Repr

/-- The bank with every slot empty. -/
def Bank.empty : Bank := { colour := none, ltile := 0, slots := [] }

/-- An accumulator bank (R207). -/
structure Acc where
  /-- The elements that are not zero, by 64·row + column. -/
  elems : NMap (BitVec 32)
  /-- MODE: true for I32, false for F32. -/
  isInt : Bool
  /-- STEPS. -/
  steps : BitVec 32
  /-- The owner. -/
  owner : Option (BitVec 12 × BitVec 12)
  /-- The queued owner. -/
  qowner : Option (BitVec 12 × BitVec 12)
  /-- The queued MODE. -/
  qint : Bool
  /-- The clk of the last commit of a step, with the elements and STEPS before the first commit of that clk (R218). -/
  commit : Option (Nat × NMap (BitVec 32) × BitVec 32)
  deriving DecidableEq, Repr

/-- The bank right after reset: the spec gives no value (log entry 3). -/
def Acc.reset : Acc :=
  { elems := [], isInt := false, steps := 0, owner := none, qowner := none, qint := false, commit := none }

/-- A matrix command in a tile's queue (R208). -/
structure MatCmd where
  /-- The stake word that sent it. -/
  word : StakeWord
  /-- The stake. -/
  lstake : BitVec 16
  /-- COLOUR of the firing. -/
  colour : BitVec 12
  /-- FRAME of the firing. -/
  frame : BitVec 12
  /-- WAVE of the firing. -/
  wave : BitVec 24
  /-- Operand A. -/
  opa : W512
  /-- Operand B. -/
  opb : W512
  /-- FMT of the token on port a. -/
  fa : BitVec 3
  /-- FMT of the token on port b. -/
  fb : BitVec 3
  /-- The header latched on port a when it was accepted (R213). -/
  ha : Option W512
  /-- The header latched on port b when it was accepted (R213). -/
  hb : Option W512
  /-- FPCTL as sampled at acceptance (R208). -/
  fpctl : W64
  /-- COLKEY as sampled at acceptance (R208). -/
  colkey : W64
  /-- It has started. -/
  started : Bool
  /-- The scratch bytes that its step has read (R215). -/
  bytes : List Byte
  /-- Tokens that have still to leave (R222). -/
  out : List Emission
  /-- It has performed and only its tokens remain. -/
  performed : Bool
  deriving DecidableEq, Repr

/-- A cached translation of one page (R165). -/
structure Tlb where
  /-- The VF that tags it. -/
  vf : Nat
  /-- First virtual address of the page. -/
  va : Nat
  /-- log2 of the page size. -/
  size : Nat
  /-- The leaf entry as the walk left it (Table 6.3). -/
  pte : W64
  deriving DecidableEq, Repr

/-- A tile (R14). -/
structure Tile where
  /-- Bank select: true when bank 1 is active (R86). -/
  sel : Bool
  /-- Configuration bank 0. -/
  bank0 : Bank
  /-- Configuration bank 1. -/
  bank1 : Bank
  /-- Matching-store rows in arrival order (R74). -/
  rows : List Token
  /-- Tokens for the incoming weave that wait in the matching store for the flip (R87), each with its channel. -/
  early : List PItem
  /-- The upsett token on its way along the cluster port, behind the last configuration datum (R86). -/
  upsett : Option Token
  /-- The micro-TLB, newest first (R165). -/
  utlb : List Tlb
  /-- The scratch bytes that are not zero, by byte offset (R14). -/
  scratch : NMap Byte
  /-- The scratch lines whose full/empty bit is 1, rising (R184). -/
  full : List Nat
  /-- The 32-byte scratch granules with an uncorrectable error, rising (R163). -/
  bad : List Nat
  /-- MA0. -/
  m0 : Acc
  /-- MA1. -/
  m1 : Acc
  /-- MA2. -/
  m2 : Acc
  /-- MA3. -/
  m3 : Acc
  /-- The matrix command queue, oldest first (R208). -/
  cmds : List MatCmd
  /-- The dirty blocks of its logical tile, by the bit numbers of Table 11.8, rising; scratch line l is 181 + l, and a scratch
  block's own number stands for all of its lines (R266). -/
  dirty : List Nat
  /-- The clk in which a firing slot was last used (R57, R64). -/
  slotClk : Nat
  /-- What has used one of the tile's two firing slots in that clk: each firing stake, and none for a misfit (R227). -/
  slotUse : List (Option (BitVec 16))
  /-- Soft-error counter (R70, Table 15.4). -/
  soft : W64
  /-- STRAYCNT (R242). -/
  stray : W64
  /-- CFGMISS (R241). -/
  cfgmiss : W64
  /-- Scratch corrected counter (Table 15.4). -/
  scrCorr : W64
  deriving DecidableEq, Repr

/-- A tile right after reset: banks empty; the spec gives no value to scratch, whose bytes the model sets to zero (log
entry 3). -/
def Tile.reset : Tile :=
  { sel := false, bank0 := Bank.empty, bank1 := Bank.empty, rows := [], early := [], upsett := none, utlb := [], scratch := [], full := [],
    bad := [], m0 := Acc.reset, m1 := Acc.reset, m2 := Acc.reset, m3 := Acc.reset, cmds := [], dirty := [], slotClk := 0,
    slotUse := [], soft := 0, stray := 0, cfgmiss := 0, scrCorr := 0 }

/-! ## Requests -/

/-- The translation of one 4 KiB granule for a request. -/
inductive Piece where
  /-- Not translated yet. -/
  | todo
  /-- A miss slot of the cluster works on it (R166). -/
  | walking
  /-- Translated: the physical address of the granule and the leaf entry (Table 6.3). -/
  | ok (pa : Nat) (pte : W64)
  /-- The walk faulted with this cause and reason (Table 6.4). -/
  | bad (cause reason : BitVec 8)
  deriving DecidableEq, Repr

/-- What an access needs of a page (Table 6.4). -/
inductive Need where
  /-- R. -/
  | load
  /-- W. -/
  | store
  /-- R, W and A. -/
  | atomic
  /-- W and A. -/
  | reduce
  /-- R on a HOME 1 page. -/
  | loadFull
  /-- W on a HOME 1 page. -/
  | storeEmpty
  /-- R and W: the parameter block of an MCAS (Table 8.7). -/
  | block
  deriving DecidableEq, Repr

/-- One 4 KiB granule that a request touches. -/
structure PageRef where
  /-- Its virtual address. -/
  va : Nat
  /-- What the access needs. -/
  need : Need
  /-- Its translation. -/
  res : Piece
  deriving DecidableEq, Repr

/-- Where a request is (R119, R126 to R133, R450). -/
inductive ReqPhase where
  /-- On its stake's request channel. -/
  | chan
  /-- Held in the home buffer, not linked; a control request is held until it is sent on. -/
  | held
  /-- Linked and issued; or a control request sent on to its unit. -/
  | issued
  /-- Performed; its result has still to return. -/
  | performed
  deriving DecidableEq, Repr

/-- A request to a wave store buffer (R119, R450). -/
structure Request where
  /-- The stake word. -/
  word : StakeWord
  /-- The stake. -/
  lstake : BitVec 16
  /-- COLOUR. -/
  colour : BitVec 12
  /-- FRAME. -/
  frame : BitVec 12
  /-- WAVE. -/
  wave : BitVec 24
  /-- PRED (Table 5.1). -/
  pred : BitVec 9
  /-- OWN. -/
  own : BitVec 9
  /-- SUCC. -/
  succ : BitVec 9
  /-- A control request: no place in wave order (R450). -/
  ctl : Bool
  /-- Operand A. -/
  opa : W512
  /-- Operand B. -/
  opb : W512
  /-- Operand C. -/
  opc : W512
  /-- FMT of operand A's token. -/
  fa : BitVec 3
  /-- The tensor map as sampled at the firing (R483). -/
  tm : W512
  /-- Physical tile of the firing. -/
  ptile : Nat
  /-- Home cluster. -/
  home : Nat
  /-- Cause of the fault it carries, 0 for none (R134). -/
  cause : BitVec 8
  /-- Reason of the fault it carries. -/
  reason : BitVec 8
  /-- Faulting address. -/
  faddr : W64
  /-- The granules it touches. -/
  pages : List PageRef
  /-- Where it is. -/
  phase : ReqPhase
  /-- Order of acceptance or of linking at its buffer. -/
  order : Nat
  /-- Lines, bytes or elements already performed. -/
  done : Nat
  /-- The bytes read so far. -/
  data : W512
  /-- Its result comes from a replay record with SUPPLY (R137, R257). -/
  supply : Bool
  /-- The wait of R175 of an SY release: 0 not begun, 1 waiting for the earlier epoch, 2 waiting for its own, 3 ended. -/
  sy : BitVec 2
  /-- The epoch that it watches (R175). -/
  epoch : Bool
  /-- Message tags outstanding at the host port or a wicker port (R83, R176). -/
  tags : List Nat
  /-- Results that have still to return. -/
  out : List Emission
  /-- It waits at the queue home, a bank or a lock queue, and is not outstanding (R140, R459). -/
  waiting : Bool
  /-- It holds one of the reserved entries of its buffer (R126). -/
  resv : Bool
  /-- Number of its acceptance at its buffer (R450). -/
  acc : Nat
  /-- LDT and STT: the current line has been read (R427, R477). -/
  lineRd : Bool
  /-- LDT: its source bytes as they stood when it began, where they lie in its own scratch (R427). -/
  snap : List Byte
  /-- Its entry in the colour's spill ring, when it is the overflow of an extended request channel (R244). -/
  ring : Option Nat
  /-- It had issued before a trap or a cut took it back to the held state: it issues again without a place in the chain (R137). -/
  again : Bool
  /-- The epochs of its writes to the host or a peer that ACKOUT counts and that have still to be sent (R175). -/
  acks : List Bool
  deriving DecidableEq, Repr

/-! ## Colours, frames, tasks and queues -/

/-- A record of a replay queue (Table 11.4). -/
structure Record where
  /-- OPA. -/
  opa : W512
  /-- OPB. -/
  opb : W512
  /-- OPC. -/
  opc : W512
  /-- SWORD. -/
  word : StakeWord
  /-- COLOUR and FRAME of TAG. -/
  colour : BitVec 12
  /-- FRAME of TAG. -/
  frame : BitVec 12
  /-- WAVE of TAG. -/
  wave : BitVec 24
  /-- LSTAKE. -/
  lstake : BitVec 16
  /-- PORT. -/
  port : BitVec 2
  /-- FMT. -/
  fmt : BitVec 3
  /-- RKIND: 0 TOKEN, 1 REQUEST, 2 PASS, 3 MATRIX, 4 CONTROL. -/
  rkind : BitVec 8
  /-- FLAGS: [0] FAULT, [1] CORRUPT, [2] SUPPLY, [3] SKIP. -/
  flags : BitVec 8
  /-- CAUSE. -/
  cause : BitVec 8
  /-- CHK. -/
  chk : BitVec 16
  /-- FADDR. -/
  faddr : W64
  /-- Number of the request that it was, by which tickets name it (R180, R187). -/
  rid : Option Nat
  /-- The request that it was, as it stood when it joined the queue. -/
  was : Option Request
  deriving DecidableEq, Repr

/-- What a frame is doing (R36, R48, R135, R137, R254, R258). -/
inductive FramePhase where
  /-- Live. -/
  | live
  /-- FRAMEEND or TASKEND has fired, and the frame quiesces. -/
  | ending
  /-- Killed while the retiring set was full: it waits for a place there (R37, R258; log entry 90). -/
  | killed
  /-- In the retiring set: its purge sweep runs. -/
  | purging
  /-- A trap stops it: acknowledgements and issued requests are awaited. -/
  | stopping
  /-- Its replay queue is closed and written; delivery is pending. -/
  | raised
  /-- Stopped with its slot on the host or handler path. -/
  | stopped
  /-- RESUME has been applied: STATE := RESUMING has still to be written and the records to be read back (R250, R257). -/
  | restarting
  /-- Resumed: its replay queue is being taken. -/
  | resuming
  deriving DecidableEq, Repr

/-- A frame of a colour (R33 to R35, R127, R135, R251). -/
structure Frame where
  /-- FRAME. -/
  num : BitVec 12
  /-- Creation sequence number (R35). -/
  seq : BitVec 32
  /-- Parent frame number (R34). -/
  parent : BitVec 12
  /-- Home cluster (R33). -/
  home : Nat
  /-- Logical tile of its home (R265). -/
  homeLt : Nat
  /-- Barrier membership mask (R34). -/
  mask : BitVec 16
  /-- Barriers at which it has arrived in the current generation (R45). -/
  arrived : BitVec 16
  /-- f.cw (R127). -/
  cw : BitVec 24
  /-- f.last; none stands for START. -/
  last : Option (BitVec 9)
  /-- f.nxt; none stands for UNKNOWN. -/
  nxt : Option (BitVec 9)
  /-- It is a root frame. -/
  root : Bool
  /-- The record of its task (R49). -/
  task : W512
  /-- The stamp of that record (R231). -/
  stamp : Nat
  /-- It belongs to a handler task (R254). -/
  handler : Bool
  /-- What it is doing. -/
  phase : FramePhase
  /-- Its FRAMEEND or TASKEND has fired (R36). -/
  ended : Bool
  /-- Its end was TASKEND (R54). -/
  tend : Bool
  /-- Tiles that have still to acknowledge a stop or a purge sweep. -/
  awaitTiles : List Nat
  /-- Tiles that have acknowledged a stop. -/
  stopped : List Nat
  /-- Replay slot, when it has one (R250). -/
  slot : Option Nat
  /-- CAUSE of the slot header. -/
  cause : BitVec 8
  /-- REASON. -/
  reason : BitVec 8
  /-- LSTAKE of the record that caused the trap. -/
  tstake : BitVec 16
  /-- FADDR. -/
  faddr : W64
  /-- TIMEBASE at the stop. -/
  time : W64
  /-- Index of the record that caused the trap, from 0. -/
  frec : Nat
  /-- Its replay queue. -/
  recs : List Record
  /-- Its trap record has been discarded at take-up, and its trap goes by the host path (R254). -/
  toHost : Bool
  /-- A write to its replay area has faulted and waits (R250). -/
  areaFault : Bool
  /-- clk of the last look for a slot or of the last retry. -/
  retry : Nat
  /-- A FULL fence holds its links: cluster slot serial (R178). -/
  hold : Option (BitVec 32)
  deriving DecidableEq, Repr

/-- A BAR that waits at a barrier (R364). -/
structure Waiter where
  /-- Its stake. -/
  lstake : BitVec 16
  /-- Its frame. -/
  frame : BitVec 12
  /-- Its wave. -/
  wave : BitVec 24
  deriving DecidableEq, Repr

/-- BARCNTn (Table 2.3) with its waiters. -/
structure Barrier where
  /-- GEN. -/
  gen : BitVec 16
  /-- BROKEN. -/
  broken : Bool
  /-- ARRIVED. -/
  arrived : BitVec 13
  /-- EXPECT. -/
  expect : BitVec 13
  /-- The BARs that wait in this generation. -/
  waiters : List Waiter
  deriving DecidableEq, Repr

/-- A barrier right after reset or binding (R38). -/
def Barrier.reset : Barrier := { gen := 0, broken := false, arrived := 0, expect := 0, waiters := [] }

/-- A token of the colour in the spill ring (R76, R244). -/
structure SpillEnt where
  /-- Spill sequence number. -/
  seq : Nat
  /-- Virtual address of its ring entry. -/
  va : Nat
  /-- Physical tile for which it was spilled. -/
  tile : Nat
  /-- It is the overflow of an extended channel (R244). -/
  beyond : Bool
  /-- A per-hop parity error travels beside it (R70). -/
  parityErr : Bool
  /-- The channel that brought it. -/
  key : ChanKey
  deriving DecidableEq, Repr

/-- A copy command in its queue (R379, R380). -/
structure CopyCmd where
  /-- Command number. -/
  num : BitVec 32
  /-- Colour of the issuing frame is the queue's; its frame. -/
  frame : BitVec 12
  /-- TY. -/
  ty : Ty
  /-- CPYWP: OFF rises as it goes (R381). -/
  wp : Bool
  /-- SRC. -/
  src : Nat
  /-- DST. -/
  dst : Nat
  /-- LEN. -/
  len : Nat
  /-- Bytes written. -/
  off : Nat
  /-- Bytes performed or acknowledged. -/
  acked : Nat
  /-- The translations that it has taken. -/
  pages : List PageRef
  /-- The source bytes of the current piece, once they have been read, with those in error. -/
  data : Option (List (Byte × Bool))
  /-- Its source bytes as they stood when it began, where its ranges overlap (R380). -/
  snap : List Byte
  /-- Message tags outstanding. -/
  tags : List Nat
  /-- Bytes of the current piece already written or sent: a piece whose destination lies on two pages goes in parts. -/
  part : Nat
  /-- The epoch in which ACKOUT counts the write of its current part, from its issue until it is sent (R175). -/
  acks : List Bool
  deriving DecidableEq, Repr

/-- An entry of a copy queue (R181, R182). -/
inductive QItem where
  /-- A copy command. -/
  | cmd (c : CopyCmd)
  /-- A QFENCE, by its index in the colour's list. -/
  | fence (idx : Nat)
  deriving DecidableEq, Repr

/-- A copy queue of a colour (R181, R183). -/
structure CopyQ where
  /-- Commands accepted since binding. -/
  accepted : BitVec 32
  /-- DONE. -/
  done : BitVec 32
  /-- Entries, oldest first. -/
  items : List QItem
  deriving DecidableEq, Repr

/-- A QFENCE that waits (R182). -/
structure QFence where
  /-- Its stake. -/
  lstake : BitVec 16
  /-- Its frame. -/
  frame : BitVec 12
  /-- Its wave. -/
  wave : BitVec 24
  /-- The source token's DATA. -/
  data : W512
  /-- The source token's FMT. -/
  fmt : BitVec 3
  /-- The queues it has still to pass. -/
  left : List Nat
  deriving DecidableEq, Repr

/-- A stake-map entry (Table 10.6). -/
structure SmapEnt where
  /-- FIX. -/
  fix : Bool
  /-- PTILE. -/
  ptile : Nat
  /-- PSLOT. -/
  pslot : Nat
  deriving DecidableEq, Repr

/-- Why a marker is in flight (R84, R259). -/
inductive CutWhy where
  /-- A MARK or a migration round: nothing is saved. -/
  | round
  /-- A SAVE command, with its CMDID. -/
  | save (cmd : BitVec 32)
  /-- The end of a time slice (R232). -/
  | slice
  /-- A quench checkpoint (R271). -/
  | quench
  /-- A CFGSWAP to this weave (R373). -/
  | swap (weave : BitVec 32)
  /-- A VF pause (R292). -/
  | pause
  /-- A guest switch (R276). -/
  | guest
  /-- A CKPTALL (R304), with its CMDID. -/
  | ckpt (cmd : BitVec 32)
  deriving DecidableEq, Repr

/-- The marker in flight of a colour (R84, R259, R260). -/
structure Cut where
  /-- Why. -/
  why : CutWhy
  /-- clk of the injection. -/
  start : Nat
  /-- It has been forced (R260). -/
  forced : Bool
  /-- Every stake has entered the new round. -/
  whole : Bool
  deriving DecidableEq, Repr

/-- A colour: one weave instance and the state its frames share (R29, R30, R38). -/
structure Colour where
  /-- The VF whose weave it is. -/
  vf : Nat
  /-- The partition. -/
  part : Nat
  /-- WEAVEID. -/
  weave : BitVec 32
  /-- Lead colour of its instance group (R50). -/
  lead : BitVec 12
  /-- Logical tiles. -/
  nlt : Nat
  /-- The stake map, by logical stake (R237). -/
  smap : NMap SmapEnt
  /-- Anchors: the physical tile of each logical tile (R237). -/
  anchors : NMap Nat
  /-- Tiles that have still to flip to it (R39, R86). -/
  unflipped : List Nat
  /-- Logical tiles loaded into the shadow banks of tiles whose active banks still run another weave: the tile, and the contents
  that it takes at its flip (R86, R241). -/
  arriving : NMap (Nat × Tile)
  /-- FPCTL (Table 4.5). -/
  fpctl : W64
  /-- COLKEY (Table 4.7). -/
  colkey : W64
  /-- SPILLBASE (Table 3.5). -/
  spillbase : W64
  /-- QUOTA of MSQUOTA (Table 3.4). -/
  quota : BitVec 13
  /-- SPILLS of MSQUOTA. -/
  spills : BitVec 32
  /-- TRAPVEC (Table 11.2). -/
  trapvec : W64
  /-- BARCNT0 to BARCNT15. -/
  bars : NMap Barrier
  /-- The copy queues 0 to 15. -/
  copyq : NMap CopyQ
  /-- QFENCEs that wait. -/
  qfences : NMap QFence
  /-- ROUND of WALE (Table 3.7). -/
  round : BitVec 16
  /-- The marker in flight: INFL of WALE. -/
  cut : Option Cut
  /-- A pre-emption has been asked for and its marker has not been injected (R259). -/
  want : Option CutWhy
  /-- EP of ACKOUT (Table 7.4). -/
  ep : Bool
  /-- OUT0. -/
  out0 : BitVec 16
  /-- OUT1. -/
  out1 : BitVec 16
  /-- TM0 to TM15; one not listed is unset (Table 13.6). -/
  tms : NMap W512
  /-- Live, stopped and retiring frames, by FRAME. -/
  frames : NMap Frame
  /-- The next creation sequence number (R35). -/
  nextSeq : BitVec 32
  /-- The next spill sequence number (R76). -/
  spillNext : Nat
  /-- Tokens in the spill ring, oldest first. -/
  spilled : List SpillEnt
  /-- A spill write has faulted and waits (R76): the token, its channel and its tile. -/
  spillFault : List PItem
  /-- MARKs that wait for their round (R431). -/
  marks : List Waiter
  /-- Results of barriers and of MARKs that have still to leave, oldest first: for each stake the tokens of one result, which
  leave together (R12, R72, R364, R432). -/
  out : List (BitVec 16 × List Emission)
  /-- Extended channels whose overflow writes wait with the spill engine, each with whether their fault has been reported
  (R76, R244). -/
  ovf : List (ChanKey × Bool)
  /-- Writes of STATE to replay slots that have still to be made: slot, value, and whether a fault has been reported (R250,
  R258). -/
  slotWrites : List (Nat × Nat × Bool)
  /-- CFGSWAP's requested weave (R372), with the number of its registration at the request. -/
  swap : Option (BitVec 32 × Nat)
  /-- The directory entry of its context, once it has one (R264). -/
  ctx : Option Nat
  /-- Task starts are stopped (R259, R271). -/
  noStart : Bool
  /-- The record of a TASKEND join that is retried, and the clk of its last try (R54). -/
  join : Option (W512 × Nat)
  /-- Firings since the task began (R272). -/
  fired : Nat
  /-- clk of the firings in the last 2^16 clk (R272). -/
  fireLog : List Nat
  /-- clk from which the watchdog counts silence (R243). -/
  wdFrom : Nat
  /-- An extension has been made in this episode (R245). -/
  wdExt : Bool
  /-- DEADLK has been posted and no firing has followed (R248). -/
  wdPosted : Bool
  /-- Extensions held at once (R244). -/
  exts : Nat
  /-- The weave is in no bank and a load is requested (R241). -/
  loadReq : Bool
  /-- clk of the last retry of a faulting write (R76, R250). -/
  retry : Nat
  /-- The round that the last migration round leads to, and its clk; none before the first (R238). -/
  mig : Option (BitVec 16 × Nat)
  /-- Moves made in this migration round (R238). -/
  moves : Nat
  deriving DecidableEq, Repr

/-! ## Weave images -/

/-- A stake record of an image (Table 13.10). -/
structure StakeRec where
  /-- WORD. -/
  word : StakeWord
  /-- LSTAKE. -/
  lstake : BitVec 16
  /-- FLAGS. -/
  flags : BitVec 8
  /-- HCL, HTI and HSLOT when HINTV is 1. -/
  hint : Option (Nat × Nat × Nat)
  /-- Depth of port a. -/
  da : Nat
  /-- Depth of port b. -/
  db : Nat
  /-- Depth of port c. -/
  dc : Nat
  /-- Depth of port t. -/
  dt : Nat
  deriving DecidableEq, Repr

/-- A registered weave image (R324 to R331). -/
structure Weave where
  /-- WEAVEID. -/
  id : BitVec 32
  /-- Number of its registration. The model's own. -/
  reg : Nat
  /-- NLT. -/
  nlt : Nat
  /-- The stake records. -/
  stakes : List StakeRec
  /-- The LREG records: stake, register and value. -/
  lregs : List (BitVec 16 × Nat × W512)
  /-- The tensor maps that are set. -/
  tms : NMap W512
  /-- FPCTL. -/
  fpctl : W64
  /-- COLKEY. -/
  colkey : W64
  /-- SPILLBASE. -/
  spillbase : W64
  /-- MSQUOTA. -/
  msquota : W64
  /-- TRAPVEC. -/
  trapvec : W64
  /-- The DATA records: logical tile, line and bytes. -/
  data : List (Nat × Nat × List Byte)
  deriving DecidableEq, Repr

/-! ## Clusters -/

/-- State of a line in an L1D (R150). -/
inductive LineSt where
  | m | e | s
  deriving DecidableEq, Repr

/-- A line of an L1D (R150, R153). -/
structure L1Line where
  /-- Physical address divided by 128. -/
  line : Nat
  /-- M, E or S. -/
  st : LineSt
  /-- Its 128 bytes. -/
  data : BitVec 1024
  /-- The 32-byte granules in error. -/
  bad : BitVec 4
  /-- It belongs to a PRIVATE page and has no directory entry (R153). -/
  priv : Bool
  /-- It belongs to a HOME 2 page: the VF and the line's virtual address (R149). -/
  pin : Option (Nat × Nat)
  deriving DecidableEq, Repr

/-- A ticket slot (R177, R180). -/
structure Ticket where
  /-- TSER. -/
  tser : BitVec 32
  /-- COLOUR. -/
  colour : BitVec 12
  /-- FRAME. -/
  frame : BitVec 12
  /-- The requests it covers. -/
  covered : List Nat
  /-- The wait of R175: 0 not begun, 1 and 2 waiting, 3 ended or not asked. -/
  sy : BitVec 2
  /-- The epoch watched. -/
  epoch : Bool
  deriving DecidableEq, Repr

/-- A miss slot (R165, R166). -/
structure Miss where
  /-- The VF. -/
  vf : Nat
  /-- The 4 KiB granule. -/
  va : Nat
  deriving DecidableEq, Repr

/-- Where a walk stands (R156, R165, R166). -/
inductive WalkSt where
  /-- It has still to read the tables. -/
  | going
  /-- It has found a page that is PRIVATE to another cluster, or that a read-modify-write needs SHARED: its reclassification is
  asked for. -/
  | reclass
  /-- It has ended with a fault of the tables (Table 6.4), or UE. -/
  | bad (cause reason : BitVec 8)
  /-- It has ended with a leaf: the granule's physical address and the entry; the page's OWNER may lie in another partition
  (R156). -/
  | done (pa : Nat) (pte : W64) (xpart : Bool)
  deriving DecidableEq, Repr

/-- A walk of a die's walk unit (R165, R166). -/
structure Walk where
  /-- The VF. -/
  vf : Nat
  /-- The 4 KiB granule. -/
  va : Nat
  /-- The requesting cluster on whose behalf it classifies (R155). -/
  home : Nat
  /-- Where it stands. -/
  st : WalkSt
  /-- log2 of the size of the page found. -/
  size : Nat
  /-- The physical address of the leaf entry. -/
  pteAt : Nat
  deriving DecidableEq, Repr

/-- An entry of a walk cache: a non-leaf page-table entry (R165). -/
structure WEnt where
  /-- The VF that tags it. -/
  vf : Nat
  /-- Its level. -/
  level : Nat
  /-- The index bits of the addresses that it covers. -/
  key : Nat
  /-- The physical address of the next table. -/
  table : Nat
  deriving DecidableEq, Repr

/-- An MCAS that the solder engine runs (R200, R205). -/
structure McasRun where
  /-- Its request. -/
  req : Nat
  /-- COUNT. -/
  count : Nat
  /-- Physical addresses of the targets, in block order. -/
  pas : List Nat
  /-- EXP of each entry. -/
  exps : List W64
  /-- NEW of each entry. -/
  news : List W64
  /-- The leaf entries of the targets. -/
  ptes : List W64
  /-- The lines to lock, in order, with no lock request sent yet. -/
  todo : List Nat
  /-- The line whose lock request is on its way or queued. -/
  asked : Option Nat
  /-- The lines locked. -/
  held : List Nat
  /-- Every lock is held and the MCAS has performed. -/
  performed : Bool
  /-- OBS of each entry. -/
  obs : List W64
  /-- MISMASK. -/
  mm : BitVec 8
  /-- An uncorrectable error was fetched (R206). -/
  ue : Bool
  /-- Lines still to be written and unlocked. -/
  toWrite : List Nat
  /-- Unlock acknowledgements awaited. -/
  toAck : List Nat
  /-- clk of the first lock request. -/
  start : Nat
  /-- clk of the last grant. -/
  last : Nat
  /-- SCOPE. -/
  scope : BitVec 2
  /-- It is being withdrawn (R203). -/
  withdrawn : Bool
  /-- The writes to a parameter block off the package that have been sent. -/
  wrote : Nat
  deriving DecidableEq, Repr

/-- A cluster (R14). -/
structure Cluster where
  /-- The L1D. -/
  l1 : List L1Line
  /-- The cluster TLB, newest first (R165). -/
  tlb : List Tlb
  /-- The miss slots (R165). -/
  miss : List Miss
  /-- The ticket slots in use (R180). -/
  tickets : List Ticket
  /-- The next TSER. -/
  nextTser : BitVec 32
  /-- FENCEs that wait for a slot, oldest first (R180). -/
  fenceWait : List Nat
  /-- The MCAS operations that the solder engine runs, by slot (R205). -/
  solder : NMap McasRun
  /-- The clk in which the wave store buffer last took a request from the cluster port, and how many it took (R126). -/
  portClk : Nat
  portUse : Nat
  /-- The clk in which the buffer last linked (R128). -/
  linkClk : Nat
  /-- The frames that it linked in that clk, the first first. -/
  linked : List (BitVec 12 × BitVec 12)
  /-- The colour that it had served first in the clk before that. -/
  linkPtr : BitVec 12
  deriving DecidableEq, Repr

/-- A cluster right after reset. -/
def Cluster.reset : Cluster :=
  { l1 := [], tlb := [], miss := [], tickets := [], nextTser := 0, fenceWait := [], solder := [], portClk := 0, portUse := 0, linkClk := 0,
    linked := [], linkPtr := 0 }

/-! ## Dies -/

/-- A request at a home directory (Table 6.6, R201). -/
inductive DirReq where
  /-- GETS from a cluster; for a line of a HOME 2 page with its VF and virtual address. -/
  | gets (c : Nat) (pin : Option (Nat × Nat))
  /-- GETX from a cluster. -/
  | getx (c : Nat) (pin : Option (Nat × Nat))
  /-- An atomic or reduction, by its request: at a HOME 0 or 2 line the line must reach I first (R189). -/
  | rmw (id : Nat) (clear : Bool)
  /-- A piece of a copy queue of a colour (R201). -/
  | piece (colour queue : Nat)
  /-- A request that arrived at the host port or at a wicker link, by its number (R186, R201). -/
  | port (n : Nat)
  /-- A lock request of a solder engine: cluster and slot. -/
  | lock (c slot : Nat)
  /-- The entry is being evicted. -/
  | evict
  deriving DecidableEq, Repr

/-- A directory entry (R150 to R152). -/
structure DirEnt where
  /-- Physical address divided by 128. -/
  line : Nat
  /-- X with an owner, when it has one. -/
  owner : Option Nat
  /-- The sharer vector. -/
  sharers : W64
  /-- The request being served, when the entry is busy. -/
  busy : Option DirReq
  /-- Clusters that have still to answer a probe. -/
  probes : List Nat
  /-- The request being served is a unit's own access: the line is ready for it, and it has still to perform. -/
  got : Bool
  /-- The data that an owner sends to the requester of a GETX, with its granules in error (Table 6.6). -/
  data : Option (BitVec 1024 × BitVec 4)
  /-- Requests that wait, in arrival order. -/
  queue : List DirReq
  deriving DecidableEq, Repr

/-- A line of a die slice (R150, R149, R158). -/
structure SliceLine where
  /-- Physical address divided by 128. -/
  line : Nat
  /-- Its way. -/
  way : Nat
  /-- The partition that allocated it. -/
  part : Nat
  /-- The mappings of HOME 2 pages that pin it: VF and virtual address of each (R149). -/
  pins : List (Nat × Nat)
  /-- Not yet written back. -/
  dirty : Bool
  /-- Its 128 bytes. -/
  data : BitVec 1024
  /-- The 32-byte granules in error. -/
  bad : BitVec 4
  deriving DecidableEq, Repr

/-- An entry of a lock table (R201). -/
structure Lock where
  /-- Physical address divided by 128. -/
  line : Nat
  /-- The engine's cluster. -/
  cluster : Nat
  /-- The engine's slot. -/
  slot : Nat
  deriving DecidableEq, Repr

/-- A die (R14). -/
structure Die where
  /-- The directory. -/
  dir : List DirEnt
  /-- The die slice. -/
  slice : List SliceLine
  /-- The lock table. -/
  locks : List Lock
  /-- The walks in progress, at most 64 (R165). -/
  walks : List Walk
  /-- The granules whose walks wait, each with its VF and requesting cluster, in FIFO order (R166). -/
  walkq : List (Nat × Nat × Nat)
  /-- The walk cache, newest first (R165). -/
  wcache : List WEnt
  /-- DRAIN of SLDRAIN (Table 6.8). -/
  drain : BitVec 32
  /-- The sets that the shrink sweep has passed (R158). -/
  swept : Nat
  /-- ARTMISS. -/
  artmiss : W64
  /-- HBM corrected. -/
  hbmCorr : W64
  /-- HBM uncorrectable. -/
  hbmUnc : W64
  /-- Slice corrected. -/
  slCorr : W64
  /-- Die-to-die retries. -/
  retries : W64
  /-- DLY of HAMCTL. -/
  dly : BitVec 32
  /-- TH of HAMCTL. -/
  th : BitVec 16
  /-- Activations of each row in this window, and the clk of its last activation (R296). -/
  rows : NMap (Nat × Nat)
  /-- clk at which the activation window began (R296). -/
  window : Nat
  deriving DecidableEq, Repr

/-- A die right after reset (Table 12.3). -/
def Die.reset : Die :=
  { dir := [], slice := [], locks := [], walks := [], walkq := [], wcache := [], drain := 0, swept := 0, artmiss := 0, hbmCorr := 0,
    hbmUnc := 0, slCorr := 0, retries := 0, dly := 1000, th := 4096, rows := [], window := 0 }

/-! ## The physical function, its virtual functions and its partitions -/

/-- The wait of R175 that the device runs on one colour before it writes an event (R289, R384). -/
structure AckWait where
  /-- The colour. -/
  colour : BitVec 12
  /-- 0 not begun, 1 waiting for the earlier epoch, 2 waiting for its own, 3 ended. -/
  st : BitVec 2
  /-- The epoch e of R175. -/
  epoch : Bool
  deriving DecidableEq, Repr

/-- An event (Table 12.5), as raised. -/
structure Event where
  /-- TYPE. -/
  ty : BitVec 8
  /-- STATUS. -/
  status : BitVec 8
  /-- GEN. -/
  gen : BitVec 16
  /-- COLIDX. -/
  colidx : BitVec 16
  /-- ID. -/
  id : BitVec 32
  /-- FRAME. -/
  frame : BitVec 16
  /-- CAUSE. -/
  cause : BitVec 8
  /-- REASON. -/
  reason : BitVec 8
  /-- ADDR. -/
  addr : W64
  /-- INFO. -/
  info : W64
  /-- The stake and the token of an EVENT firing that emits once the record has been written (R383). -/
  emit : Option (BitVec 16 × Token)
  /-- The waits of R175 that come before its record is written (R289, R384). -/
  acks : List AckWait
  /-- The task graphs whose INFL is cleared before the record of a JOB event is written (R235). -/
  clear : List Nat
  deriving DecidableEq, Repr

/-- The queues of a function: the first half of Table 12.4. -/
structure Queues where
  /-- SQBASE. -/
  sqbase : W64
  /-- SQHEAD. -/
  sqhead : BitVec 32
  /-- The last TAIL taken from SQDB. -/
  sqtail : BitVec 32
  /-- EQBASE. -/
  eqbase : W64
  /-- EQTAIL. -/
  eqtail : BitVec 32
  /-- EQHEAD. -/
  eqhead : BitVec 32
  /-- MODUS of EQCTL. -/
  modus : BitVec 16
  /-- IEN. -/
  ien : Bool
  /-- VEC. -/
  vec : BitVec 2
  /-- CFGERR. -/
  cfgerr : Bool
  /-- SQERR. -/
  sqerr : Bool
  /-- Events raised and not yet written, oldest first (R290). -/
  evbuf : List Event
  /-- Events whose raising units wait for a place in the buffer, oldest first (R290). -/
  pend : List Event
  /-- An event slot could not be written: clk of the last try (R524). -/
  evFault : Option Nat
  /-- A message of the vector is due (R289). -/
  msixDue : Bool
  /-- clk of the last message of each vector. -/
  msixLast : NMap Nat
  deriving DecidableEq, Repr

/-- The queues right after reset (Table 12.4). -/
def Queues.reset : Queues :=
  { sqbase := 0, sqhead := 0, sqtail := 0, eqbase := 0, eqtail := 0, eqhead := 0, modus := 0, ien := false, vec := 0,
    cfgerr := false, sqerr := false, evbuf := [], pend := [], evFault := none, msixDue := false, msixLast := [] }

/-- PHASE of GSWSTAT (Table 11.10). -/
inductive GswPhase where
  | idle | cut | save | load | done | fail
  deriving DecidableEq, Repr

/-- TDI states (Table 12.7). -/
inductive TdiState where
  | configUnlocked | configLocked | run | error
  deriving DecidableEq, Repr

/-- A job that the job unit has taken and whose event has not been written (R55, R284). -/
structure Job where
  /-- JOBID. -/
  id : BitVec 32
  /-- Its colour. -/
  colour : BitVec 12
  /-- Virtual address of its completion block. -/
  done : Nat
  /-- Virtual address of its task graph, 0 for a LAUNCH. -/
  graph : Nat
  /-- It has ended, with its event raised. -/
  ended : Bool
  /-- The colours on which its tasks have started (R289). -/
  cols : List Nat
  deriving DecidableEq, Repr

/-- A virtual function (R283 to R293, Table 12.3, Table 12.4). -/
structure Vf where
  /-- PTROOT (VFCFG). -/
  ptroot : W64
  /-- EN of VFCFG. -/
  en : Bool
  /-- PAUSE of VFCFG. -/
  pause : Bool
  /-- GEN. -/
  gen : BitVec 16
  /-- ARTM. -/
  artm : BitVec 16
  /-- PART. -/
  part : BitVec 6
  /-- CTXBASE (Table 11.6). -/
  ctxbase : W64
  /-- Its queues. -/
  q : Queues
  /-- PAUSED of VFSTAT. -/
  paused : Bool
  /-- ENABLED of VFSTAT. -/
  enabled : Bool
  /-- The range being invalidated: BUSY of INVALST (R285). -/
  inval : Option (Nat × Nat)
  /-- PHASE of GSWSTAT. -/
  gsw : GswPhase
  /-- COLIDX of the guest switch. -/
  gswCol : BitVec 12
  /-- GSWSAVE. -/
  gswSave : W64
  /-- GSWLOAD. -/
  gswLoad : W64
  /-- The guest switch is one that a resume runs again: no task of the VF starts before its end (R276). -/
  gswAgain : Bool
  /-- Events in the hold ring of a paused VF (R292). -/
  held : List Event
  /-- Jobs taken. -/
  jobs : List Job
  /-- Jobs that have failed: their queued records are discarded (R55). -/
  failed : List (BitVec 32)
  /-- A LAUNCH whose push returned FULL: clk of its last try (R229). -/
  launchWait : Option Nat
  /-- A REPLAY that has made its writes and pushes its records: the next node (R235). -/
  fill : Option Nat
  /-- A REPLAY has set INFL of its graph, and some of its writes have still to be made (R235). -/
  infl : Bool
  /-- Registered weaves (R331). -/
  weaves : List Weave
  /-- The state of its TDI (R298). -/
  tdi : TdiState
  /-- The nonce of the lock. -/
  nonce : W64
  /-- The IDE stream bound to it, when one is. -/
  stream : Option W64
  /-- The address of its BAR0 (R278, R300). -/
  bar0 : W64
  /-- Steps 1 to 4 of R293 have run in ERROR. -/
  scrubbed : Bool
  /-- The VF holds its partition (R232). -/
  holds : Bool
  deriving DecidableEq, Repr

/-- A VF right after reset (Tables 12.3, 12.4, 11.6, 11.10). -/
def Vf.reset : Vf :=
  { ptroot := 0, en := false, pause := false, gen := 0, artm := 0, part := 0, ctxbase := 0, q := Queues.reset,
    paused := false, enabled := false, inval := none, gsw := .idle, gswCol := 0, gswSave := 0, gswLoad := 0, gswAgain := false, held := [],
    jobs := [], failed := [], launchWait := none, fill := none, infl := false, weaves := [], tdi := .configUnlocked, nonce := 0,
    stream := none, bar0 := 0, scrubbed := false, holds := false }

/-- A rebase window (R269). -/
structure Rebase where
  /-- The old first colour. -/
  old : Nat
  /-- The block size. -/
  size : Nat
  /-- The new first colour. -/
  new : Nat
  deriving DecidableEq, Repr

/-- The course of an instance in a quench (R271). -/
inductive Course where
  | run | ckpt | disc
  deriving DecidableEq, Repr

/-- The course of one colour under an accepted quench (R272). -/
structure QCourse where
  /-- The colour. -/
  colour : BitVec 12
  /-- Its course. -/
  course : Course
  /-- Its fallback. -/
  fallback : Course
  /-- It has been vacated. -/
  vacated : Bool
  deriving DecidableEq, Repr

/-- STATE of QNSTAT (Table 11.9). -/
inductive QnState where
  | idle | accepted | infeasible | vacant
  deriving DecidableEq, Repr

/-- A partition (Tables 12.3, 10.4, 11.9, 6.7, 15.4). -/
structure Part where
  /-- PARTCLU. -/
  clu : W64
  /-- EN of PARTCTL. -/
  en : Bool
  /-- TBASE. -/
  tbase : BitVec 12
  /-- TLOG. -/
  tlog : BitVec 4
  /-- WT of PARTQOS. -/
  wt : BitVec 8
  /-- SLICE of SCHEDCTL. -/
  slice : BitVec 16
  /-- MIGEN. -/
  migen : Bool
  /-- MIGMAX. -/
  migmax : BitVec 8
  /-- WDLOG. -/
  wdlog : BitVec 5
  /-- SCHEDBASE. -/
  schedbase : W64
  /-- QNDL. -/
  qndl : W64
  /-- ALLOW of QNPOL. -/
  allow : BitVec 24
  /-- NDISC of QNSTAT. -/
  ndisc : BitVec 16
  /-- NCKPT. -/
  nckpt : BitVec 16
  /-- NRUN. -/
  nrun : BitVec 16
  /-- MERGED. -/
  merged : Bool
  /-- REJ. -/
  rej : Bool
  /-- REASON. -/
  reason : BitVec 4
  /-- STATE. -/
  state : QnState
  /-- QNDONE. -/
  qndone : W64
  /-- The courses in force. -/
  courses : List QCourse
  /-- Save bytes reserved by the accepted posting: B of R272. -/
  bytes : Nat
  /-- The rebase windows, newest first. -/
  windows : List Rebase
  /-- Trap records that wait in queues of PRIO 7: colour index and record number (R254, R255). -/
  trapRecs : List (Nat × BitVec 32)
  /-- clk at which the current slice began. -/
  sliceStart : Nat
  /-- WAYS of WSHARE on each die; 0 where not listed. -/
  ways : NMap (BitVec 32)
  /-- PIN of WSHARE on each die. -/
  pin : NMap (BitVec 32)
  /-- TOLSUB. -/
  tolsub : W64
  /-- HAMCNT. -/
  hamcnt : W64
  /-- PINOVF on each die. -/
  pinovf : NMap W64
  deriving DecidableEq, Repr

/-- A partition right after reset (Tables 12.3, 10.4, 11.9). -/
def Part.reset : Part :=
  { clu := 0, en := false, tbase := 0, tlog := 0, wt := 1, slice := 1000, migen := true, migmax := 16, wdlog := 18,
    schedbase := 0, qndl := 0, allow := 0xFFFFFF, ndisc := 0, nckpt := 0, nrun := 0, merged := false, rej := false,
    reason := 0, state := .idle, qndone := 0, courses := [], bytes := 0, windows := [], trapRecs := [], sliceStart := 0, ways := [],
    pin := [], tolsub := 0, hamcnt := 0, pinovf := [] }

/-- An entry of the address range table (Table 6.9). -/
structure Art where
  /-- EN. -/
  en : Bool
  /-- ERR. -/
  err : Bool
  /-- BASE, bits [51:8]. -/
  base : BitVec 44
  /-- LIM, bits [51:8]. -/
  lim : BitVec 44
  /-- SMASK. -/
  smask : BitVec 12
  /-- CHOFF. -/
  choff : BitVec 10
  /-- SHRA. -/
  shra : Bool
  /-- PART. -/
  part : BitVec 6
  /-- GRAN. -/
  gran : BitVec 5
  /-- CHM. -/
  chm : BitVec 32
  deriving DecidableEq, Repr

/-- An address range entry right after reset: all but ART0 are zero (Table 6.9). -/
def Art.reset (n : Nat) : Art :=
  if n = 0 then
    { en := true, err := false, base := 0, lim := 0xBFFFFFFF, smask := 0xFFF, choff := 0, shra := false, part := 0, gran := 12,
      chm := 0xFFFFFFFF }
  else
    { en := false, err := false, base := 0, lim := 0, smask := 0, choff := 0, shra := false, part := 0, gran := 0, chm := 0 }

/-- An exported window (Table 12.3). -/
structure Win where
  /-- EN. -/
  en : Bool
  /-- WBASE. -/
  base : BitVec 44
  /-- WLIM. -/
  lim : BitVec 44
  /-- PERM: [2] A, [1] W, [0] R. -/
  perm : BitVec 3
  /-- PART. -/
  part : BitVec 6
  deriving DecidableEq, Repr

/-- A window right after reset. -/
def Win.reset : Win := { en := false, base := 0, lim := 0, perm := 0, part := 0 }

/-- A CKPTALL in progress (R304). -/
structure Ckpt where
  /-- Its CMDID. -/
  cmd : BitVec 32
  /-- The partitions that it names. -/
  mask : W64
  /-- Its pool offset. -/
  pool : Nat
  /-- Number of this checkpoint. -/
  seq : Nat
  /-- The pieces of 64 bytes that have still to be copied: the physical address and the pool address of each run, with its
  length. -/
  runs : List (Nat × Nat × Nat)
  /-- The copies have been set up, every colour being saved. -/
  copying : Bool
  /-- Bytes of the manifest, once it is being written, with the pool address of what is left. -/
  manifest : Option (Nat × List Byte)
  deriving DecidableEq, Repr

/-- The physical function (Tables 12.2, 12.3, 15.2, 15.3). -/
structure Pf where
  /-- READY of PFSTAT. -/
  ready : Bool
  /-- ERR of PFSTAT. -/
  err : Bool
  /-- LOADDIAG (Table 13.11). -/
  loaddiag : W64
  /-- FWVER of PFID: version of the running firmware. -/
  fwver : BitVec 32
  /-- CLU of READY0. -/
  clu : W64
  /-- STK of READY1. -/
  stk : BitVec 12
  /-- DIE of READY1. -/
  die : BitVec 4
  /-- FAIL of READY1. -/
  fail : Bool
  /-- WKP of READY1. -/
  wkp : BitVec 36
  /-- MGMT of READY1. -/
  mgmt : Bool
  /-- SPDM of READY1. -/
  spdm : Bool
  /-- The stacks that have failed (R341). -/
  stkFailed : BitVec 12
  /-- Units that have failed their self-test or training, by the kinds of UNIT_READY (R339). -/
  unitFailed : List (Nat × Nat)
  /-- The dies have been released by the boot ROM (R339). -/
  released : Bool
  /-- WIN of PWRCTL. -/
  pwin : BitVec 16
  /-- CAP of PWRCTL. -/
  cap : BitVec 16
  /-- TEMP of PWRSTAT. -/
  temp : BitVec 16
  /-- AVGW of PWRSTAT. -/
  avgw : BitVec 16
  /-- DUTY of PWRSTAT. -/
  duty : BitVec 3
  /-- clk since which power and heat have been below their limits, or of the last lowering of DUTY (R344). -/
  dutyAt : Nat
  /-- The next number of a weave registration. The model's own. -/
  nextReg : Nat
  /-- A CKPTALL in progress (R304). -/
  ckpt : Option Ckpt
  /-- ART0 to ART15. -/
  arts : List Art
  /-- WIN0 to WIN15. -/
  wins : List Win
  /-- The PF's own queues (R280). -/
  q : Queues
  deriving DecidableEq, Repr

/-- The physical function right after reset (Tables 6.9, 12.3, 15.2, 15.3). -/
def Pf.reset : Pf :=
  { ready := false, err := false, loaddiag := 0, fwver := 0, clu := 0, stk := 0, die := 0, fail := false, wkp := 0,
    mgmt := false, spdm := false, stkFailed := 0, unitFailed := [], released := false, pwin := 10, cap := 2600, temp := 0, avgw := 0,
    duty := 0, dutyAt := 0, nextReg := 0, ckpt := none, arts := (List.range 16).map Art.reset, wins := (List.range 16).map (fun _ => Win.reset),
    q := Queues.reset }

/-! ## The host port, the wicker links and the management endpoint -/

/-- Who awaits a message from outside the package. -/
inductive Waiting where
  /-- A request, with the byte offset of the part asked for. -/
  | req (id off : Nat)
  /-- A copy command: colour, queue and command number, and whether it is the write of a piece. -/
  | copy (colour : BitVec 12) (queue : Nat) (num : BitVec 32) (write : Bool) (len : Nat)
  /-- The device itself, by the number of the unit: a colour for its engines, 4,096 and more for a VF, 8,192 for the PF (R523). -/
  | device (unit : Nat)
  deriving DecidableEq, Repr

/-- What a message to the host or a peer does. -/
inductive MsgKind where
  /-- Read of n bytes. -/
  | read (n : Nat)
  /-- Write of n bytes with a byte mask. -/
  | write (n : Nat) (mask : W64)
  /-- An atomic: the stake word's opcode, type, operation and width. -/
  | atomic (opc : BitVec 8) (ty : Ty) (aop : Nat) (n : Nat)
  deriving DecidableEq, Repr

/-- A request from the host or from a peer that has arrived and not performed (R186, R301). -/
structure Inbound where
  /-- Its number in the order of arrival. -/
  num : Nat
  /-- 0 the host port, p + 1 wicker port p. -/
  port : Nat
  /-- The requester: its requester ID, or SRCDEV. -/
  src : Nat
  /-- TAG of a wicker message. -/
  tag : Nat
  /-- Relaxed Ordering (R186). -/
  ro : Bool
  /-- What it does. -/
  kind : MsgKind
  /-- Its physical address, or the offset of a wicker message. -/
  addr : Nat
  /-- Its data. -/
  data : W512
  /-- The bytes of a read that have performed. -/
  got : List Byte
  deriving DecidableEq, Repr

/-- A request that the device has sent to the host or to a peer. -/
structure Outbound where
  /-- Its tag. -/
  tag : Nat
  /-- Its colour. -/
  colour : BitVec 12
  /-- Who awaits it. -/
  who : Waiting
  /-- What it does. -/
  kind : MsgKind
  /-- The address in the host window, or the offset and device of the peer. -/
  addr : Nat
  /-- The host page whose translation it uses (R279). -/
  page : Option Nat
  /-- Its data. -/
  data : W512
  /-- A cut has recorded it: its response is discarded, or kept in the store of R176. -/
  recorded : Bool
  /-- It counts in this epoch of ACKOUT (R175). -/
  epoch : Option Bool
  /-- It is a reissue (R176). -/
  reis : Bool
  /-- Its data are marked as poisoned (R380). -/
  poison : Bool
  /-- The IDE stream on which it carries the T bit, where its VF's TDI is in RUN (R298). -/
  stream : Option W64
  /-- Its response came behind the marker of a cut that may serve a save: the data, with the cause and reason where it refuses. It is
  discarded at the save, or delivered where the cut is not used for one (R83). -/
  late : Option (W512 × Option (BitVec 8 × BitVec 8))
  deriving DecidableEq, Repr

/-- A message that the device has sent to the host: a posted write, or the completion of a read (R278). -/
structure HostMsg where
  /-- The address that it names. -/
  addr : Nat
  /-- Its bytes. -/
  bs : List Byte
  /-- The IDE stream on which it carries the T bit (R298). -/
  stream : Option W64
  deriving DecidableEq, Repr

/-- An entry of the host port's store for reissues (R176). -/
structure StoreEnt where
  /-- The tag of the request that was sent. -/
  tag : Nat
  /-- Its colour. -/
  colour : BitVec 12
  /-- Address it went to. -/
  addr : Nat
  /-- It is an AtomicOp, not a write. -/
  atomic : Bool
  /-- The result, once the completion has arrived. -/
  result : Option W512
  /-- The cause and reason with which it was refused. -/
  fault : Option (BitVec 8 × BitVec 8)
  deriving DecidableEq, Repr

/-- An entry of the ATS translation cache (R279). -/
structure Ats where
  /-- The host page, bits [49:12]. -/
  page : Nat
  /-- The translated page. -/
  xlat : Nat
  /-- Read permission. -/
  r : Bool
  /-- Write permission. -/
  w : Bool
  deriving DecidableEq, Repr

/-- What a read of the device itself has brought: bytes, or the cause and reason with which it was refused (R279, R301, R523). -/
structure DevAns where
  /-- The bytes. -/
  bs : List Byte
  /-- Why it failed. -/
  bad : Option (BitVec 8 × BitVec 8)
  deriving DecidableEq, Repr

/-- The host port (R278, R279, R176). -/
structure HostPort where
  /-- The ATS translation cache. -/
  ats : List Ats
  /-- Pages whose Translation Request is outstanding, each with whether a write waits for it. -/
  atsAsked : List (Nat × Bool)
  /-- Pages whose PRI page request is outstanding. -/
  priAsked : List Nat
  /-- Pages whose page request has failed (HOSTPF). -/
  priFailed : List Nat
  /-- Requests outstanding. -/
  out : List Outbound
  /-- The store for reissues. -/
  store : List StoreEnt
  /-- The next tag. -/
  nextTag : Nat
  /-- AtomicOp Requester Enable (R190). -/
  atomEn : Bool
  /-- What the device's own reads have brought, by unit and 64-byte chunk (R523). -/
  devData : NMap DevAns
  /-- Posted writes and completions sent to the host, newest first. -/
  sent : List HostMsg
  /-- Requests of the host that completed with Unsupported Request, newest first, by their first argument (R278, R298). -/
  ur : List W64
  /-- Invalidations that wait for accesses translated through an old entry: base, log2 of the length, and the tags of those accesses
  (R278, R279). -/
  invq : List (Nat × Nat × List Nat)
  /-- Invalidations completed, newest first: base and log2 of the length. -/
  invdone : List (Nat × Nat)
  /-- MSI-X messages sent, newest first: function and vector. -/
  msix : List (Nat × Nat)
  deriving DecidableEq, Repr

/-- The host port right after reset. -/
def HostPort.reset : HostPort :=
  { ats := [], atsAsked := [], priAsked := [], priFailed := [], out := [], store := [], nextTag := 0, atomEn := false,
    devData := [], sent := [], ur := [], invq := [], invdone := [], msix := [] }

/-- A message that a wicker port has sent (Table 12.8): its header slot and its data slots. -/
structure WMsg where
  /-- TYPE: 0 RDQ, 1 RDR, 2 WRQ, 3 WRA, 4 ATQ, 5 ATR, 6 REL. -/
  ty : BitVec 3
  /-- SRCDEV: the device whose request it is. -/
  src : Nat
  /-- DSTDEV: the target of the request; none for the pod's pooled memory (R301). -/
  dst : Option Nat
  /-- TAG. -/
  tag : Nat
  /-- REIS. -/
  reis : Bool
  /-- The offset. -/
  off : Nat
  /-- SIZE: bytes. -/
  size : Nat
  /-- The opcode, TY and AOP of an ATQ. -/
  op : Option (BitVec 8 × Ty × Nat)
  /-- The byte mask of a WRQ. -/
  mask : W64
  /-- STATUS. -/
  status : BitVec 2
  /-- Its data slots. -/
  data : W512
  deriving DecidableEq, Repr

/-- A wicker flit as sent: its link header and the message that it carries (R302). -/
structure WFlit where
  /-- The sequence number. -/
  seq : BitVec 12
  /-- Its credits let the other end send writes and atomics: the completion cache has room (R303). -/
  credit : Bool
  /-- The message. -/
  msg : WMsg
  deriving DecidableEq, Repr

/-- An entry of a completion cache (R303). -/
structure Done where
  /-- SRCDEV. -/
  dev : Nat
  /-- TAG. -/
  tag : Nat
  /-- Status. -/
  status : BitVec 2
  /-- Result. -/
  data : W512
  deriving DecidableEq, Repr

/-- A wicker link port (R302, R303, R349). -/
structure WPort where
  /-- Sequence number of the next flit (R302). -/
  seq : BitVec 12
  /-- Flits kept for replay, newest first: at most 64. -/
  kept : List WFlit
  /-- The completion cache. -/
  cache : List Done
  /-- Messages sent, newest first. -/
  sent : List WMsg
  /-- CRC failures. -/
  crc : W64
  /-- Flits replayed. -/
  replayed : W64
  /-- Link-down events. -/
  downs : W64
  deriving DecidableEq, Repr

/-- A port right after reset. -/
def WPort.reset : WPort := { seq := 0, kept := [], cache := [], sent := [], crc := 0, replayed := 0, downs := 0 }

/-- The wicker interface as a source (R301, R303). -/
structure Wicker where
  /-- The ports that have been used. -/
  ports : NMap WPort
  /-- Requests outstanding. -/
  out : List Outbound
  /-- The next TAG. -/
  nextTag : Nat
  deriving DecidableEq, Repr

/-- A firmware slot (R347). -/
structure FwSlot where
  /-- It holds an image. -/
  full : Bool
  /-- The image, as a number. -/
  image : Nat
  /-- Its version. -/
  ver : BitVec 32
  /-- Its security version. -/
  sec : Nat
  /-- The fuse position of its key. -/
  key : Nat
  deriving DecidableEq, Repr

/-- The management endpoint, the boot ROM and the fuses (R345 to R348). -/
structure Mgmt where
  /-- Slot A. -/
  slotA : FwSlot
  /-- Slot B. -/
  slotB : FwSlot
  /-- The slot chosen for the next boot: true for B. -/
  nextB : Bool
  /-- The running slot: true for B. -/
  runB : Bool
  /-- A slot has passed and the firmware runs. -/
  running : Bool
  /-- Revocation fuses of the four image keys. -/
  revoked : BitVec 4
  /-- Fused minimum security version. -/
  minSec : Nat
  /-- The private key of this boot's identity key pair, once it has been derived (R348). -/
  identity : Option Nat
  /-- Replies of the endpoint, newest first: kind and bytes. -/
  replies : List (BitVec 8 × List Byte)
  deriving DecidableEq, Repr

/-- An empty firmware slot. -/
def FwSlot.empty : FwSlot := { full := false, image := 0, ver := 0, sec := 0, key := 0 }

/-- The management state right after reset: the spec gives no content of the slots (log entry 3). -/
def Mgmt.reset : Mgmt :=
  { slotA := FwSlot.empty, slotB := FwSlot.empty, nextB := false, runB := false, running := false, revoked := 0, minSec := 0,
    identity := none, replies := [] }

/-! ## Saved contexts, the schedule and the whole state -/

/-- A KDONE decrement on its way (R417, R420). -/
structure KDec where
  /-- The KGATE's stake. -/
  gate : BitVec 16
  /-- The KDONE's stake. -/
  lstake : BitVec 16
  /-- The token that fired the KDONE. -/
  tok : Token
  deriving DecidableEq, Repr

/-- The part of a saved colour whose byte layout the spec does not fix (log entry 9): it is kept beside the bytes that the
spec does fix. -/
structure Saved where
  /-- The VF. -/
  vf : Nat
  /-- Index of its directory entry, when it lies in the VF's context area. -/
  entry : Option Nat
  /-- COLIDX. -/
  colidx : Nat
  /-- The colour. -/
  col : Colour
  /-- Its logical tiles. -/
  tiles : NMap Tile
  /-- Its requests. -/
  reqs : NMap Request
  /-- Its channels. -/
  net : List Chan
  /-- Its ticket slots. -/
  tickets : List Ticket
  /-- Its messages off the package that have not been answered (R83, R176). -/
  outs : List Outbound
  /-- Why it was saved: the scheduler resumes on its own what a slice, a pause or a CKPTALL has saved. -/
  why : CutWhy
  /-- Its serial number, which its context holds. The model's own. -/
  sid : Nat
  deriving DecidableEq, Repr

/-- One item of the schedule: which unit moves next (log entry 1). -/
inductive StepItem where
  /-- Fire the stake in a slot of the active bank of a tile. -/
  | fire (ptile slot : Nat)
  /-- A device step, at a unit where its word names none. -/
  | event (place : Nat) (w : StepWord)
  /-- Time passes: clk. -/
  | wait (n : Nat)
  deriving DecidableEq, Repr

/-- Where the step runs. -/
structure Cursor where
  /-- Tile of the firing, or the unit of a device step. -/
  place : Nat
  /-- Slot of the firing. -/
  slot : Nat
  deriving DecidableEq, Repr

/-- The state of the Tvedver. -/
structure State where
  /-- The schedule: what moves next (log entry 1). The model's own. -/
  agenda : List StepItem
  /-- Where the current step runs. The model's own. -/
  cur : Cursor
  /-- clk since reset (R19, R231). -/
  clk : Nat
  /-- Counter of the free values drawn (log entry 2). The model's own. -/
  free : Nat
  /-- The physical function. -/
  pf : Pf
  /-- The virtual functions; one not listed is as after reset. -/
  vfs : NMap Vf
  /-- The partitions; one not listed is as after reset. -/
  parts : NMap Part
  /-- The colours that are bound. -/
  cols : NMap Colour
  /-- PURGED of colours, kept when they are unbound (Table 15.4). -/
  purged : NMap W64
  /-- The tiles; one not listed is as after reset. -/
  tiles : NMap Tile
  /-- The clusters; one not listed is as after reset. -/
  clus : NMap Cluster
  /-- The dies; one not listed is as after reset. -/
  dies : NMap Die
  /-- The router stages of the channels that hold tokens or are extended. -/
  net : List Chan
  /-- The requests between a firing and their result. -/
  reqs : NMap Request
  /-- The next number of a request and of an acceptance. -/
  nextReq : Nat
  /-- KDONE decrements on their way. -/
  kdecs : List KDec
  /-- Returned tokens on their way to their source tiles (R242). -/
  strays : List Token
  /-- HBM4: the bytes that are not zero, by DRAM address (R21, R161, log entry 4). -/
  mem : List Host.Cell
  /-- The 32-byte HBM4 granules that hold an uncorrectable error or a poison code, rising (R163, R164). -/
  poison : List Nat
  /-- The 2 MiB granules whose scrub bit is clear, rising (R294). -/
  scrubbed : List Nat
  /-- The host port. -/
  host : HostPort
  /-- The wicker links. -/
  wick : Wicker
  /-- The requests from outside that have arrived and not performed, oldest first (R186). -/
  inq : List Inbound
  /-- The number of the next request from outside. -/
  nextIn : Nat
  /-- The management endpoint. -/
  mgmt : Mgmt
  /-- Saved contexts, by serial number, which the bytes of each context hold. -/
  saved : NMap Saved
  /-- The serial number of the next saved context. The model's own. -/
  nextSave : Nat
  /-- Messages that cuts have recorded and that a resume has still to send again: they wait for room in ACKOUT (R175, R176). -/
  reis : List Outbound
  deriving DecidableEq, Repr

/-- The machine right after reset: every register at the value its table gives, HBM4 with every scrub bit set and so
reading zero (R342), nothing loaded, nothing scheduled (log entries 1 and 3). -/
def State.reset : State :=
  { agenda := [], cur := { place := 0, slot := 0 }, clk := 0, free := 0, pf := Pf.reset, vfs := [], parts := [], cols := [],
    purged := [], tiles := [], clus := [], dies := [], net := [], reqs := [], nextReq := 0, kdecs := [], strays := [],
    mem := [], poison := [], scrubbed := [], host := HostPort.reset, wick := { ports := [], out := [], nextTag := 0 },
    inq := [], nextIn := 0, mgmt := Mgmt.reset, saved := [], nextSave := 0, reis := [] }

end Sys2Proof.Machine
end

