-- ==== Sys2Proof/Machine/Bits.lean ====
section
/-! DEFINITION. Lanes, bytes, the CHK of a token and the plait generator (R6, R68, R105). -/

namespace Sys2Proof.Machine

/-- Lane `i` of `w` bits (R6), as a number. -/
def lane (v : W512) (w i : Nat) : Nat := (v.toNat >>> (w * i)) % 2 ^ w

/-- Lane 0 of a token taken as N64. -/
def scalar (v : W512) : W64 := v.setWidth 64

/-- Lane `i` of a token taken as N64. -/
def n64 (v : W512) (i : Nat) : W64 := v.extractLsb' (64 * i) 64

/-- The number whose lanes of `w` bits are the list's, lane 0 first. -/
def lanesNat (w : Nat) : List Nat → Nat
  | [] => 0
  | x :: xs => x % 2 ^ w + 2 ^ w * lanesNat w xs

/-- A 512-bit value from its lanes, lane 0 first, with zeros above (R61). -/
def ofLanes (w : Nat) (xs : List Nat) : W512 := BitVec.ofNat 512 (lanesNat w xs)

/-- A 512-bit value with one lane replaced. -/
def setLane (v : W512) (w i x : Nat) : W512 :=
  ofLanes w ((List.range (512 / w)).map (fun k => if k = i then x else lane v w k))

/-- A number of `w` bits read as two's complement. -/
def toSigned (w x : Nat) : Int := if x < 2 ^ (w - 1) then (x : Int) else (x : Int) - (2 ^ w : Nat)

/-- An integer narrowed to `w` bits, modulo 2^w (R89). -/
def wrapInt (w : Nat) (x : Int) : Nat := (x % (2 ^ w : Nat)).toNat

/-- A lane read as its type reads it: two's complement for an I type, unsigned otherwise (R89). -/
def laneInt (ty : Ty) (x : Nat) : Int := if ty.isSigned then toSigned ty.width x else (x : Int)

/-- The bits of a number of `w` bits, bit 0 first. -/
def bitsOf (w x : Nat) : List Bool := (List.range w).map (fun i => x.testBit i)

/-- One bit into the CRC register of R68, the register a number below 2^16. -/
def crcBit (r b : Nat) : Nat :=
  let s := r * 2 % 65536
  if r / 32768 = b then s else s ^^^ 0x1021

/-- The CRC register after the low `n` bits of a number, the highest taken first (R68). The match on the register makes each step a
numeral before the next one begins. -/
def crcBits : Nat → Nat → Nat → Nat
  | 0, _, r => r
  | n + 1, x, 0 => crcBits n x (crcBit 0 (x / 2 ^ n % 2))
  | n + 1, x, m + 1 => crcBits n x (crcBit (m + 1) (x / 2 ^ n % 2))

/-- CHK of a token: over DATA, then FMT, then TAG, the highest bit of each first (R68). -/
def crc16 (data : W512) (fmt : BitVec 3) (colour frame : BitVec 12) (wave : BitVec 24) : BitVec 16 :=
  match (data ++ fmt ++ colour ++ frame ++ wave : BitVec 563).toNat with
  | 0 => BitVec.ofNat 16 (crcBits 563 0 0xFFFF)
  | m + 1 => BitVec.ofNat 16 (crcBits 563 (m + 1) 0xFFFF)

/-- One round of the plait generator (R105). -/
def plaitRound (k0 k1 : BitVec 32) (st : BitVec 32 × BitVec 32) (i : Nat) : BitVec 32 × BitVec 32 :=
  let a := st.1.rotateLeft 7 + st.2 + k0 + BitVec.ofNat 32 i
  let b := st.2.rotateLeft 13 ^^^ a ^^^ k1
  (a, b)

/-- The plait generator (R105). -/
def plait (key : W64) (stream seq row col : Nat) : BitVec 32 :=
  let a : BitVec 32 := BitVec.ofNat 32 (row % 2 ^ 16 + (col % 2 ^ 16) * 2 ^ 16)
  let b : BitVec 32 := BitVec.ofNat 32 (seq % 2 ^ 24 + (stream % 2 ^ 8) * 2 ^ 24)
  let r := (List.range 4).foldl (plaitRound (key.extractLsb' 0 32) (key.extractLsb' 32 32)) (a, b)
  r.1 + r.2

/-- The number of bits set. -/
def popCount (w x : Nat) : Nat := ((bitsOf w x).filter id).length

/-- The numbers of the bits set, rising. -/
def bitList (w x : Nat) : List Nat := (List.range w).filter (fun i => x.testBit i)

/-- log2 of a number that is not zero, rounded down. -/
def ilog2 (n : Nat) : Nat := Nat.log2 n

/-- The larger of an integer and zero, as a number. -/
def nonneg (x : Int) : Nat := x.toNat

/-- Bytes of a 512-bit value, byte 0 first (R6). -/
def dataBytes (v : W512) (n : Nat) : List Byte := natBytes n v.toNat

/-- A 512-bit value from bytes, zeros above (R422). -/
def bytesData (bs : List Byte) : W512 := BitVec.ofNat 512 (leNat bs)

/-- A field of a 512-bit record. -/
def fld (v : W512) (lo n : Nat) : Nat := (v.toNat >>> lo) % 2 ^ n

/-- A 512-bit record with one field replaced. -/
def setFld (v : W512) (lo n x : Nat) : W512 :=
  BitVec.ofNat 512 (v.toNat - (fld v lo n) <<< lo + (x % 2 ^ n) <<< lo)

/-- A saturating counter of 64 bits (R349). -/
def countUp (c : W64) (n : Nat) : W64 := BitVec.ofNat 64 (min (c.toNat + n) (2 ^ 64 - 1))

end Sys2Proof.Machine
end

