-- ==== Sys2Proof/Machine/Flags.lean ====
section
/-! DEFINITION. FPCTL, its flags and rounding modes (R96 to R100, R110). -/

namespace Sys2Proof.Machine

/-- The five sticky flags in the order of FPCTL [4:0]: NX, UF, OF, DZ, NV. -/
abbrev Flags := BitVec 5

/-- NV: invalid operation. -/
def flagNV : Flags := 1
/-- DZ: division by zero. -/
def flagDZ : Flags := 2
/-- OF: overflow. -/
def flagOF : Flags := 4
/-- UF: underflow. -/
def flagUF : Flags := 8
/-- NX: inexact. -/
def flagNX : Flags := 16

/-- A rounding mode (R98). -/
inductive Rm where
  | rne | rtz | rup | rdn | rsr
  deriving DecidableEq, Repr

/-- The mode of a code of FPCTL RM or of MOD[2:0] (R98); codes that are reserved or DYN give RNE. -/
def Rm.ofCode (n : Nat) : Rm :=
  match n with
  | 2 => .rtz | 3 => .rup | 4 => .rdn | 5 => .rsr
  | _ => .rne

/-- What a firing takes from FPCTL (R110). -/
structure FpEnv where
  /-- The rounding mode in force. -/
  rm : Rm
  /-- DN. -/
  dn : Bool
  /-- FZ. -/
  fz : Bool
  /-- FZN. -/
  fzn : Bool
  deriving DecidableEq, Repr

/-- RM of FPCTL. -/
def fpRm (v : W64) : Nat := (v.extractLsb' 8 3).toNat

/-- FPCTL holds a legal RM (R97). -/
def fpctlOk (v : W64) : Bool := 1 ≤ fpRm v && fpRm v ≤ 5

/-- FPCTL with its reserved bits zero (R9, Table 4.5). -/
def fpctlMask (v : W64) : W64 := v &&& 0x7FF

/-- SPILLBASE without its reserved bits (Table 3.5, R9). -/
def spillbaseMask (v : W64) : W64 := v &&& ~~~0xFC0

/-- What a firing samples: MOD[2:0] of 0 takes RM from FPCTL; a DYN firing that finds RSR and is no narrowing conversion
rounds under RNE (R98, R110). -/
def fpEnv (fpctl : W64) (mode : Nat) (narrowing : Bool) : FpEnv :=
  let code := if mode = 0 then (if fpRm fpctl = 5 && !narrowing then 1 else fpRm fpctl) else mode
  { rm := Rm.ofCode code, dn := fpctl.getLsbD 7, fz := fpctl.getLsbD 5, fzn := fpctl.getLsbD 6 }

/-- The environment of a unit that has no FPCTL: RNE, no flush, the canonical NaN (R194). -/
def FpEnv.memory : FpEnv := { rm := .rne, dn := true, fz := false, fzn := false }

/-- FPCTL with flags set: the device sets flags and never clears them (R97, R113). -/
def setFlags (fpctl : W64) (f : Flags) : W64 := fpctl ||| f.setWidth 64

end Sys2Proof.Machine
end

