-- ==== Sys2Proof/Machine/Maps.lean ====
section
/-! DEFINITION. Tables from numbers to data, and rising lists of numbers. -/

namespace Sys2Proof.Machine

/-- The entry of a table. -/
def mapGet? {α : Type} : NMap α → Nat → Option α
  | [], _ => none
  | (k, v) :: m, n => if n = k then some v else mapGet? m n

/-- The entry of a table, or a default where it lists none. -/
def mapGet {α : Type} (m : NMap α) (n : Nat) (d : α) : α := (mapGet? m n).getD d

/-- A table with one entry set, in its place. -/
def mapPut {α : Type} : NMap α → Nat → α → NMap α
  | [], n, v => [(n, v)]
  | (k, w) :: m, n, v =>
    if n < k then (n, v) :: (k, w) :: m else if n = k then (n, v) :: m else (k, w) :: mapPut m n v

/-- A table without one entry. -/
def mapDel {α : Type} : NMap α → Nat → NMap α
  | [], _ => []
  | (k, w) :: m, n => if n = k then m else (k, w) :: mapDel m n

/-- A table with one listed entry changed; nothing changes where it lists none. -/
def mapUpd {α : Type} (m : NMap α) (n : Nat) (f : α → α) : NMap α :=
  match mapGet? m n with
  | some v => mapPut m n (f v)
  | none => m

/-- The numbers that a table lists. -/
def mapKeys {α : Type} (m : NMap α) : List Nat := m.map Prod.fst

/-- The data that a table lists. -/
def mapVals {α : Type} (m : NMap α) : List α := m.map Prod.snd

/-- A rising list with one number put in. -/
def setIns : List Nat → Nat → List Nat
  | [], n => [n]
  | k :: m, n => if n < k then n :: k :: m else if n = k then k :: m else k :: setIns m n

/-- A rising list with one number taken out. -/
def setDel (l : List Nat) (n : Nat) : List Nat := l.filter (· != n)

/-- The numbers `a`, `a + 1`, … `a + n − 1`. -/
def rangeFrom (a n : Nat) : List Nat := (List.range n).map (a + ·)

/-- The first element that a test accepts taken out of a list, with the rest in order. -/
def takeFirst {α : Type} (p : α → Bool) : List α → Option (α × List α)
  | [] => none
  | x :: xs => if p x then some (x, xs) else (takeFirst p xs).map (fun r => (r.1, x :: r.2))

/-- A list with the first element that a test accepts changed. -/
def updFirst {α : Type} (p : α → Bool) (f : α → α) : List α → List α
  | [] => []
  | x :: xs => if p x then f x :: xs else x :: updFirst p f xs

end Sys2Proof.Machine
end

