-- ==== Sys2Proof/Machine/Mem.lean ====
section
/-! DEFINITION. HBM4: the list of its bytes, the address range table, the scrub bitmap and poison (R141, R160 to R164,
R294). -/

namespace Sys2Proof.Machine

/-- The byte of HBM4 that an unlisted address reads as: cold reset sets every scrub bit, so it is zero (R294, R342). -/
def memDefault : Byte := 0

/-- One byte of a memory list. -/
def memGet : List Host.Cell → Nat → Byte
  | [], _ => memDefault
  | (k, v) :: m, a => if a = k then v else if a < k then memDefault else memGet m a

/-- Write one byte, keeping the canonical form: addresses strictly rising, no entry equal to what an unlisted address reads
as. -/
def memPut : List Host.Cell → Nat → Byte → List Host.Cell
  | [], a, b => if b = memDefault then [] else [(a, b)]
  | (k, v) :: m, a, b =>
    if a < k then (if b = memDefault then (k, v) :: m else (a, b) :: (k, v) :: m)
    else if a = k then (if b = memDefault then m else (a, b) :: m)
    else (k, v) :: memPut m a b

/-- The canonical form of a memory list, from a least address. -/
def memWfFrom : Nat → List Host.Cell → Bool
  | _, [] => true
  | lo, (k, v) :: m => decide (lo ≤ k) && v != memDefault && memWfFrom (k + 1) m

/-- The canonical form: addresses strictly rising and no entry that reads as an unlisted address does. -/
def Memory.wf (m : List Host.Cell) : Bool := memWfFrom 0 m

/-- Clear the bytes in a range. -/
def memClear (m : List Host.Cell) (lo n : Nat) : List Host.Cell :=
  m.filter (fun c => c.1 < lo || lo + n ≤ c.1)

/-! ## Physical addresses -/

/-- The address lies in HBM4 (Table 6.1). -/
def isHbm (pa : Nat) : Bool := pa < 0xC000000000

/-- The address lies in the host window. -/
def isHost (pa : Nat) : Bool := 0x8000000000000 ≤ pa && pa < 0xC000000000000

/-- The address lies in a peer window. -/
def isPeer (pa : Nat) : Bool := 0xC000000000000 ≤ pa && pa < 0xF000000000000

/-- The address lies off the package. -/
def isRemote (pa : Nat) : Bool := isHost pa || isPeer pa

/-- The address lies in the scratch window. -/
def isScratch (pa : Nat) : Bool := 0xF000000000000 ≤ pa && pa < 0xF000010000000

/-- The address lies in a reserved range, or names a peer device above 191 (R141, R301). -/
def isReserved (pa : Nat) : Bool :=
  !(isHbm pa || isHost pa || isPeer pa || isScratch pa) ||
  (0xC000000000000 ≤ pa && pa < 0xD000000000000 && 191 < pa / 2 ^ 40 % 256)

/-- The i-th set bit of a mask of `w` bits, counting from bit 0. -/
def nthBit (w x i : Nat) : Nat := (bitList w x).getD i 0

/-- First byte of an ART entry's range. -/
def Art.lo (a : Art) : Nat := a.base.toNat * 256

/-- Last byte of an ART entry's range. -/
def Art.hi (a : Art) : Nat := a.lim.toNat * 256 + 255

/-- The ART entry that places an address: the lowest-numbered enabled entry whose range holds it (R161). -/
def artFor (arts : List Art) (pa : Nat) : Option Art :=
  arts.find? (fun a => a.en && a.lo ≤ pa && pa ≤ a.hi)

/-- Number of channels of a range: T of R161. -/
def Art.chans (a : Art) : Nat := popCount 12 a.smask.toNat * popCount 32 a.chm.toNat

/-- Where an address lies in HBM4: 2^31·(32·stack + channel) + chOffset (R161, log entry 4). -/
def Art.place (a : Art) (pa : Nat) : Nat :=
  let n := popCount 12 a.smask.toNat
  let off := pa - a.lo
  let g := off / 2 ^ a.gran.toNat
  let i := g % a.chans
  let stack := nthBit 12 a.smask.toNat (i % n)
  let chan := nthBit 32 a.chm.toNat (i / n)
  2 ^ 31 * (32 * stack + chan) + a.choff.toNat * 2 ^ 21 + g / a.chans * 2 ^ a.gran.toNat + off % 2 ^ a.gran.toNat

/-- The stack of a DRAM address. -/
def stackOf (da : Nat) : Nat := da / 2 ^ 36

/-- The die to which a stack attaches (R17). -/
def dieOfStack (st : Nat) : Nat := st / 3

/-- What an access to a physical address in HBM4 meets (R162, R341). -/
inductive Place where
  /-- The byte's DRAM address. -/
  | at (da : Nat)
  /-- No enabled entry covers it. -/
  | miss
  /-- Its stack has failed: the die that counts it. -/
  | failed (die : Nat)
  /-- Its stack is not ready yet. -/
  | notReady
  deriving DecidableEq, Repr

/-- Where a physical address in HBM4 lies. -/
def placeOf (s : State) (pa : Nat) : Place :=
  match artFor s.pf.arts pa with
  | none => .miss
  | some a =>
    let da := a.place pa
    if s.pf.stkFailed.getLsbD (stackOf da) then .failed (dieOfStack (stackOf da))
    else if s.pf.stk.getLsbD (stackOf da) then .at da else .notReady

/-- The die whose directory is the home of a physical address (R18); die 0 where no entry covers it. -/
def homeDie (s : State) (pa : Nat) : Nat :=
  match artFor s.pf.arts pa with
  | none => 0
  | some a => dieOfStack (stackOf (a.place pa))

/-- The partition that owns a physical address, and whether it is open to SHR pages of others (R154). -/
def ownerPart (s : State) (pa : Nat) : Option (Nat × Bool) :=
  (artFor s.pf.arts pa).map (fun a => (a.part.toNat, a.shra))

/-! ## HBM4 bytes -/

/-- The 2 MiB granule of a DRAM address (R294). -/
def scrubGranuleOf (da : Nat) : Nat := da / 2 ^ 21

/-- One byte at a DRAM address: a granule whose scrub bit is set reads zero (R294). -/
def dramGet (s : State) (da : Nat) : Byte :=
  if s.scrubbed.contains (scrubGranuleOf da) then memGet s.mem da else memDefault

/-- Zero one granule and clear its scrub bit (R294). -/
def scrubOne (s : State) (g : Nat) : State :=
  if s.scrubbed.contains g then s
  else { s with mem := memClear s.mem (g * 2 ^ 21) (2 ^ 21), scrubbed := setIns s.scrubbed g,
                poison := s.poison.filter (fun p => p / 2 ^ 16 != g) }

/-- Write one byte at a DRAM address: a granule still to be scrubbed is zeroed first (R294). -/
def dramPut (s : State) (da : Nat) (b : Byte) : State :=
  let s' := scrubOne s (scrubGranuleOf da)
  { s' with mem := memPut s'.mem da b }

/-- One byte of HBM4 at a physical address; an address that nothing places reads as memory that nothing has written. -/
def hbmGet (s : State) (pa : Nat) : Byte :=
  match placeOf s pa with
  | .at da => dramGet s da
  | _ => memDefault

/-- The 32-byte granule at a physical address holds an error (R163). -/
def hbmBad (s : State) (pa : Nat) : Bool :=
  match placeOf s pa with
  | .at da => s.poison.contains (da / 32) && s.scrubbed.contains (scrubGranuleOf da)
  | _ => false

/-- Write one byte of HBM4 at a physical address; an address that nothing places keeps nothing. -/
def hbmPut (s : State) (pa : Nat) (b : Byte) : State :=
  match placeOf s pa with
  | .at da => dramPut s da b
  | _ => s

/-- Bytes of HBM4 at a physical address. -/
def hbmRead (s : State) (pa n : Nat) : List Byte := (rangeFrom pa n).map (hbmGet s)

/-- Write bytes of HBM4. -/
def hbmWrite (s : State) : Nat → List Byte → State
  | _, [] => s
  | pa, b :: bs => hbmWrite (hbmPut s pa b) (pa + 1) bs

/-- Set or clear the error of the granule at a physical address (R164). -/
def hbmSetBad (s : State) (pa : Nat) (bad : Bool) : State :=
  match placeOf s pa with
  | .at da => { s with poison := if bad then setIns s.poison (da / 32) else setDel s.poison (da / 32) }
  | _ => s

/-- Set the scrub bits of a DRAM range's granules (R294). -/
def scrubSet (s : State) (gs : List Nat) : State :=
  { s with scrubbed := s.scrubbed.filter (fun g => !gs.contains g) }

/-- The granules of a range: every granule of its channels that it covers (R161, R294). -/
def Art.granules (a : Art) : List Nat :=
  let per := (a.hi + 1 - a.lo) / (if a.chans = 0 then 1 else a.chans)
  let k := (per + 2 ^ 21 - 1) / 2 ^ 21
  (bitList 12 a.smask.toNat).flatMap (fun st => (bitList 32 a.chm.toNat).flatMap (fun ch =>
    rangeFrom ((32 * st + ch) * 1024 + a.choff.toNat) k))

/-- LEFT of SCRUBST: the granules of a die not yet scrubbed (R294). -/
def scrubLeft (s : State) (d : Nat) : Nat := 98304 - (s.scrubbed.filter (fun g => g / 98304 == d)).length

end Sys2Proof.Machine
end

