-- ==== Sys2Proof/Machine/Access.lean ====
section
/-! DEFINITION. Reading and writing the parts of the state: tiles, banks, stakes, clusters, dies, functions, partitions and
colours. -/

namespace Sys2Proof.Machine

/-! ## Units -/

/-- A tile; one not listed is as after reset. -/
def State.tile (s : State) (t : Nat) : Tile := mapGet s.tiles t Tile.reset

/-- Replace a tile. -/
def State.setTile (s : State) (t : Nat) (x : Tile) : State := { s with tiles := mapPut s.tiles t x }

/-- Change a tile. -/
def State.updTile (s : State) (t : Nat) (f : Tile → Tile) : State := s.setTile t (f (s.tile t))

/-- A cluster. -/
def State.clu (s : State) (c : Nat) : Cluster := mapGet s.clus c Cluster.reset

/-- Change a cluster. -/
def State.updClu (s : State) (c : Nat) (f : Cluster → Cluster) : State :=
  { s with clus := mapPut s.clus c (f (s.clu c)) }

/-- A die. -/
def State.die (s : State) (d : Nat) : Die := mapGet s.dies d Die.reset

/-- Change a die. -/
def State.updDie (s : State) (d : Nat) (f : Die → Die) : State := { s with dies := mapPut s.dies d (f (s.die d)) }

/-- A virtual function. -/
def State.vf (s : State) (v : Nat) : Vf := mapGet s.vfs v Vf.reset

/-- Change a virtual function. -/
def State.updVf (s : State) (v : Nat) (f : Vf → Vf) : State := { s with vfs := mapPut s.vfs v (f (s.vf v)) }

/-- A partition. -/
def State.part (s : State) (p : Nat) : Part := mapGet s.parts p Part.reset

/-- Change a partition. -/
def State.updPart (s : State) (p : Nat) (f : Part → Part) : State := { s with parts := mapPut s.parts p (f (s.part p)) }

/-- Change the physical function. -/
def State.updPf (s : State) (f : Pf → Pf) : State := { s with pf := f s.pf }

/-- Set ERR of PFSTAT: a register write was refused (Table 12.3). -/
def State.pfErr (s : State) : State := s.updPf (fun p => { p with err := true })

/-- A bound colour. -/
def State.col? (s : State) (c : Nat) : Option Colour := mapGet? s.cols c

/-- Change a bound colour. -/
def State.updCol (s : State) (c : Nat) (f : Colour → Colour) : State := { s with cols := mapUpd s.cols c f }

/-- A request. -/
def State.req? (s : State) (r : Nat) : Option Request := mapGet? s.reqs r

/-- Change a request. -/
def State.updReq (s : State) (r : Nat) (f : Request → Request) : State := { s with reqs := mapUpd s.reqs r f }

/-- Remove a request: its entry becomes free. -/
def State.delReq (s : State) (r : Nat) : State := { s with reqs := mapDel s.reqs r }

/-- Draw one free bit (log entry 2). -/
def State.drawBit (s : State) : Bool × State := (Config.freeBit s.free, { s with free := s.free + 1 })

/-- Draw one free word (log entry 2). -/
def State.drawWord (s : State) : W64 × State := (Config.freeWord s.free, { s with free := s.free + 1 })

/-- TIMEBASE: 1 GHz against a clk of 1.5 GHz (R19). -/
def timebase (clk : Nat) : Nat := clk * 2 / 3

/-- TIMEBASE now. -/
def State.time (s : State) : W64 := BitVec.ofNat 64 (timebase s.clk)

/-- Clk in a number of microseconds (R19). -/
def usClk (us : Nat) : Nat := 1500 * us

/-! ## Numbering (R17) -/

/-- The cluster of a tile. -/
def cluOfTile (t : Nat) : Nat := t / 32

/-- The die of a cluster. -/
def dieOfClu (c : Nat) : Nat := c / 16

/-- Routers between two tiles of one cluster, dimension-ordered: one in the same tile (R73). -/
def hopsIn (a b : Nat) : Nat :=
  let d (x y : Nat) := (x - y) + (y - x)
  1 + d (a % 32 / 8) (b % 32 / 8) + d (a % 8) (b % 8)

/-- Routers of a channel between two tiles (R73). -/
def routers (a b : Nat) : Nat := if cluOfTile a = cluOfTile b then hopsIn a b else 2 + Config.extraHops a b

/-- The partition that holds a cluster: the lowest-numbered enabled one. -/
def partOfClu (s : State) (c : Nat) : Option Nat :=
  (s.parts.find? (fun p => p.2.en && p.2.clu.getLsbD c)).map Prod.fst

/-- The clusters of a partition, rising. -/
def Part.clusters (p : Part) : List Nat := bitList 64 p.clu.toNat

/-- Size of a partition's tag block. -/
def Part.block (p : Part) : Nat := 2 ^ p.tlog.toNat

/-- A colour lies in a partition's tag block (R29). -/
def Part.hasColour (p : Part) (c : Nat) : Bool := p.tbase.toNat ≤ c && c < p.tbase.toNat + p.block

/-- Index of a colour in its tag block. -/
def Part.idx (p : Part) (c : Nat) : Nat := c - p.tbase.toNat

/-- Colour index of a bound colour. -/
def colidx (s : State) (c : Nat) : Nat :=
  match s.col? c with
  | some k => (s.part k.part).idx c
  | none => 0

/-! ## Banks and stakes -/

/-- The active bank of a tile (R86). -/
def Tile.active (t : Tile) : Bank := if t.sel then t.bank1 else t.bank0

/-- The shadow bank. -/
def Tile.shadow (t : Tile) : Bank := if t.sel then t.bank0 else t.bank1

/-- Replace the active bank. -/
def Tile.setActive (t : Tile) (b : Bank) : Tile := if t.sel then { t with bank1 := b } else { t with bank0 := b }

/-- Replace the shadow bank. -/
def Tile.setShadow (t : Tile) (b : Bank) : Tile := if t.sel then { t with bank0 := b } else { t with bank1 := b }

/-- The bank of a tile that holds a colour: the active one first. -/
def Tile.bankOf (t : Tile) (c : BitVec 12) : Option Bank :=
  if t.active.colour = some c then some t.active
  else if t.shadow.colour = some c then some t.shadow
  else none

/-- Change the bank that holds a colour. -/
def Tile.updBank (t : Tile) (c : BitVec 12) (f : Bank → Bank) : Tile :=
  if t.active.colour = some c then t.setActive (f t.active)
  else if t.shadow.colour = some c then t.setShadow (f t.shadow)
  else t

/-- Where a stake of a colour lies: tile, slot and state (R237). -/
def findStake (s : State) (c : BitVec 12) (l : BitVec 16) : Option (Nat × Nat × StakeSt) :=
  match s.col? c.toNat with
  | none => none
  | some k => match mapGet? k.smap l.toNat with
    | none => none
    | some e => match (s.tile e.ptile).bankOf c with
      | none => none
      | some b => (mapGet? b.slots e.pslot).map (fun st => (e.ptile, e.pslot, st))

/-- The state of a stake. -/
def stake? (s : State) (c : BitVec 12) (l : BitVec 16) : Option StakeSt := (findStake s c l).map (fun x => x.2.2)

/-- The tile of a logical tile, whether or not it has flipped. -/
def Colour.tileOf (k : Colour) (lt : Nat) : Nat :=
  match mapGet? k.anchors lt, mapGet? k.arriving lt with
  | some t, _ => t
  | none, some x => x.1
  | none, none => 0

/-- The tile that holds a stake; the tile of its anchor where the map lists none. -/
def tileOfStake (s : State) (c : BitVec 12) (l : BitVec 16) : Nat :=
  match s.col? c.toNat with
  | none => 0
  | some k => match mapGet? k.smap l.toNat with
    | some e => e.ptile
    | none => k.tileOf (l.toNat / 128)

/-- The logical stakes of a colour, rising. -/
def Colour.lstakes (k : Colour) : List (BitVec 16) := (mapKeys k.smap).map (BitVec.ofNat 16)

/-- The tiles of an instance, rising. -/
def Colour.tileList (k : Colour) : List Nat :=
  (k.smap.map (fun e => e.2.ptile)).foldl setIns (((k.anchors.map Prod.snd) ++ k.unflipped).foldl setIns [])

/-- The physical tile that is the anchor of a logical tile (R237). -/
def anchorOf (k : Colour) (lt : Nat) : Option Nat := mapGet? k.anchors lt

/-- The stakes of a colour with their states. -/
def stakesOf (s : State) (c : BitVec 12) : List StakeSt :=
  match s.col? c.toNat with
  | none => []
  | some k => k.lstakes.filterMap (stake? s c)

/-- The queue home of a colour: the cluster of logical tile 0 of its lead's instance (R230). -/
def queueHome (s : State) (c : BitVec 12) : Nat :=
  let lead := match s.col? c.toNat with
    | some k => k.lead
    | none => c
  match s.col? lead.toNat with
  | some k => cluOfTile (k.tileOf 0)
  | none => 0

/-! ## Accumulator banks -/

/-- An accumulator bank of a tile. -/
def Tile.acc (t : Tile) (b : Nat) : Acc :=
  match b with
  | 0 => t.m0
  | 1 => t.m1
  | 2 => t.m2
  | _ => t.m3

/-- Replace an accumulator bank. -/
def Tile.setAcc (t : Tile) (b : Nat) (a : Acc) : Tile :=
  match b with
  | 0 => { t with m0 := a }
  | 1 => { t with m1 := a }
  | 2 => { t with m2 := a }
  | _ => { t with m3 := a }

/-! ## Dirty bits (R266) -/

/-- Set dirty bits of a logical tile, kept at its anchor. -/
def setDirty (s : State) (k : Colour) (lt : Nat) (bits : List Nat) : State :=
  match anchorOf k lt with
  | none => s
  | some a => if bits.isEmpty then s else s.updTile a (fun t => { t with dirty := bits.foldl setIns t.dirty })

/-- Tokens that a stake holds at its ports and in complete sets. -/
def StakeSt.held (st : StakeSt) : Nat :=
  let n (p : Port) := (p.buf.filter (fun i => i.tok.kind != 1)).length
  n st.pa + n st.pb + n st.pc + n st.pt + st.ready.length

/-- Tokens in the operand buffers of a stake. -/
def StakeSt.bufCount (st : StakeSt) : Nat :=
  let n (p : Port) := (p.buf.filter (fun i => i.tok.kind != 1)).length
  n st.pa + n st.pb + n st.pc + n st.pt

/-- Tokens in the complete operand sets of a stake. -/
def StakeSt.readyCount (st : StakeSt) : Nat :=
  let n (o : OpSet) : Nat := o.ta.toList.length + o.tb.toList.length + o.tc.toList.length + o.tt.toList.length
  (st.ready.map n).sum

/-- The stakes of a logical tile of a colour, by logical stake. -/
def stakesIn (s : State) (c : BitVec 12) (k : Colour) (lt : Nat) : List StakeSt :=
  k.lstakes.filterMap (fun x => if x.toNat / 128 = lt then stake? s c x else none)

/-- The operand-buffer banks whose records a change at one stake may shift (Table 11.8): those from its first record on. `n` is the
number of the stake's tokens after the change. -/
def tokenBits (s : State) (c : BitVec 12) (k : Colour) (l : BitVec 16) (n : Nat) : List Nat :=
  let counts := (stakesIn s c k (l.toNat / 128)).map (fun st => (st.lstake.toNat, st.bufCount))
  let before := ((counts.filter (fun e => e.1 < l.toNat)).map Prod.snd).sum
  let total := (counts.map Prod.snd).sum
  let lo := min 15 (before / 64)
  let hi := min 15 ((total + n) / 64)
  rangeFrom (16 + lo) (hi + 1 - lo)

/-- The matching-store blocks of a logical tile that hold records, with room for `n` more: a change at a row may shift any of them
(Table 11.8). -/
def rowBlocks (s : State) (c : BitVec 12) (k : Colour) (lt n : Nat) : List Nat :=
  let mine (r : Token) : Bool := r.colour == c && r.lstake.toNat / 128 == lt
  let rows := (k.tileList.map (fun t => ((s.tile t).rows.filter mine).length + ((s.tile t).early.filter (fun i => mine i.tok)).length)).sum
  rangeFrom 32 (min 16 ((rows + ((stakesIn s c k lt).map StakeSt.readyCount).sum + n) / 256 + 1))

/-- The blocks that differ between two states of one stake. -/
def stakeBits (s : State) (c : BitVec 12) (k : Colour) (a b : StakeSt) : List Nat :=
  (if a.l0 != b.l0 || a.l1 != b.l1 || a.l2 != b.l2 || a.l3 != b.l3 then [a.lstake.toNat % 128 / 8] else []) ++
  (if a.pa.buf != b.pa.buf || a.pb.buf != b.pb.buf || a.pc.buf != b.pc.buf || a.pt.buf != b.pt.buf
    then tokenBits s c k a.lstake b.bufCount else []) ++
  (if a.ready != b.ready then rowBlocks s c k (a.lstake.toNat / 128) b.readyCount else []) ++
  (if a.kn != b.kn || a.pa.latches != b.pa.latches || a.pb.latches != b.pb.latches || a.pc.latches != b.pc.latches ||
      a.ebuf != b.ebuf || a.group != b.group || a.mergeB != b.mergeB || a.out != b.out then [180] else [])

/-- Replace the state of a stake, with its dirty bits. -/
def putStake (s : State) (c : BitVec 12) (st : StakeSt) : State :=
  match s.col? c.toNat, findStake s c st.lstake with
  | some k, some (t, slot, old) =>
    setDirty (s.updTile t (fun x => x.updBank c (fun b => { b with slots := mapPut b.slots slot st }))) k
      (st.lstake.toNat / 128) (stakeBits s c k old st)
  | _, _ => s

/-- Change the state of a stake. -/
def updStake (s : State) (c : BitVec 12) (l : BitVec 16) (f : StakeSt → StakeSt) : State :=
  match stake? s c l with
  | some st => putStake s c (f st)
  | none => s

/-- Change every stake of a colour. -/
def updStakes (s : State) (c : BitVec 12) (f : StakeSt → StakeSt) : State :=
  (stakesOf s c).foldl (fun s st => putStake s c (f st)) s

/-! ## Ports -/

/-- Port `p` of a stake: 0 a, 1 b, 2 c, 3 t. -/
def StakeSt.port (st : StakeSt) (p : Nat) : Port :=
  match p with
  | 0 => st.pa
  | 1 => st.pb
  | 2 => st.pc
  | _ => st.pt

/-- Replace a port of a stake. -/
def StakeSt.setPort (st : StakeSt) (p : Nat) (x : Port) : StakeSt :=
  match p with
  | 0 => { st with pa := x }
  | 1 => { st with pb := x }
  | 2 => { st with pc := x }
  | _ => { st with pt := x }

/-- Depth of a port. -/
def StakeSt.depth (st : StakeSt) (p : Nat) : Nat :=
  match p with
  | 0 => st.da
  | 1 => st.db
  | 2 => st.dc
  | _ => st.dt

/-- Tokens that a port's operand buffer holds: boundary records take no entry (R79). -/
def Port.count (p : Port) : Nat := (p.buf.filter (fun i => i.tok.kind != 1)).length

/-- The port is ready under R71. -/
def StakeSt.portReady (st : StakeSt) (p : Nat) : Bool := (st.port p).count < st.depth p

/-- Entries of a tile's operand-buffer pool that its active bank uses (R14). -/
def Tile.poolUsed (t : Tile) : Nat :=
  ((mapVals t.active.slots).map (fun st => st.pa.count + st.pb.count + st.pc.count + st.pt.count)).sum

/-- Entries of the pool that a stake's ports are given (R308). -/
def StakeSt.depths (st : StakeSt) : Nat := st.da + st.db + st.dc + st.dt

/-- Entries of a tile's pool that the stakes of its active bank are given (R14, R308). -/
def Tile.poolGiven (t : Tile) : Nat := ((mapVals t.active.slots).map StakeSt.depths).sum

/-- A local register. -/
def StakeSt.lreg (st : StakeSt) (n : Nat) : W512 :=
  match n with
  | 0 => st.l0
  | 1 => st.l1
  | 2 => st.l2
  | _ => st.l3

/-- The token of a port in an operand set. -/
def OpSet.get (o : OpSet) (p : Nat) : Option Token :=
  match p with
  | 0 => o.ta
  | 1 => o.tb
  | 2 => o.tc
  | _ => o.tt

/-- Set the token of a port in an operand set. -/
def OpSet.put (o : OpSet) (p : Nat) (t : Token) : OpSet :=
  match p with
  | 0 => { o with ta := some t }
  | 1 => { o with tb := some t }
  | 2 => { o with tc := some t }
  | _ => { o with tt := some t }

/-- The operand set with nothing in it. -/
def OpSet.empty : OpSet := { ta := none, tb := none, tc := none, tt := none }

/-- The tokens of an operand set, in the order a, b, c, t. -/
def OpSet.toks (o : OpSet) : List Token := o.ta.toList ++ o.tb.toList ++ o.tc.toList ++ o.tt.toList

/-! ## Frames -/

/-- A frame of a bound colour. -/
def frame? (s : State) (c : BitVec 12) (f : BitVec 12) : Option Frame :=
  match s.col? c.toNat with
  | some k => mapGet? k.frames f.toNat
  | none => none

/-- Change a frame. -/
def updFrame (s : State) (c f : BitVec 12) (g : Frame → Frame) : State :=
  s.updCol c.toNat (fun k => { k with frames := mapUpd k.frames f.toNat g })

/-- Age order of R35: `a` was created before `b`. -/
def older (a b : BitVec 32) : Bool := a != b && (b - a).toNat < 2 ^ 31

/-- Frames of a colour in the retiring set (R36). -/
def Colour.retiring (k : Colour) : List Frame := (mapVals k.frames).filter (fun f => f.phase == .purging)

/-- A frame of the firing's colour is live: from its FRAMENEW until its number enters the retiring set (R464). -/
def Colour.isLive (k : Colour) (f : BitVec 12) : Bool :=
  match mapGet? k.frames f.toNat with
  | some x => x.phase != .purging
  | none => false

/-- Count a discarded token (R36). -/
def countPurged (s : State) (c : BitVec 12) (n : Nat) : State :=
  if n = 0 then s else { s with purged := mapPut s.purged c.toNat (countUp (mapGet s.purged c.toNat 0) n) }

end Sys2Proof.Machine
end

