-- ==== Sys2Proof/Machine/Cache.lean ====
section
/-! DEFINITION. Lines, die slices, L1 data caches and the home directory (R146 to R154, R158, R163, R164, R201). -/

namespace Sys2Proof.Machine

/-- A byte as read, with the error of its 32-byte granule (R163). -/
abbrev RdByte := Byte × Bool

/-- A byte to write, or none where a byte mask leaves it. -/
abbrev WrByte := Option Byte

/-- Bytes to write, none masked. -/
def wrAll (bs : List Byte) : List WrByte := bs.map some

/-- A run of bytes cut at line boundaries: addresses with their parts. -/
def splitLines {α : Type} : Nat → Nat → List α → List (Nat × List α)
  | 0, _, _ => []
  | n + 1, pa, w =>
    if w.isEmpty then [] else (pa, w.take (128 - pa % 128)) :: splitLines n (pa + (128 - pa % 128)) (w.drop (128 - pa % 128))

/-- A run of bytes cut at line boundaries. -/
def perLine {α : Type} (pa : Nat) (w : List α) : List (Nat × List α) := splitLines (w.length / 128 + 2) pa w

/-- The byte that a write puts at an offset of a line. -/
def wrAt (w : List WrByte) (off i : Nat) : WrByte := if i < off then none else w.getD (i - off) none

/-- The write covers a whole granule of a line (R164). -/
def covers (w : List WrByte) (off g : Nat) : Bool := (rangeFrom (32 * g) 32).all (fun i => (wrAt w off i).isSome)

/-- The write touches a granule of a line. -/
def touches (w : List WrByte) (off g : Nat) : Bool := (rangeFrom (32 * g) 32).any (fun i => (wrAt w off i).isSome)

/-- Some byte read is in error. -/
def anyBad (bs : List RdByte) : Bool := bs.any (·.2)

/-- A write to a line with its granule errors (R164): a whole granule clears its error, a partial write on a TOL page merges
with zeros, and any other partial write keeps it. -/
def lineWr (data : BitVec 1024) (bad : BitVec 4) (off : Nat) (w : List WrByte) (tol : Bool) : BitVec 1024 × BitVec 4 :=
  let old := natBytes 128 data.toNat
  let merge g := bad.getLsbD g && touches w off g && !covers w off g && tol
  let clear g := bad.getLsbD g && touches w off g && (covers w off g || tol)
  let bytes := (List.range 128).map (fun i =>
    (wrAt w off i).getD (if merge (i / 32) then 0 else old.getD i 0))
  let bad' := (List.range 4).foldl (fun (b : BitVec 4) g => if clear g then b &&& ~~~(1#4 <<< g) else b) bad
  (BitVec.ofNat 1024 (leNat bytes), bad')

/-- Bytes of a line. -/
def lineRd (data : BitVec 1024) (bad : BitVec 4) (off n : Nat) : List RdByte :=
  (rangeFrom off n).map (fun i => (data.extractLsb' (8 * i) 8, bad.getLsbD (i / 32)))

/-- Byte at an offset of a line, with its error. -/
def lineByte (data : BitVec 1024) (bad : BitVec 4) (i : Nat) : RdByte := (data.extractLsb' (8 * i) 8, bad.getLsbD (i / 32))

/-! ## HBM4 with its errors -/

/-- A write to one line's bytes in HBM4 (R164); an uncorrected partial write is counted. -/
def hbmWr (s : State) (pa : Nat) (w : List WrByte) (tol : Bool) : State :=
  let base := pa - pa % 128
  let s1 := (List.range 4).foldl (fun s g =>
    if hbmBad s (base + 32 * g) && touches w (pa % 128) g then
      if covers w (pa % 128) g then hbmSetBad s (base + 32 * g) false
      else if tol then hbmSetBad (hbmWrite s (base + 32 * g) (List.replicate 32 0)) (base + 32 * g) false
      else s.updDie (homeDie s pa) (fun d => { d with hbmUnc := countUp d.hbmUnc 1 })
    else s) s
  (w.zipIdx).foldl (fun s b => match b.1 with
    | some v => hbmPut s (pa + b.2) v
    | none => s) s1

/-- A whole line of HBM4. -/
def hbmLine (s : State) (line : Nat) : BitVec 1024 × BitVec 4 :=
  (BitVec.ofNat 1024 (leNat (hbmRead s (128 * line) 128)),
    (List.range 4).foldl (fun (b : BitVec 4) g => if hbmBad s (128 * line + 32 * g) then b ||| (1#4 <<< g) else b) 0)

/-- Write a whole line to HBM4 with its granule errors. -/
def hbmPutLine (s : State) (line : Nat) (data : BitVec 1024) (bad : BitVec 4) : State :=
  let s1 := hbmWrite s (128 * line) (natBytes 128 data.toNat)
  (List.range 4).foldl (fun s g => hbmSetBad s (128 * line + 32 * g) (bad.getLsbD g)) s1

/-! ## Die slices -/

/-- The set of a slice line (R150). -/
def sliceSet (line : Nat) : Nat := line % 16384

/-- The home die of a line (R18). -/
def lineDie (s : State) (line : Nat) : Nat := homeDie s (128 * line)

/-- A line in its home slice. -/
def sliceFind (s : State) (line : Nat) : Option SliceLine :=
  (s.die (lineDie s line)).slice.find? (fun x => x.line == line)

/-- Change a line of a slice. -/
def sliceUpd (s : State) (line : Nat) (f : SliceLine → SliceLine) : State :=
  s.updDie (lineDie s line) (fun d => { d with slice := updFirst (fun y => y.line == line) f d.slice })

/-- The line is pinned: it is of a HOME 2 page (R149). -/
def SliceLine.pinned (l : SliceLine) : Bool := !l.pins.isEmpty

/-- Take a line out of a slice. -/
def sliceDrop (s : State) (d line : Nat) : State :=
  s.updDie d (fun x => { x with slice := x.slice.filter (fun l => l.line != line) })

/-- Write a slice line back to HBM4 and drop it (R150, R158). -/
def sliceEvict (s : State) (d : Nat) (l : SliceLine) : State :=
  let s1 := if l.dirty then hbmPutLine s l.line l.data l.bad else s
  sliceDrop s1 d l.line

/-- The line is under a solder lock (R201). -/
def locked (s : State) (line : Nat) : Bool := (s.die (lineDie s line)).locks.any (fun k => k.line == line)

/-- The set's line in a way. -/
def wayHolder (s : State) (d set way : Nat) : Option SliceLine :=
  (s.die d).slice.find? (fun x => sliceSet x.line == set && x.way == way)

/-- The ways in which a partition allocates a line, those that drain left out: for a line of a HOME 2 page those of PIN (R149, R158,
R159). -/
def allocWays (s : State) (p line : Nat) (pinned : Bool) : List Nat :=
  let d := lineDie s line
  let mask := if pinned then mapGet (s.part p).pin d 0 else mapGet (s.part p).ways d 0
  bitList 32 (mask &&& ~~~(s.die d).drain).toNat

/-- A way in which a partition may allocate a line: a free one, else the lowest whose line is neither pinned nor locked; with
the line to evict (R149, R158, R159, R201). The lowest way is the model's choice (log entry 25). -/
def sliceWay (s : State) (p line : Nat) (pinned : Bool) : Option (Nat × Option SliceLine) :=
  let d := lineDie s line
  let ways := allocWays s p line pinned
  match ways.find? (fun w => (wayHolder s d (sliceSet line) w).isNone) with
  | some w => some (w, none)
  | none =>
    match ways.find? (fun w => match wayHolder s d (sliceSet line) w with
        | some l => !l.pinned && !locked s l.line
        | none => false) with
    | some w => some (w, wayHolder s d (sliceSet line) w)
    | none => none

/-- Allocate a line in a way of its home slice in place of the line that the way holds. -/
def sliceNew (s : State) (new : SliceLine) (victim : Option SliceLine) : State :=
  let d := lineDie s new.line
  let s1 := match victim with
    | some l => sliceEvict s d l
    | none => s
  s1.updDie d (fun x => { x with slice := new :: x.slice })

/-- The pins of a line with one mapping more (R149). -/
def addPin (pins : List (Nat × Nat)) (pin : Option (Nat × Nat)) : List (Nat × Nat) :=
  match pin with
  | some p => if pins.contains p then pins else p :: pins
  | none => pins

/-- Put a line into its home slice; where no way takes it, it goes to HBM4 when dirty. A line of a HOME 2 page is pinned in a way of
PIN: one that lies unpinned in another way moves (R149). -/
def slicePut (s : State) (p line : Nat) (pin : Option (Nat × Nat)) (dirty : Bool) (data : BitVec 1024) (bad : BitVec 4) : State :=
  let new (w : Nat) (dirty : Bool) : SliceLine :=
    { line := line, way := w, part := p, pins := pin.toList, dirty := dirty, data := data, bad := bad }
  match sliceFind s line with
  | some y =>
    let keep (pins : List (Nat × Nat)) : State := sliceUpd s line (fun y =>
      { y with data := data, bad := bad, dirty := y.dirty || dirty, pins := pins })
    if pin.isNone || y.pinned || (allocWays s p line true).contains y.way then keep (addPin y.pins pin)
    else match sliceWay s p line true with
      | some (w, v) => sliceNew (sliceDrop s (lineDie s line) line) (new w (y.dirty || dirty)) v
      | none => keep y.pins
  | none => match sliceWay s p line pin.isSome with
    | some (w, v) => sliceNew s (new w dirty) v
    | none => if dirty then hbmPutLine s line data bad else s

/-- A hit in a draining way behind the sweep is written through and the line invalidated (R158). -/
def settleDrain (s : State) (line : Nat) : State :=
  let d := lineDie s line
  match sliceFind s line with
  | some l => if (s.die d).drain.getLsbD l.way && decide (sliceSet line < (s.die d).swept) && !locked s line then sliceEvict s d l
    else s
  | none => s

/-! ## The home: slice or HBM4 -/

/-- A byte at its home. -/
def homeByte (s : State) (pa : Nat) : RdByte :=
  match sliceFind s (pa / 128) with
  | some l => lineByte l.data l.bad (pa % 128)
  | none => (hbmGet s pa, hbmBad s pa)

/-- A whole line at its home. -/
def homeLine (s : State) (line : Nat) : BitVec 1024 × BitVec 4 :=
  match sliceFind s line with
  | some l => (l.data, l.bad)
  | none => hbmLine s line

/-- Bytes at their home. -/
def homeRd (s : State) (pa n : Nat) : List RdByte := (rangeFrom pa n).map (homeByte s)

/-- A read of bytes at their home meets an uncorrectable error in HBM4: it is counted (R349). -/
def noteUe (s : State) (pa n : Nat) : State :=
  if !s.poison.isEmpty && (rangeFrom pa n).any (fun a => (sliceFind s (a / 128)).isNone && hbmBad s a) then
    s.updDie (homeDie s pa) (fun d => { d with hbmUnc := countUp d.hbmUnc 1 })
  else s

/-- A partial write to a granule in error of a cached line of a page without TOL is counted, as in HBM4 (R164, log entry 102). -/
def countPartial (s : State) (line : Nat) (bad : BitVec 4) (off : Nat) (w : List WrByte) (tol : Bool) : State :=
  let n := ((List.range 4).filter (fun g => bad.getLsbD g && touches w off g && !covers w off g && !tol)).length
  if n = 0 then s else s.updDie (lineDie s line) (fun d => { d with hbmUnc := countUp d.hbmUnc n })

/-- A write to one line at its home. -/
def homeWr1 (s : State) (pa : Nat) (w : List WrByte) (tol : Bool) : State :=
  match sliceFind s (pa / 128) with
  | some l =>
    let r := lineWr l.data l.bad (pa % 128) w tol
    let s1 := countPartial s (pa / 128) l.bad (pa % 128) w tol
    settleDrain (sliceUpd s1 (pa / 128) (fun y => { y with data := r.1, bad := r.2, dirty := true })) (pa / 128)
  | none => hbmWr s pa w tol

/-- A write at its home. -/
def homeWr (s : State) (pa : Nat) (w : List WrByte) (tol : Bool) : State :=
  (perLine pa w).foldl (fun s x => homeWr1 s x.1 x.2 tol) s

/-! ## L1 data caches -/

/-- A line in a cluster's L1D. -/
def l1Find (s : State) (c line : Nat) : Option L1Line := (s.clu c).l1.find? (fun x => x.line == line)

/-- Take a line out of an L1D. -/
def l1Drop (s : State) (c line : Nat) : State :=
  s.updClu c (fun x => { x with l1 := x.l1.filter (fun l => l.line != line) })

/-- Change a line of an L1D. -/
def l1Upd (s : State) (c line : Nat) (f : L1Line → L1Line) : State :=
  s.updClu c (fun x => { x with l1 := updFirst (fun l => l.line == line) f x.l1 })

/-- The partition of a cluster as a number, 0 where it has none. -/
def cluPart (s : State) (c : Nat) : Nat := (partOfClu s c).getD 0

/-- Write an L1D line's data to the home slice (PUTX, R151). -/
def writeBack (s : State) (c : Nat) (l : L1Line) : State :=
  if l.st = .m then slicePut s (cluPart s c) l.line l.pin true l.data l.bad else s

/-! ## Directory -/

/-- The entry of a line. -/
def dirFind (s : State) (line : Nat) : Option DirEnt := (s.die (lineDie s line)).dir.find? (fun e => e.line == line)

/-- The entry of a line in state I. -/
def DirEnt.fresh (line : Nat) : DirEnt :=
  { line := line, owner := none, sharers := 0, busy := none, probes := [], got := false, data := none, queue := [] }

/-- An entry that says nothing: state I, not busy, nothing queued. -/
def DirEnt.idle (e : DirEnt) : Bool := e.owner.isNone && e.sharers == 0 && e.busy.isNone && e.queue.isEmpty

/-- Put an entry into its directory; an idle one is removed. -/
def dirPut (s : State) (e : DirEnt) : State :=
  let upd (l : List DirEnt) : List DirEnt :=
    if e.idle then l.filter (fun x => x.line != e.line)
    else if l.any (fun x => x.line == e.line) then updFirst (fun x => x.line == e.line) (fun _ => e) l
    else e :: l
  s.updDie (lineDie s e.line) (fun d => { d with dir := upd d.dir })

/-- The directory set of a line has a free way, or the line has its entry (R150). -/
def dirRoom (s : State) (line : Nat) : Bool :=
  (dirFind s line).isSome ||
    ((s.die (lineDie s line)).dir.filter (fun e => e.line % 65536 == line % 65536 && (e.owner.isSome || e.sharers != 0))).length < 16

/-- Evict a line from an L1D: a dirty one is written back, and the directory forgets an owner (PUTX or PUTE, R151). -/
def l1Evict (s : State) (c line : Nat) : State :=
  match l1Find s c line with
  | none => s
  | some l =>
    let s1 := l1Drop (writeBack s c l) c line
    match dirFind s1 line with
    | some e => if !l.priv && e.owner == some c && e.busy.isNone then dirPut s1 { e with owner := none } else s1
    | none => s1

/-- Put a line into an L1D, evicting a line of its set when all 16 ways are taken: an S line first, else the oldest, which is the
model's choice (R150, R151, log entry 25). -/
def l1Fill (s : State) (c : Nat) (new : L1Line) : State :=
  let inSet := (s.clu c).l1.filter (fun x => x.line % 1024 == new.line % 1024 && x.line != new.line)
  let s1 := if inSet.length < 16 then s else
    match (inSet.find? (fun x => x.st == .s)).orElse (fun _ => inSet.getLast?) with
    | some v => l1Evict s c v.line
    | none => s
  (l1Drop s1 c new.line).updClu c (fun x => { x with l1 := new :: x.l1 })

/-- The line is pinned in its home slice (R149). -/
def isPinned (s : State) (line : Nat) : Bool :=
  match sliceFind s line with
  | some l => l.pinned
  | none => false

/-- A HOME 2 line that is not in the slice's pinned ways, with pinned lines in every pinned way of its set, is served as HOME 3
(R149). -/
def pinFull (s : State) (c line : Nat) : Bool :=
  !isPinned s line && (allocWays s (cluPart s c) line true).all (fun w =>
    match wayHolder s (lineDie s line) (sliceSet line) w with
    | some l => l.pinned
    | none => false)

/-- A HOME 2 line has a pinned way: its own, or one to allocate, which a solder lock can deny for a while (R149, R201). -/
def pinReady (s : State) (c line : Nat) : Bool := isPinned s line || (sliceWay s (cluPart s c) line true).isSome

/-- Bring a line to a cluster with its data from the slice or HBM4; a HOME 2 line is pinned in the slice (R149). A line of a HOME 0
page enters the slice only when an L1D writes it back, which is the model's choice (R150, log entry 25). -/
def grantLine (s : State) (c line : Nat) (st : LineSt) (priv : Bool) (pin : Option (Nat × Nat)) : State :=
  let r := homeLine s line
  let s0 := noteUe s (128 * line) 128
  let s1 := if pin.isSome then slicePut s0 (cluPart s c) line pin false r.1 r.2 else s0
  l1Fill s1 c { line := line, st := st, data := r.1, bad := r.2, priv := priv, pin := pin }

/-- A unit's own access has its turn at a line that is ready for it (R189, R201). -/
def dirTurn (s : State) (e : DirEnt) (r : DirReq) : State := dirPut s { e with busy := some r, probes := [], got := true }

/-- Handle one request at an entry that is not busy and whose line is not locked (Table 6.6). -/
def dirHandle (s : State) (line : Nat) (r : DirReq) : State :=
  let e := (dirFind s line).getD (DirEnt.fresh line)
  let sharers := bitList 64 e.sharers.toNat
  match r with
  | .gets c pin =>
    match e.owner with
    | some o => if o = c then (if (l1Find s c line).isSome then s else grantLine s c line .e false pin)
        else dirPut s { e with busy := some r, probes := [o] }
    | none =>
      if e.sharers = 0 then dirPut (grantLine s c line .e false pin) { e with owner := some c }
      else dirPut (grantLine s c line .s false pin) { e with sharers := e.sharers ||| (1#64 <<< c) }
  | .getx c pin =>
    match e.owner with
    | some o => if o = c then (if (l1Find s c line).isSome then s else grantLine s c line .m false pin)
        else dirPut s { e with busy := some r, probes := [o] }
    | none =>
      let others := sharers.filter (· != c)
      if others.isEmpty then dirPut (grantLine s c line .m false pin) { e with owner := some c, sharers := 0 }
      else dirPut s { e with busy := some r, probes := others }
  | .rmw _ clear =>
    if !clear then dirTurn s e r
    else match e.owner with
      | some o => dirPut s { e with busy := some r, probes := [o] }
      | none => if e.sharers = 0 then dirTurn s e r else dirPut s { e with busy := some r, probes := sharers }
  | .piece _ _ | .port _ => dirTurn s e r
  | .evict =>
    match e.owner with
    | some o => dirPut s { e with busy := some r, probes := [o] }
    | none => if e.sharers = 0 then s else dirPut s { e with busy := some r, probes := sharers }
  | .lock c slot =>
    match e.owner with
    | some o => dirPut s { e with busy := some r, probes := [o] }
    | none =>
      if e.sharers = 0 then
        s.updDie (lineDie s line) (fun d => { d with locks := { line := line, cluster := c, slot := slot } :: d.locks })
      else dirPut s { e with busy := some r, probes := sharers }

/-- Who asks is still there: a unit's access whose request, command or message has gone is passed over. -/
def DirReq.alive (s : State) (r : DirReq) : Bool :=
  match r with
  | .rmw id _ => (s.req? id).any (fun q => q.phase == .issued)
  | .piece c q => (s.col? c).any (fun k => match (mapGet? k.copyq q).map (·.items) with
    | some (.cmd _ :: _) => true
    | _ => false)
  | .port n => s.inq.any (fun x => x.num == n)
  | _ => true

/-- Serve the requests that wait at an entry, in arrival order, while it is neither busy nor locked (R152, R201). -/
def dirServe : Nat → State → Nat → State
  | 0, s, _ => s
  | n + 1, s, line =>
    match dirFind s line with
    | none => s
    | some e =>
      if e.busy.isSome || locked s line then s else
      match e.queue with
      | [] => s
      | r :: q =>
        let s1 := dirPut s { e with queue := q }
        dirServe n (if r.alive s then dirHandle s1 line r else s1) line

/-- Two requests are the same one: a cluster asks once for a line. -/
def DirReq.same (a b : DirReq) : Bool :=
  match a, b with
  | .gets c _, .gets d _ => c == d
  | .getx c _, .getx d _ => c == d
  | a, b => a == b

/-- A request reaches the directory: it waits behind others, a busy entry or a lock (R152, R201). -/
def dirRequest (s : State) (line : Nat) (r : DirReq) : State :=
  let e := (dirFind s line).getD (DirEnt.fresh line)
  if e.queue.any r.same || e.busy.any r.same then s
  else if e.busy.isSome || locked s line || !e.queue.isEmpty then dirPut s { e with queue := e.queue ++ [r] }
  else dirHandle s line r

/-- A cluster answers a probe: a downgrade for a GETS, with dirty data to the slice; an invalidation otherwise, in which an owner
sends its data to the requester of a GETX, and writes it back for any other request (R151, R152). -/
def probeAnswer (s : State) (c line : Nat) (e : DirEnt) : State :=
  let e1 := { e with probes := e.probes.filter (· != c) }
  match l1Find s c line with
  | none => dirPut s e1
  | some l => match e.busy with
    | some (.gets _ _) => dirPut (l1Upd (writeBack s c l) c line (fun x => { x with st := .s })) e1
    | some (.getx _ _) =>
      if l.st = .s then dirPut (l1Drop s c line) e1 else dirPut (l1Drop s c line) { e1 with data := some (l.data, l.bad) }
    | _ => dirPut (l1Drop (writeBack s c l) c line) e1

/-- The last answer has reached a busy entry: it takes its next state and serves what waits (Table 6.6). -/
def dirFinish (s : State) (line : Nat) (e : DirEnt) (r : DirReq) : State :=
  let base := { e with busy := none, probes := [], got := false, data := none }
  let s1 := match r with
    | .gets c pin =>
      let keep := match e.owner with
        | some o => if (l1Find s o line).isSome then 1#64 <<< o else 0
        | none => 0
      grantLine (dirPut s { base with owner := none, sharers := keep ||| (1#64 <<< c) }) c line .s false pin
    | .getx c pin =>
      let s1 := dirPut s { base with owner := some c, sharers := 0 }
      match e.data with
      | some d => l1Fill s1 c { line := line, st := .m, data := d.1, bad := d.2, priv := false, pin := pin }
      | none => grantLine s1 c line .m false pin
    | .rmw _ _ => dirTurn s { base with owner := none, sharers := 0 } r
    | .evict => dirPut s { base with owner := none, sharers := 0 }
    | .piece _ _ | .port _ => dirPut s base
    | .lock c slot =>
      (dirPut s { base with owner := none, sharers := 0 }).updDie (lineDie s line) (fun d =>
        { d with locks := { line := line, cluster := c, slot := slot } :: d.locks })
  dirServe (e.queue.length + 1) s1 line

/-- A unit's own access has performed or goes without: its line serves what waits (R189, R201). -/
def dirDone (s : State) (line : Nat) (r : DirReq) : State :=
  match dirFind s line with
  | some e =>
    if e.busy == some r then dirServe (e.queue.length + 1) (dirPut s { e with busy := none, probes := [], got := false }) line
    else dirPut s { e with queue := e.queue.filter (· != r) }
  | none => s

/-- The line is ready for a unit's own access, whose turn it is (R189, R201). -/
def lineMine (s : State) (line : Nat) (r : DirReq) : Bool :=
  match dirFind s line with
  | some e => e.busy == some r && e.got
  | none => false

/-- Unlock a line and serve what waits for it (R201). -/
def unlockLine (s : State) (line c slot : Nat) : State :=
  let s1 := s.updDie (lineDie s line) (fun d =>
    { d with locks := d.locks.filter (fun k => !(k.line == line && k.cluster == c && k.slot == slot)) })
  let s2 := settleDrain s1 line
  dirServe (match dirFind s2 line with | some e => e.queue.length + 1 | none => 1) s2 line

/-! ## Whole-machine views -/

/-- The clusters whose L1D holds a line. -/
def holders (s : State) (line : Nat) : List Nat :=
  (s.clus.filter (fun c => c.2.l1.any (fun l => l.line == line))).map Prod.fst

/-- The line is neither locked nor busy: an access at its home may perform (R152, R201). -/
def lineFree (s : State) (line : Nat) : Bool :=
  !locked s line && (match dirFind s line with | some e => e.busy.isNone | none => true)

/-- Recall every copy of a line to its home, leaving it in I (the RMW rows of Table 6.6); only where `lineFree` holds. -/
def recallLine (s : State) (line : Nat) : State :=
  let s1 := (holders s line).foldl (fun s c => match l1Find s c line with
    | some l => l1Drop (writeBack s c l) c line
    | none => s) s
  match dirFind s1 line with
  | some e => dirPut s1 { e with owner := none, sharers := 0 }
  | none => s1

/-- The lines that a byte range touches. -/
def linesOf (pa n : Nat) : List Nat := rangeFrom (pa / 128) ((pa + n - 1) / 128 + 1 - pa / 128)

/-- Every line of a range may be accessed at its home. -/
def rangeFree (s : State) (pa n : Nat) : Bool := (linesOf pa n).all (lineFree s)

/-- Recall every line of a range. -/
def recallRange (s : State) (pa n : Nat) : State := (linesOf pa n).foldl recallLine s

/-- Take the turns of a unit's access at lines in rising order: whether it has them all (R201). -/
def takeLines (s : State) (r : DirReq) : List Nat → Bool × State
  | [] => (true, s)
  | l :: rest =>
    let s1 := if lineMine s l r then s else dirRequest s l r
    if lineMine s1 l r then takeLines s1 r rest else (false, s1)

/-- A unit's access reaches its lines: it performs where every line is free, else it takes its place at each of them in turn, the
lowest first, so that no two accesses wait for one another (R201, R202). -/
def enterLines (s : State) (r : DirReq) (lines : List Nat) : Bool × State :=
  if lines.all (lineFree s) then (true, s) else takeLines s r lines

/-- A unit's access leaves its lines. -/
def leaveLines (s : State) (r : DirReq) (lines : List Nat) : State := lines.foldl (fun s l => dirDone s l r) s

/-- The value of a byte under the single-memory rule: the dirty copy of an L1D, the data on their way from one L1D to another, else
its home (R167). -/
def cohByte (s : State) (pa : Nat) : RdByte :=
  match s.clus.findSome? (fun c => c.2.l1.find? (fun l => l.line == pa / 128 && l.st == .m)) with
  | some l => lineByte l.data l.bad (pa % 128)
  | none => match (dirFind s (pa / 128)).bind (·.data) with
    | some d => lineByte d.1 d.2 (pa % 128)
    | none => homeByte s pa

/-- The values of bytes under the single-memory rule. -/
def cohRd (s : State) (pa n : Nat) : List RdByte := (rangeFrom pa n).map (cohByte s)

/-- A little-endian number under the single-memory rule. -/
def cohNat (s : State) (pa n : Nat) : Nat := leNat ((cohRd s pa n).map Prod.fst)

end Sys2Proof.Machine
end

