-- ==== Sys2Proof/Machine/Translate.lean ====
section
/-! DEFINITION. Page tables, TLBs, permissions and the classification of pages (R142 to R148, R154 to R157, R165). -/

namespace Sys2Proof.Machine

/-! ## Causes and reasons (Tables 11.1, 6.4) -/

/-- Cause ILLOP. -/
def cILLOP : BitVec 8 := 1
/-- Cause STRAY. -/
def cSTRAY : BitVec 8 := 2
/-- Cause PGFLT. -/
def cPGFLT : BitVec 8 := 3
/-- Cause PERM. -/
def cPERM : BitVec 8 := 4
/-- Cause ALIGN. -/
def cALIGN : BitVec 8 := 5
/-- Cause MCASATTR. -/
def cMCASATTR : BitVec 8 := 6
/-- Cause UE. -/
def cUE : BitVec 8 := 7
/-- Cause DEADLK. -/
def cDEADLK : BitVec 8 := 8
/-- Cause SWTRAP. -/
def cSWTRAP : BitVec 8 := 9
/-- Cause BRK. -/
def cBRK : BitVec 8 := 10
/-- Cause KILL. -/
def cKILL : BitVec 8 := 11

/-- Reason NONCANON. -/
def rNONCANON : BitVec 8 := 1
/-- Reason NOTVALID. -/
def rNOTVALID : BitVec 8 := 2
/-- Reason RSVBITS. -/
def rRSVBITS : BitVec 8 := 3
/-- Reason BADLEAF. -/
def rBADLEAF : BitVec 8 := 4
/-- Reason BADHOME. -/
def rBADHOME : BitVec 8 := 5
/-- Reason NOREAD. -/
def rNOREAD : BitVec 8 := 6
/-- Reason NOWRITE. -/
def rNOWRITE : BitVec 8 := 7
/-- Reason NOATOM. -/
def rNOATOM : BitVec 8 := 8
/-- Reason NOTSCR. -/
def rNOTSCR : BitVec 8 := 9
/-- Reason XPART. -/
def rXPART : BitVec 8 := 10
/-- Reason NOTGTOP. -/
def rNOTGTOP : BitVec 8 := 11
/-- Reason REMOTE. -/
def rREMOTE : BitVec 8 := 12
/-- Reason HOSTPF. -/
def rHOSTPF : BitVec 8 := 13
/-- Reason JOINHOME. -/
def rJOINHOME : BitVec 8 := 14
/-- Reason TMAP. -/
def rTMAP : BitVec 8 := 15

/-! ## Page-table entries (Table 6.3) -/

/-- V. -/
def pteV (p : W64) : Bool := p.getLsbD 0
/-- LF. -/
def pteLf (p : W64) : Bool := p.getLsbD 1
/-- R. -/
def pteR (p : W64) : Bool := p.getLsbD 2
/-- W. -/
def pteW (p : W64) : Bool := p.getLsbD 3
/-- A. -/
def pteA (p : W64) : Bool := p.getLsbD 4
/-- HOME. -/
def pteHome (p : W64) : Nat := (p.extractLsb' 5 2).toNat
/-- TOL. -/
def pteTol (p : W64) : Bool := p.getLsbD 7
/-- SUBN. -/
def pteSubn (p : W64) : Bool := p.getLsbD 8
/-- SHR. -/
def pteShr (p : W64) : Bool := p.getLsbD 9
/-- CLS. -/
def pteCls (p : W64) : Nat := (p.extractLsb' 10 2).toNat
/-- The physical address that PPN names. -/
def ptePa (p : W64) : Nat := (p.extractLsb' 12 40).toNat * 4096
/-- OWNER. -/
def pteOwner (p : W64) : Nat := (p.extractLsb' 52 6).toNat
/-- CTG. -/
def pteCtg (p : W64) : Bool := p.getLsbD 58

/-- The entry with CLS and OWNER as the device writes them. -/
def pteClassify (p : W64) (cls owner : Nat) : W64 :=
  (p &&& ~~~(0x03F0000000000C00#64)) ||| (BitVec.ofNat 64 cls <<< 10) ||| (BitVec.ofNat 64 owner <<< 52)

/-- The home of R147: a host, peer or SHR page is HOME 3. -/
def effHome (p : W64) (pa : Nat) : Nat := if isHost pa || isPeer pa || pteShr p then 3 else pteHome p

/-! ## The walk (R142 to R145) -/

/-- How a walk ends. -/
inductive WalkRes where
  /-- A leaf: the entry, log2 of the page size and the entry's physical address. -/
  | leaf (pte : W64) (size pteAt : Nat)
  /-- A fault of Table 6.4. -/
  | fault (cause reason : BitVec 8)
  /-- The entry at this address cannot be read: no range covers it, its stack has failed, or it holds an error (R162, R164,
  R341). -/
  | ue (at_ : Nat)
  /-- A table page lies on a stack that is not ready (R341). -/
  | wait
  deriving DecidableEq, Repr

/-- log2 of the page size of a leaf at a level. -/
def leafSize (level : Nat) (ctg : Bool) : Nat :=
  match level with
  | 0 => if ctg then 16 else 12
  | 1 => 21
  | _ => if ctg then 36 else 30

/-- The checks of one entry in order: RSVBITS, BADLEAF, BADHOME (R145). -/
def entryFault (level : Nat) (p : W64) (va : Nat) : Option (BitVec 8) :=
  let hi := (p.extractLsb' 59 5).toNat
  if pteLf p then
    let size := leafSize level (pteCtg p)
    let pa := ptePa p + va % 2 ^ size
    if hi ≠ 0 then some rRSVBITS
    else if level ≥ 3 || (level == 1 && pteCtg p) || ptePa p % 2 ^ size != 0 then some rBADLEAF
    else if isReserved pa then some rBADHOME
    else if pteHome p == 1 && (!isScratch pa || pteShr p || size ≥ 21) then some rBADHOME
    else if pteHome p != 1 && isScratch pa then some rBADHOME
    else none
  else
    if hi ≠ 0 || (p.extractLsb' 52 7).toNat ≠ 0 || (p.extractLsb' 2 10).toNat ≠ 0 then some rRSVBITS
    else if level = 0 then some rBADLEAF
    else if isReserved (ptePa p) || isScratch (ptePa p) then some rBADHOME
    else none

/-- An HBM4 address lies in the range of another partition (R154). -/
def foreign (s : State) (part pa : Nat) : Bool :=
  isHbm pa && match ownerPart s pa with
    | some (q, _) => q != part
    | none => false

/-- The walk from a level down; `n` is the level plus one. Table pages are read as HOME 0 pages of the VF's partition (R154, R165).
A table page in the host or a peer window, of which the spec says nothing, gives UE (log entry 99). -/
def walkFrom (s : State) (vf va : Nat) : Nat → Nat → WalkRes
  | 0, _ => .fault cPGFLT rNOTVALID
  | n + 1, table =>
    let at_ := table + 8 * (va / 2 ^ (12 + 9 * n) % 512)
    match (if isHbm at_ then placeOf s at_ else .miss) with
    | .miss | .failed _ => .ue at_
    | .notReady => .wait
    | .at _ =>
      let bs := cohRd s at_ 8
      let p : W64 := BitVec.ofNat 64 (leNat (bs.map Prod.fst))
      if foreign s (s.vf vf).part.toNat at_ then .fault cPERM rXPART
      else if anyBad bs then .ue at_
      else if !pteV p then .fault cPGFLT rNOTVALID
      else match entryFault n p va with
        | some r => .fault cPGFLT r
        | none => if pteLf p then .leaf p (leafSize n (pteCtg p)) at_ else walkFrom s vf va n (ptePa p)

/-- Translate a virtual address of a VF from the root of its tables (R142). -/
def walk (s : State) (vf va : Nat) : WalkRes :=
  if 2 ^ 57 ≤ va then .fault cPGFLT rNONCANON else walkFrom s vf va 5 (s.vf vf).ptroot.toNat

/-! ## Walk caches (R165) -/

/-- A walk cache's entry for an address at a level. -/
def wcacheFind (l : List WEnt) (vf va level : Nat) : Option WEnt :=
  l.find? (fun e => e.vf == vf && e.level == level && e.key == va / 2 ^ (12 + 9 * level))

/-- Where a walk of a die's walk unit begins: behind the lowest level that its walk cache holds, else at the root. The result is the
level plus one, and the table. -/
def walkStart (s : State) (d vf va : Nat) : Nat × Nat :=
  match [1, 2, 3, 4].findSome? (wcacheFind (s.die d).wcache vf va) with
  | some e => (e.level, e.table)
  | none => (5, (s.vf vf).ptroot.toNat)

/-- Translate a virtual address in a die's walk unit (R142, R165). -/
def walkVia (s : State) (d vf va : Nat) : WalkRes :=
  if 2 ^ 57 ≤ va then .fault cPGFLT rNONCANON
  else let b := walkStart s d vf va; walkFrom s vf va b.1 b.2

/-- The non-leaf entries that a walk reads from a level down. -/
def walkTrail (s : State) (vf va : Nat) : Nat → Nat → List WEnt
  | 0, _ => []
  | n + 1, table =>
    let at_ := table + 8 * (va / 2 ^ (12 + 9 * n) % 512)
    let p : W64 := BitVec.ofNat 64 (cohNat s at_ 8)
    if !isHbm at_ || !pteV p || pteLf p || (entryFault n p va).isSome then []
    else { vf := vf, level := n, key := va / 2 ^ (12 + 9 * n), table := ptePa p } :: walkTrail s vf va n (ptePa p)

/-- The walk cache keeps the non-leaf entries that a walk has read: 512 of them, the newest first (log entry 10). -/
def keepTrail (s : State) (d vf va : Nat) : State :=
  let b := walkStart s d vf va
  let new := (walkTrail s vf va b.1 b.2).reverse
  if new.isEmpty then s
  else s.updDie d (fun x => { x with wcache := (new ++ x.wcache.filter (fun e => !new.contains e)).take 512 })

/-- The physical address that a leaf gives a virtual address. -/
def leafPa (p : W64) (size va : Nat) : Nat := ptePa p + va % 2 ^ size

/-! ## Permissions (Table 6.4) -/

/-- The permission check of an access, in table order. -/
def permReason (need : Need) (p : W64) : Option (BitVec 8) :=
  match need with
  | .load => if pteR p then none else some rNOREAD
  | .store => if pteW p then none else some rNOWRITE
  | .atomic => if pteR p && pteW p && pteA p then none else some rNOATOM
  | .reduce => if pteW p && pteA p then none else some rNOATOM
  | .loadFull => if !pteR p then some rNOREAD else if pteHome p ≠ 1 then some rNOTSCR else none
  | .storeEmpty => if !pteW p then some rNOWRITE else if pteHome p ≠ 1 then some rNOTSCR else none
  | .block => if !pteR p then some rNOREAD else if !pteW p then some rNOWRITE else none

/-- The access refuses a PRIVATE page even from its owner (R157). -/
def Need.isRmw : Need → Bool
  | .atomic | .reduce => true
  | _ => false

/-- R154: the range of an HBM4 address belongs to another partition, and the access is no uncached one to an open range. -/
def xpart (s : State) (part : Nat) (p : W64) (pa : Nat) : Bool :=
  isHbm pa && match ownerPart s pa with
    | some (q, shra) => q != part && !(shra && effHome p pa == 3)
    | none => false

/-- What an access meets on a page whose walk has passed: BADHOME of R148, then its permission. -/
def permFault (nlt : Nat) (need : Need) (p : W64) (pa : Nat) : Option (BitVec 8 × BitVec 8) :=
  if isScratch pa && decide (nlt ≤ pa / 2 ^ 19 % 512) then some (cPGFLT, rBADHOME)
  else (permReason need p).map (fun r => (cPERM, r))

/-- `permFault`, then XPART at the home directory or the memory controller (R154). -/
def accessFault (s : State) (part nlt : Nat) (need : Need) (p : W64) (pa : Nat) : Option (BitVec 8 × BitVec 8) :=
  match permFault nlt need p pa with
  | some r => some r
  | none => if xpart s part p pa then some (cPERM, rXPART) else none

/-- A translation serves an access of a requesting cluster as it stands: the page needs no classification, or is PRIVATE of
that cluster and the access is no read-modify-write, or SHARED (R155, R157). -/
def classOk (p : W64) (pa c : Nat) (need : Need) : Bool :=
  let h := effHome p pa
  if h == 0 || h == 2 then
    match pteCls p with
    | 1 => pteOwner p == c && !need.isRmw
    | 2 => true
    | _ => false
  else true

/-! ## TLBs (R165) -/

/-- The entry of a TLB for an address. -/
def tlbFind (l : List Tlb) (vf va : Nat) : Option Tlb :=
  l.find? (fun t => t.vf == vf && decide (t.va ≤ va) && decide (va < t.va + 2 ^ t.size))

/-- A TLB with one entry more: the newest first, up to a number of entries (log entry 10). -/
def tlbAdd (l : List Tlb) (t : Tlb) (n : Nat) : List Tlb :=
  (t :: l.filter (fun x => !(x.vf == t.vf && x.va == t.va && x.size == t.size))).take n

/-- A cluster TLB with one entry more: 512 sets of 8 ways, chosen by the low bits of the page number (log entry 10), and 64 entries
for pages of 1 GiB and 64 GiB. -/
def cluTlbAdd (l : List Tlb) (t : Tlb) : List Tlb :=
  let big := decide (30 ≤ t.size)
  let peer (x : Tlb) : Bool :=
    if big then 30 ≤ x.size else decide (x.size < 30) && x.va / 2 ^ x.size % 512 == t.va / 2 ^ t.size % 512
  tlbAdd (l.filter peer) t (if big then 64 else 8) ++ l.filter (fun x => !peer x)

/-- Two ranges of addresses overlap. -/
def overlaps (a n b m : Nat) : Bool := decide (a < b + m) && decide (b < a + n)

/-- Drop the entries of a VF for a range (R166). -/
def tlbDrop (l : List Tlb) (vf va n : Nat) : List Tlb :=
  l.filter (fun t => !(t.vf == vf && overlaps t.va (2 ^ t.size) va n))

/-- Drop the entries of a VF for a range in one cluster and its tiles. -/
def dropCluTlb (s : State) (c vf va n : Nat) : State :=
  let s1 := s.updClu c (fun x => { x with tlb := tlbDrop x.tlb vf va n })
  { s1 with tiles := s1.tiles.map (fun t => if cluOfTile t.1 = c then (t.1, { t.2 with utlb := tlbDrop t.2.utlb vf va n }) else t) }

/-! ## Granules of an access -/

/-- The 4 KiB granules of a byte range, as virtual addresses modulo 2^64. -/
def granules (va n : Nat) : List Nat :=
  (rangeFrom (va / 4096) ((va + (n - 1)) / 4096 + 1 - va / 4096)).map (fun g => g * 4096 % 2 ^ 64)

/-- What a translation found in a TLB says of a granule for a requesting cluster: a fault, a translation, or nothing. -/
def tlbSays (s : State) (k : Colour) (found : Option Tlb) (c va : Nat) (need : Need) : Piece :=
  if 2 ^ 57 ≤ va then .bad cPGFLT rNONCANON else
  match found with
  | none => .todo
  | some t =>
    let pa := leafPa t.pte t.size va
    match accessFault s k.part k.nlt need t.pte pa with
    | some (a, b) => .bad a b
    | none => if classOk t.pte pa c need then .ok pa t.pte else .todo

/-- What the micro-TLB of a tile and a cluster's TLB hold of an address (R165). -/
def tlbLook (s : State) (k : Colour) (tile tc va : Nat) : Option Tlb :=
  (tlbFind (s.tile tile).utlb k.vf va).orElse (fun _ => tlbFind (s.clu tc).tlb k.vf va)

/-- What the TLBs of a tile and of its cluster say of a granule at once for a requesting cluster (R155, R165). -/
def tlbPiece (s : State) (k : Colour) (tile c va : Nat) (need : Need) : Piece :=
  tlbSays s k (tlbLook s k tile (cluOfTile tile) va) c va need

/-- The granules of an access with what the TLBs give at once (R134). -/
def mkPages (s : State) (k : Colour) (tile c va n : Nat) (need : Need) : List PageRef :=
  (granules va n).map (fun g => { va := g, need := need, res := tlbPiece s k tile c g need })

/-- The translation of a byte of an access: its physical address and leaf entry. -/
def pagePa (ps : List PageRef) (va : Nat) : Option (Nat × W64) :=
  ps.findSome? (fun p => match p.res with
    | .ok pa pte => if p.va = va / 4096 * 4096 then some (pa + va % 4096, pte) else none
    | _ => none)

/-- Every granule has been translated or has faulted. -/
def pagesDone (ps : List PageRef) : Bool := ps.all (fun p => p.res != .todo && p.res != .walking)

/-- The first fault of an access in the order of its granules, with the granule's address. -/
def pagesFault (ps : List PageRef) : Option (BitVec 8 × BitVec 8 × Nat) :=
  ps.findSome? (fun p => match p.res with
    | .bad a b => some (a, b, p.va)
    | _ => none)

/-! ## Reclassification (R156) -/

/-- Write a page-table entry at its home, coherent with every copy. -/
def pteWrite (s : State) (at_ : Nat) (p : W64) : State :=
  homeWr (recallRange s at_ 8) at_ (wrAll (natBytes 8 p.toNat)) false

/-- The entry's home line is free of locks and probes. -/
def pteFree (s : State) (at_ : Nat) : Bool := rangeFree s at_ 8

/-- Drop every translation of a range of a VF that serves the owner of a PRIVATE page: those of tiles outside its cluster serve it
too (R155, R156, log entry 100). -/
def dropPriv (s : State) (o vf va n : Nat) : State :=
  let keep (l : List Tlb) : List Tlb :=
    l.filter (fun t => !(t.vf == vf && overlaps t.va (2 ^ t.size) va n && pteCls t.pte == 1 && pteOwner t.pte == o))
  { s with
    clus := s.clus.map (fun c => (c.1, { c.2 with tlb := keep c.2.tlb }))
    tiles := s.tiles.map (fun t => (t.1, { t.2 with utlb := keep t.2.utlb })) }

/-- The owner of a PRIVATE page writes back and invalidates its lines, and its translations go (steps 2 to 4 of R156). -/
def flushPage (s : State) (o vf va pa n : Nat) : State :=
  let lines := ((s.clu o).l1.filter (fun l => overlaps (128 * l.line) 128 pa n)).map (·.line)
  dropPriv (lines.foldl (fun s l => l1Evict s o l) s) o vf va n

/-- A translation of a page that has become SHARED. -/
def sharePiece (pa n : Nat) (x : PageRef) : PageRef :=
  match x.res with
  | .ok a pte => if pteCls pte = 1 && overlaps a 4096 pa n then { x with res := .ok a (pteClassify pte 2 (pteOwner pte)) } else x
  | _ => x

/-- A walk that has found a page that has become SHARED. -/
def shareWalk (pa n : Nat) (w : Walk) : Walk :=
  match w.st with
  | .done a pte x => if pteCls pte = 1 && overlaps a 4096 pa n then { w with st := .done a (pteClassify pte 2 (pteOwner pte)) x } else w
  | _ => w

/-- A copy command whose translations follow. -/
def shareItem (pa n : Nat) (x : QItem) : QItem :=
  match x with
  | .cmd c => .cmd { c with pages := c.pages.map (sharePiece pa n) }
  | .fence i => .fence i

/-- The translations that requests and copy commands carry of a page that has become SHARED follow it: later accesses find it so
(R156). -/
def shareAll (s : State) (pa n : Nat) : State :=
  let q (k : Colour) : Colour := { k with
    copyq := k.copyq.map (fun y => (y.1, { y.2 with items := y.2.items.map (shareItem pa n) })) }
  { s with
    reqs := s.reqs.map (fun r => (r.1, { r.2 with pages := r.2.pages.map (sharePiece pa n) }))
    dies := s.dies.map (fun d => (d.1, { d.2 with walks := d.2.walks.map (shareWalk pa n) }))
    cols := s.cols.map (fun k => (k.1, q k.2)) }

/-- Reclassify a page to SHARED: flush its owner, write the entry, and let translations follow. -/
def reclassify (s : State) (vf va : Nat) (p : W64) (size at_ : Nat) : State :=
  let base := va - va % 2 ^ size
  shareAll (pteWrite (flushPage s (pteOwner p) vf base (ptePa p) (2 ^ size)) at_ (pteClassify p 2 (pteOwner p))) (ptePa p) (2 ^ size)

end Sys2Proof.Machine
end

