-- ==== Sys2Proof/Machine/Touch.lean ====
section
/-! DEFINITION. What a request of the wave store buffer is and which bytes it touches: the fields of its stake word, of a tensor map
and of a line descriptor, its elements and its physical ranges (R131, R173, R174, R314, R426, R483). -/

namespace Sys2Proof.Machine

/-! ## Fields of a request -/

/-- The opcode of a request. -/
def Request.opcode (r : Request) : Nat := (r.word.extractLsb' 120 8).toNat

/-- The common fields of a request's stake word. -/
def Request.common (r : Request) : Common := Common.ofWord r.word

/-- XF of the memory class of a request. -/
def Request.mem (r : Request) : MemX := MemX.ofBits (r.word.extractLsb' 0 35)

/-- The request holds an entry of its buffer (R133): a MEMNOP until it links, a PREF until it issues, a ST, STT, TMST or STE until it
has performed, a CPY, CPYWP or QFENCE until its queue has accepted it, and any other until its results have left. -/
def Request.holdsEntry (r : Request) : Bool :=
  match r.phase with
  | .chan => false
  | .held | .issued => true
  | .performed => !([0x71, 0x73, 0x75, 0x76, 0x77, 0x80, 0x81, 0x82, 0x91].contains r.opcode)

/-- The access has performed (R133, R168). -/
def Request.isPerformed (r : Request) : Bool := r.phase == .performed

/-- ORD of a wave-ordered request; a FENCE has none. -/
def Request.ord (r : Request) : Nat := if r.opcode = 0x78 then 0 else r.mem.ord.toNat

/-- An acquire (R173, R185). -/
def Request.isAcquire (r : Request) : Bool := r.ord == 1 || r.ord == 3

/-- A release (R174). -/
def Request.isRelease (r : Request) : Bool := r.ord == 2 || r.ord == 3

/-! ## Fields of a tensor-map register (Table 13.6) -/

/-- BASE. -/
def tmBase (m : W512) : Nat := fld m 0 57
/-- ETY. -/
def tmEty (m : W512) : Ty := Ty.ofCode (m.extractLsb' 57 4)
/-- RANK. -/
def tmRank (m : W512) : Nat := fld m 61 3
/-- BLO. -/
def tmBlo (m : W512) : Nat := fld m 64 57
/-- BHI. -/
def tmBhi (m : W512) : Nat := fld m 121 57
/-- R. -/
def tmR (m : W512) : Bool := m.getLsbD 178
/-- W. -/
def tmW (m : W512) : Bool := m.getLsbD 179
/-- EXTd. -/
def tmExt (m : W512) (d : Nat) : Nat := fld m (212 + 60 * d) 24
/-- STRIDEd as its 36 bits. -/
def tmStrideBits (m : W512) (d : Nat) : Nat := fld m (236 + 60 * d) 36
/-- STRIDEd, in two's complement (R483). -/
def tmStride (m : W512) (d : Nat) : Int := toSigned 36 (tmStrideBits m d)

/-- Bytes of an element, one for an E2M1 pair (R483). -/
def tmBytes (m : W512) : Nat := max 1 ((tmEty m).width / 8)

/-- The start coordinate of a dimension (R483). -/
def tmCoord (op : W512) (d : Nat) : Int := toSigned 32 (lane op 32 d)

/-- The elements in bounds: their lanes and addresses (R483). -/
def tmElems (m op : W512) : List (Nat × Int) :=
  let rest := (rangeFrom 1 (tmRank m - 1))
  let outer : Int := (rest.map (fun d => tmCoord op d * tmStride m d)).foldl (· + ·) 0
  let inside := rest.all (fun d => decide (0 ≤ tmCoord op d) && decide (tmCoord op d < tmExt m d))
  if !inside then [] else
  (List.range (tmEty m).lanes).filterMap (fun (k : Nat) =>
    let c0 : Int := tmCoord op 0 + Int.ofNat k
    if 0 ≤ c0 ∧ c0 < tmExt m 0 then
      some (k, (tmBase m : Int) + (if tmEty m = .e2m1 then c0 / 2 else c0 * tmStride m 0) + outer)
    else none)

/-! ## Fields of a line descriptor (Table 17.3) -/

/-- SRC or DST of the descriptor of Table 17.3. -/
def ldtAddr (d : W512) : Nat := fld d 0 64
/-- FE. -/
def ldtFe (d : W512) : Bool := d.getLsbD 95
/-- NL. -/
def ldtNl (d : W512) : Nat := fld d 80 13
/-- LINE. -/
def ldtLine (d : W512) : Nat := fld d 64 13

/-! ## What a request touches -/

/-- One element of an access: where its bits lie in the operand, its virtual address and its bytes. -/
structure Cell where
  /-- First bit in the 512-bit operand. -/
  bit : Nat
  /-- Virtual address. -/
  va : Nat
  /-- Bytes. -/
  n : Nat
  deriving DecidableEq, Repr

/-- The opcode is TMLD or TMST. -/
def Request.isTm (r : Request) : Bool := r.opcode == 0x90 || r.opcode == 0x91

/-- The opcode is LDT or STT. -/
def Request.isLine (r : Request) : Bool := r.opcode == 0x72 || r.opcode == 0x73

/-- The opcode is LDF or STE. -/
def Request.isFe (r : Request) : Bool := r.opcode == 0x74 || r.opcode == 0x75

/-- The opcode is a single-location atomic or reduction (R188). -/
def Request.isRmw (r : Request) : Bool := [0x7A, 0x7B, 0x7C, 0x7E, 0x7F].contains r.opcode

/-- The elements of an access: one for a plain access, and those in bounds for a tensor map, an E2M1 pair being one byte
(R422, R471, R483, R488). -/
def Request.cells (r : Request) : List Cell :=
  if r.isTm then
    ((tmElems r.tm r.opa).filter (fun e => tmEty r.tm != .e2m1 || e.1 % 2 == 0)).map (fun e =>
      { bit := e.1 * (tmEty r.tm).width, va := (e.2 % 2 ^ 64).toNat, n := tmBytes r.tm })
  else [{ bit := 0, va := (n64 r.opa 0).toNat, n := szBytes r.mem.sz }]

/-- Physical address of the scratch of a logical tile (Table 6.1). -/
def scratchPa (lt off : Nat) : Nat := 0xF000000000000 + lt * 2 ^ 19 + off

/-- The physical parts of a virtual range, by its translated pages. -/
def physParts (ps : List PageRef) (a n : Nat) : List (Nat × Nat) :=
  ps.filterMap (fun p => match p.res with
    | .ok pa _ => if overlaps a n p.va 4096 then some (pa + (max a p.va - p.va), min (a + n) (p.va + 4096) - max a p.va) else none
    | _ => none)

/-- The physical byte ranges that R131 compares. -/
def Request.ranges (r : Request) : List (Nat × Nat) :=
  if r.isTm then r.cells.flatMap (fun c => physParts r.pages c.va c.n)
  else if r.isLine then
    physParts r.pages (ldtAddr r.opa) (64 * ldtNl r.opa) ++ [(scratchPa (r.lstake.toNat / 128) (64 * ldtLine r.opa), 64 * ldtNl r.opa)]
  else if r.isFe then
    (physParts r.pages (n64 r.opa 0).toNat (szBytes r.mem.sz)).map (fun p => (p.1 / 64 * 64, 64))
  else if r.opcode = 0x70 ∨ r.opcode = 0x71 ∨ r.isRmw then physParts r.pages (n64 r.opa 0).toNat (szBytes r.mem.sz)
  else []

/-- Two requests touch a common byte. -/
def Request.overlaps (a b : Request) : Bool :=
  a.ranges.any (fun x => b.ranges.any (fun y => Sys2Proof.Machine.overlaps x.1 x.2 y.1 y.2))

end Sys2Proof.Machine
end

