-- ==== Sys2Proof/Machine/DevAccess.lean ====
section
/-! DEFINITION. The device's own accesses: physical areas, the address space of a VF (R523), the host port's translations and
the messages to the host and to peers (R175, R176, R279, R303). -/

namespace Sys2Proof.Machine

/-! ## Physical areas -/

/-- Write bytes at a physical address for the device itself: copies in caches are recalled first. -/
def physWr (s : State) (pa : Nat) (bs : List Byte) : State := homeWr (recallRange s pa bs.length) pa (wrAll bs) false

/-- Write a little-endian number of `n` bytes at a physical address. -/
def physPut (s : State) (pa n v : Nat) : State := physWr s pa (natBytes n v)

/-- Count an access to HBM4 that no range covers, or that meets a failed stack (R162, R341), or a table entry in error (R349). -/
def countMiss (s : State) (pa die : Nat) : State :=
  if !isHbm pa then s
  else match placeOf s pa with
    | .miss => s.updDie die (fun d => { d with artmiss := countUp d.artmiss 1 })
    | .failed d => s.updDie d (fun d => { d with artmiss := countUp d.artmiss 1 })
    | .at _ => noteUe s pa 8
    | .notReady => s

/-- The state of an HBM4 address for an access: usable, waiting for its stack, or raising UE (R162, R341). -/
def hbmUsable (s : State) (pa : Nat) : Bool :=
  match placeOf s pa with
  | .at _ => true
  | _ => false

/-- Its stack is not ready: the access waits at the memory controller. -/
def hbmWaits (s : State) (pa : Nat) : Bool :=
  match placeOf s pa with
  | .notReady => true
  | _ => false

/-- Some byte of a physical range lies on a stack that is not ready: ranges of the table are laid out in granules of 256 bytes or more
(R160, R341). -/
def physWaits (s : State) (pa n : Nat) : Bool :=
  (rangeFrom (pa / 256) ((pa + n - 1) / 256 + 1 - pa / 256)).any (fun g => hbmWaits s (256 * g))

/-! ## Substitution (R163, Table 6.10) -/

/-- The substituted byte at an address, by the TY of the request. -/
def substByte (ty : Ty) (subn : Bool) (pa : Nat) : Byte :=
  if !subn then 0 else
  match ty with
  | .f64 => match pa % 8 with
    | 7 => 0x7F
    | 6 => 0xF8
    | _ => 0
  | .f32 => match pa % 4 with
    | 3 => 0x7F
    | 2 => 0xC0
    | _ => 0
  | .bf16 => if pa % 2 = 1 then 0x7F else 0xC0
  | .f16 => if pa % 2 = 1 then 0x7E else 0
  | .e4m3 => 0x7F
  | .e5m2 => 0x7E
  | _ => 0

/-- Bytes delivered from a page with TOL: those in error are substituted. -/
def substitute (ty : Ty) (subn : Bool) (pa : Nat) (bs : List RdByte) : List Byte :=
  (bs.zipIdx).map (fun b => if b.1.2 then substByte ty subn (pa + b.2) else b.1.1)

/-- Count a substitution of a partition. -/
def countTol (s : State) (p : Nat) : State := s.updPart p (fun x => { x with tolsub := countUp x.tolsub 1 })

/-! ## The host port's translations (R279) -/

/-- What the ATS translation cache says. -/
inductive AtsRes where
  /-- Translated to this host page. -/
  | ok (xlat : Nat)
  /-- The page request has failed: HOSTPF. -/
  | failed (s : State)
  /-- The access waits. -/
  | wait (s : State)

/-- Translate a host page; a miss sends a Translation Request. -/
def atsGet (s : State) (page : Nat) (write : Bool) : AtsRes :=
  match s.host.ats.find? (fun e => e.page == page && (if write then e.w else e.r)) with
  | some e => .ok e.xlat
  | none =>
    if s.host.priFailed.contains page then .failed { s with host := { s.host with priFailed := setDel s.host.priFailed page } }
    else if s.host.atsAsked.contains (page, write) || s.host.priAsked.contains page then .wait s
    else .wait { s with host := { s.host with atsAsked := s.host.atsAsked ++ [(page, write)] } }

/-- The host page of a host-window address. -/
def hostPage (pa : Nat) : Nat := pa % 2 ^ 50 / 4096

/-! ## Messages out of the package -/

/-- Count a write to the host or a peer in its colour's epoch (R175). -/
def ackUp (s : State) (c : Nat) : State × Option Bool :=
  match s.col? c with
  | none => (s, none)
  | some k => (s.updCol c (fun x => if k.ep then { x with out1 := x.out1 + 1 } else { x with out0 := x.out0 + 1 }), some k.ep)

/-- An epoch of a colour can take one write more (R175). -/
def ackRoom (s : State) (c : Nat) : Bool :=
  match s.col? c with
  | none => true
  | some k => (if k.ep then k.out1 else k.out0) != 0xFFFF

/-- One write of an epoch has been acknowledged (R175). -/
def ackDown (s : State) (c : Nat) (e : Option Bool) : State :=
  match e with
  | none => s
  | some b => s.updCol c (fun x => if b then { x with out1 := x.out1 - 1 } else { x with out0 := x.out0 - 1 })

/-- The writes of a request that ACKOUT counts and that have not been sent count no longer: the request goes (R175). -/
def dropAcks (s : State) (r : Request) : State := r.acks.foldl (fun s e => ackDown s r.colour.toNat (some e)) s

/-- Count writes from their issue, each while its epoch has room: the epochs of those counted (R175). -/
def ackUps (s : State) (c : Nat) : Nat → State × List Bool
  | 0 => (s, [])
  | n + 1 =>
    if !ackRoom s c then (s, [])
    else match ackUp s c with
      | (s1, some e) => let x := ackUps s1 c n; (x.1, e :: x.2)
      | (s1, none) => (s1, [])

/-- One look at the waits of R175: the state of the wait after it, with the colour's epochs. -/
def syLook (k : Colour) (sy : BitVec 2) (e : Bool) : BitVec 2 × Bool :=
  let out (b : Bool) : BitVec 16 := if b then k.out1 else k.out0
  let first := sy == 1 && out (!e) == 0
  let ep := if first then !e else k.ep
  if first then (if out e = 0 then 3 else 2, ep)
  else if sy = 2 && out e = 0 then (3, ep)
  else (sy, ep)

/-- The message is a write or an atomic: ACKOUT counts it and the store of R176 keeps it. -/
def MsgKind.writes : MsgKind → Bool
  | .read _ => false
  | _ => true

/-- The fixed wicker port of a target's line (R303). -/
def portFor (pa : Nat) : Nat := Config.portHash (pa / 2 ^ 40) (pa / 64) % 36

/-- First address of pooled memory (R301). -/
def poolBase : Nat := 0xD000000000000

/-- The target of an address in a peer window: a device and an offset in its window, or an offset in pooled memory, for which R302
gives no device number (R301; log entry 105). -/
def peerTarget (pa : Nat) : Option Nat × Nat :=
  if pa < poolBase then (some (pa / 2 ^ 40 % 256), pa % 2 ^ 40) else (none, pa - poolBase)

/-- The bytes of a message's access. -/
def MsgKind.bytes : MsgKind → Nat
  | .read n | .write n _ | .atomic _ _ _ n => n

/-- Table 12.8: the message that an outbound request is. -/
def wmsgOf (o : Outbound) : WMsg :=
  { ty := match o.kind with
      | .read _ => 0
      | .write _ _ => 2
      | .atomic _ _ _ _ => 4
    src := Config.devNumber, dst := (peerTarget o.addr).1, tag := o.tag, reis := o.reis, off := (peerTarget o.addr).2, size := o.kind.bytes
    op := match o.kind with
      | .atomic opc ty aop _ => some (opc, ty, aop)
      | _ => none
    mask := match o.kind with
      | .write _ m => m
      | _ => 0
    status := 0, data := o.data }

/-- The completion cache of a port is full (R303). -/
def WPort.cacheFull (w : WPort) : Bool := decide (4096 ≤ w.cache.length)

/-- A port with one message more sent, in a flit of its own (R302; log entry 105): the 64 newest flits are kept. -/
def WPort.send (w : WPort) (m : WMsg) : WPort :=
  { w with sent := m :: w.sent, seq := w.seq + 1, kept := ({ seq := w.seq, credit := !w.cacheFull, msg := m } :: w.kept).take 64 }

/-- Record that a wicker port has sent a message. -/
def wickSend (s : State) (p : Nat) (m : WMsg) : State :=
  { s with wick := { s.wick with ports := mapPut s.wick.ports p ((mapGet s.wick.ports p WPort.reset).send m) } }

/-- REL follows the response of a write or an atomic once it has been consumed (R303). -/
def sendRel (s : State) (o : Outbound) : State :=
  if isHost o.addr || !o.kind.writes then s
  else wickSend s (portFor o.addr) { wmsgOf o with ty := 6, reis := false, size := 0, op := none, mask := 0, data := 0 }

/-- The store of R176 has room for every host write and AtomicOp outstanding. -/
def storeRoom (s : State) : Bool :=
  decide (s.host.store.length + (s.host.out.filter (fun o => o.kind.writes && !o.recorded)).length < 512)

/-- The VF for which a unit of the device acts: a VF's own units, the queue of a copy engine, or the request of a solder engine. -/
def unitVf (s : State) (u : Nat) : Option Nat :=
  if u < 4096 then none
  else if u < 8192 then some (u - 4096)
  else if u < 16384 then none
  else if u < 131072 then (s.col? ((u - 16384) / 16)).map (·.vf)
  else (s.req? (u - 131072)).bind (fun r => (s.col? r.colour.toNat).map (·.vf))

/-- The IDE stream on which a VF's DMA carries the T bit: in RUN (R298). -/
def vfStream (s : State) (v : Option Nat) : Option W64 :=
  match v with
  | some v => if (s.vf v).tdi == .run then (s.vf v).stream else none
  | none => none

/-- The IDE stream of a message of a colour's unit or of the device's. -/
def outStream (s : State) (c : Nat) (who : Waiting) : Option W64 :=
  vfStream s (match who with
    | .device u => unitVf s u
    | _ => (s.col? c).map (·.vf))

/-- A message as it is sent. -/
def newOut (s : State) (tag c : Nat) (who : Waiting) (kind : MsgKind) (pa : Nat) (data : W512) (page : Option Nat) (e : Option Bool)
    (poison : Bool) : Outbound :=
  { tag := tag, colour := BitVec.ofNat 12 c, who := who, kind := kind, addr := pa, page := page, data := data, recorded := false,
    epoch := e, reis := false, poison := poison, stream := outStream s c who, late := none }

/-- The first number from `t` on, modulo `m`, that a test accepts, among `n`. -/
def freeFrom (m : Nat) (p : Nat → Bool) : Nat → Nat → Nat
  | 0, t => t % m
  | n + 1, t => if p (t % m) then t % m else freeFrom m p n (t + 1)

/-- A tag of the host port that no request outstanding and no entry of the store holds: 14 bits (R176, R278). -/
def hostTag (s : State) : Nat :=
  freeFrom 16384 (fun t => !(s.host.out.any (fun o => o.tag == t) || s.host.store.any (fun e => e.tag == t))) 16384 s.host.nextTag

/-- Some request to a peer holds a TAG: one outstanding, or one that a cut has recorded and a resume will send again (R176). -/
def tagHeld (s : State) (t : Nat) : Bool :=
  (s.wick.out ++ s.reis).any (fun o => o.tag == t) || s.saved.any (fun x => x.2.outs.any (fun o => o.tag == t && isPeer o.addr))

/-- A TAG that no unreleased request to a peer holds: 32 bits (R302). -/
def wickTag (s : State) : Nat := freeFrom (2 ^ 32) (fun t => !tagHeld s t) 16384 s.wick.nextTag

/-- A message to an address off the package finds a tag (R278). -/
def tagRoom (s : State) (pa : Nat) : Bool := !isHost pa || decide (s.host.out.length + s.host.store.length < 16384)

/-- Send a request to the host or to a peer: a tag and its place among those outstanding. `page` is the host page whose translation it
uses, `e` the epoch in which ACKOUT counts it. The result is the tag. -/
def sendOut (s : State) (c : Nat) (who : Waiting) (kind : MsgKind) (pa : Nat) (data : W512) (page : Option Nat) (e : Option Bool)
    (poison : Bool := false) : State × Nat :=
  if isHost pa then
    let t := hostTag s
    ({ s with host := { s.host with out := s.host.out ++ [newOut s t c who kind pa data page e poison], nextTag := (t + 1) % 16384 } }, t)
  else
    let t := wickTag s
    let o := newOut s t c who kind pa data page e poison
    (wickSend { s with wick := { s.wick with out := s.wick.out ++ [o], nextTag := (t + 1) % 2 ^ 32 } } (portFor pa) (wmsgOf o), t)

/-- The message is one of the device's own. -/
def Outbound.own (o : Outbound) : Bool :=
  match o.who with
  | .device _ => true
  | _ => false

/-- The host-window address of a translated host page. -/
def hostAt (xlat pa : Nat) : Nat := 0x8000000000000 + xlat * 4096 % 2 ^ 50 + pa % 4096

/-! ## The device's own accesses to a VF's address space (R523) -/

/-- A unit that makes the device's own accesses: its number, the die that its misses count on and its partition. -/
structure DevUnit where
  /-- Its number among the units that await messages. -/
  unit : Nat
  /-- Its die (R162). -/
  die : Nat
  /-- Its partition. -/
  part : Nat
  deriving DecidableEq, Repr

/-- The outcome of a device access. -/
inductive DevRes where
  /-- Done, with the bytes read. -/
  | ok (bs : List Byte) (s : State)
  /-- A fault at a virtual address. -/
  | fault (cause reason : BitVec 8) (va : Nat) (s : State)
  /-- It waits. -/
  | wait (s : State)

/-- A range cut at page boundaries: virtual addresses with lengths. -/
def pagePieces (va n : Nat) : List (Nat × Nat) :=
  (rangeFrom (va / 4096) ((va + (n - 1)) / 4096 + 1 - va / 4096)).map (fun g =>
    let lo := max va (g * 4096)
    (lo, min (va + n) (g * 4096 + 4096) - lo))

/-- The translations of a device access: addresses, entries and lengths. -/
inductive DevXlat where
  | ok (ps : List (Nat × W64 × Nat)) (s : State)
  | fault (cause reason : BitVec 8) (va : Nat) (s : State)
  | wait (s : State)

/-- The owner still has accesses to the page that have issued and not performed (R156). -/
def pageBusy (s : State) (o pa n : Nat) : Bool :=
  s.reqs.any (fun r => r.2.home == o && r.2.phase == .issued && r.2.ranges.any (fun x => overlaps x.1 x.2 pa n))

/-- How the reclassification of a PRIVATE page for a unit of a partition ends (R156). -/
inductive ShareRes where
  /-- The page is SHARED. -/
  | ok (s : State)
  /-- Its owner lies in another partition: XPART. -/
  | xpart
  /-- The owner's issued accesses or the entry's home line keep it waiting. -/
  | wait

/-- Reclassify a page found PRIVATE for a unit of a partition: steps 1 to 5 of R156. -/
def sharePage (s : State) (part : Option Nat) (vf va : Nat) (p : W64) (size at_ : Nat) : ShareRes :=
  if partOfClu s (pteOwner p) != part then .xpart
  else if pageBusy s (pteOwner p) (ptePa p) (2 ^ size) || !pteFree s at_ then .wait
  else .ok (reclassify s vf va p size at_)

/-- The units of a VF: its job unit and its event writer. Their die is that of its partition's lowest cluster (R162). -/
def vfUnit (s : State) (vf : Nat) : DevUnit :=
  { unit := 4096 + vf, die := dieOfClu ((s.part (s.vf vf).part.toNat).clusters.headD 0), part := (s.vf vf).part.toNat }

/-- The units of the physical function: on die 0, as the PCI Express port (R162). -/
def pfUnit : DevUnit := { unit := 8192, die := 0, part := 64 }

/-- Translate one piece: a page found PRIVATE is reclassified first, as R156 says with the unit in the place of c; `home0` asks for an
effective HOME of 0 (R76, R250, R523). -/
def devXlat1 (s : State) (vf va : Nat) (write home0 : Bool) : DevXlat :=
  match walk s vf va with
  | .wait => .wait s
  | .fault c r => .fault c r va s
  | .ue at_ => .fault cUE 0 va (countMiss s at_ (vfUnit s vf).die)
  | .leaf p size at_ =>
    let part := (s.vf vf).part.toNat
    let pa := leafPa p size va
    if isScratch pa || (home0 && effHome p pa != 0) then .fault cPGFLT rBADHOME va s
    else match permReason (if write then .store else .load) p with
      | some r => .fault cPERM r va s
      | none =>
        if (effHome p pa == 0 || effHome p pa == 2) && pteCls p == 1 then
          match sharePage s (some part) vf va p size at_ with
          | .xpart => .fault cPERM rXPART va s
          | .wait => .wait s
          | .ok s1 => if xpart s part p pa then .fault cPERM rXPART va s1 else .ok [(pa, p, 0)] s1
        else if xpart s part p pa then .fault cPERM rXPART va s
        else .ok [(pa, p, 0)] s

/-- Translate every piece. -/
def devXlat (s : State) (vf : Nat) (write home0 : Bool) : List (Nat × Nat) → DevXlat
  | [] => .ok [] s
  | (va, n) :: rest =>
    match devXlat1 s vf va write home0 with
    | .ok ps s1 => match devXlat s1 vf write home0 rest with
      | .ok qs s2 => .ok (ps.map (fun p => (p.1, p.2.1, n)) ++ qs) s2
      | r => r
    | r => r

/-- The place of a 64-byte chunk among what the reads of a unit have brought. -/
def devKey (unit chunk : Nat) : Nat := unit * 2 ^ 46 + chunk

/-- The 64-byte chunks of a range. -/
def chunksOf (pa n : Nat) : List Nat := rangeFrom (pa / 64) ((pa + n - 1) / 64 + 1 - pa / 64)

/-- Bytes that earlier reads of a unit have brought from the host or a peer, or the refusal that they met; otherwise the reads are
sent, as far as tags are free. -/
def outsideRead (s : State) (unit va pa n : Nat) (page : Option Nat) : DevRes :=
  let brought (k : Nat) : Option DevAns := mapGet? s.host.devData (devKey unit k)
  match (chunksOf pa n).findSome? (fun k => (brought k).bind (·.bad)) with
  | some (c, r) => .fault c r va s
  | none =>
    let lack := (chunksOf pa n).filter (fun k => (brought k).isNone)
    if lack.isEmpty then
      .ok ((rangeFrom pa n).map (fun a => match brought (a / 64) with
        | some x => x.bs.getD (a % 64) 0
        | none => 0)) s
    else
      let go (s : State) (k : Nat) : State :=
        if (s.host.out ++ s.wick.out).any (fun o => o.who == .device unit && o.addr == 64 * k) || !tagRoom s (64 * k) then s
        else (sendOut s 0 (.device unit) (.read 64) (64 * k) 0 page none).1
      .wait (lack.foldl go s)

/-- What a unit has read of a range off the package has been used. -/
def outsideDrop (s : State) (unit pa n : Nat) : State :=
  let a := if isHost pa then (match atsGet s (hostPage pa) false with
    | .ok x => hostAt x pa
    | _ => pa) else pa
  if isRemote pa then { s with host := { s.host with devData := (chunksOf a n).foldl (fun m k => mapDel m (devKey unit k)) s.host.devData } }
  else s

/-- Read one piece for a unit. -/
def devRead1 (s : State) (u : DevUnit) (va pa : Nat) (p : W64) (n : Nat) : DevRes :=
  if isHost pa then
    match atsGet s (hostPage pa) false with
    | .ok x => outsideRead s u.unit va (hostAt x pa) n (some (hostPage pa))
    | .failed s1 => .fault cPGFLT rHOSTPF va s1
    | .wait s1 => .wait s1
  else if isPeer pa then outsideRead s u.unit va pa n none
  else if hbmWaits s pa then .wait s
  else if !hbmUsable s pa then .fault cUE 0 va (countMiss s pa u.die)
  else if !rangeFree s pa n then .wait s
  else
    let s1 := if effHome p pa = 3 then s else recallRange s pa n
    let bs := homeRd s1 pa n
    if !anyBad bs then .ok (bs.map Prod.fst) s1
    else if pteTol p then .ok (substitute .x false pa bs) (countTol (noteUe s1 pa n) u.part)
    else .fault cUE 0 va (noteUe s1 pa n)

/-- Read every piece. -/
def devReadAll (s : State) (u : DevUnit) (va : Nat) : List (Nat × W64 × Nat) → DevRes
  | [] => .ok [] s
  | (pa, p, n) :: rest =>
    match devRead1 s u va pa p n with
    | .ok bs s1 => match devReadAll s1 u (va + n) rest with
      | .ok cs s2 => .ok (bs ++ cs) s2
      | r => r
    | r => r

/-- Read translated pieces for a unit: what it has brought from outside is used. -/
def devReadPieces (s : State) (u : DevUnit) (va : Nat) (ps : List (Nat × W64 × Nat)) : DevRes :=
  let drop (s : State) : State := ps.foldl (fun s p => outsideDrop s u.unit p.1 p.2.2) s
  match devReadAll s u va ps with
  | .ok bs s1 => .ok bs (drop s1)
  | .fault c r a s1 => .fault c r a (drop s1)
  | .wait s1 => .wait s1

/-- Read `n` bytes of a VF's address space for the device itself. -/
def devRead (s : State) (vf va n : Nat) (home0 : Bool := false) : DevRes :=
  match devXlat s vf false home0 (pagePieces va n) with
  | .ok ps s1 => devReadPieces s1 (vfUnit s1 vf) va ps
  | .fault c r a s1 => .fault c r a s1
  | .wait s1 => .wait s1

/-- Look at bytes of a VF's address space for the device itself: what its unit has brought from outside stays. -/
def devPeek (s : State) (vf va n : Nat) : DevRes :=
  match devXlat s vf false false (pagePieces va n) with
  | .ok ps s1 => devReadAll s1 (vfUnit s1 vf) va ps
  | .fault c r a s1 => .fault c r a s1
  | .wait s1 => .wait s1

/-- A piece can be written now: 0 yes, 1 it waits, 2 it faults. -/
def devCanWrite (s : State) (pa n : Nat) : Nat :=
  if isHost pa then 0 else if isPeer pa then 0
  else if hbmWaits s pa then 1 else if !hbmUsable s pa then 2 else if rangeFree s pa n then 0 else 1

/-- Write one piece for a unit: host and peer writes are posted. -/
def devWrite1 (s : State) (unit pa : Nat) (p : W64) (bs : List Byte) : State :=
  if isHost pa then
    let a := match atsGet s (hostPage pa) true with
      | .ok x => hostAt x pa
      | _ => pa
    { s with host := { s.host with sent := { addr := a % 2 ^ 50, bs := bs, stream := vfStream s (unitVf s unit) } :: s.host.sent } }
  else if isPeer pa then
    (sendOut s 0 (.device unit) (.write bs.length (BitVec.ofNat 64 (2 ^ bs.length - 1))) pa (bytesData bs) none none).1
  else homeWr (if effHome p pa = 3 then s else recallRange s pa bs.length) pa (wrAll bs) (pteTol p)

/-- A piece cut into parts that a message can carry: at most 64 bytes of one 64-byte block each. -/
def blockParts : Nat → Nat → List Byte → List (Nat × List Byte)
  | 0, _, _ => []
  | k + 1, pa, bs =>
    let n := 64 - pa % 64
    if bs.isEmpty then [] else (pa, bs.take n) :: blockParts k (pa + n) (bs.drop n)

/-- Write every piece. -/
def devWriteAll (s : State) (unit : Nat) : List (Nat × W64 × Nat) → List Byte → State
  | [], _ => s
  | (pa, p, n) :: rest, bs =>
    let parts := if isPeer pa then blockParts (n / 64 + 2) pa (bs.take n) else [(pa, bs.take n)]
    devWriteAll (parts.foldl (fun s x => devWrite1 s unit x.1 p x.2) s) unit rest (bs.drop n)

/-- The first host page of a write that has still to be translated, or has failed. -/
def devHostCheck (s : State) : List (Nat × W64 × Nat) → AtsRes
  | [] => .ok 0
  | (pa, _, _) :: rest =>
    if isHost pa then
      match atsGet s (hostPage pa) true with
      | .ok _ => devHostCheck s rest
      | r => r
    else devHostCheck s rest

/-- Write bytes to translated pieces for a unit: nothing is written unless every piece can be. -/
def devWritePieces (s : State) (u : DevUnit) (va : Nat) (ps : List (Nat × W64 × Nat)) (bs : List Byte) : DevRes :=
  match devHostCheck s ps with
  | .failed s1 => .fault cPGFLT rHOSTPF va s1
  | .wait s1 => .wait s1
  | .ok _ =>
    if ps.any (fun p => devCanWrite s p.1 p.2.2 == 2) then .fault cUE 0 va (ps.foldl (fun s p => countMiss s p.1 u.die) s)
    else if ps.any (fun p => devCanWrite s p.1 p.2.2 == 1) then .wait s
    else .ok [] (devWriteAll s u.unit ps bs)

/-- Write bytes of a VF's address space for the device itself. -/
def devWrite (s : State) (vf va : Nat) (bs : List Byte) (home0 : Bool := false) : DevRes :=
  match devXlat s vf true home0 (pagePieces va bs.length) with
  | .fault c r a s1 => .fault c r a s1
  | .wait s1 => .wait s1
  | .ok ps s1 => devWritePieces s1 (vfUnit s1 vf) va ps bs

/-! ## Accesses at physical addresses (R280, R288, R295, R341) -/

/-- A physical range as pieces: it is cached as a HOME 0 page is. -/
def paPieces (pa n : Nat) : List (Nat × W64 × Nat) := (pagePieces pa n).map (fun x => (x.1, 0, x.2))

/-- Read a physical range for a unit: HBM4, the host window under ATS, or a peer window. -/
def paRead (s : State) (u : DevUnit) (pa n : Nat) : DevRes :=
  if isReserved pa || isScratch pa then .fault cPGFLT rBADHOME pa s else devReadPieces s u pa (paPieces pa n)

/-- Look at a physical range for a unit: what it has brought from outside stays for a longer read. -/
def paPeek (s : State) (u : DevUnit) (pa n : Nat) : DevRes :=
  if isReserved pa || isScratch pa then .fault cPGFLT rBADHOME pa s else devReadAll s u pa (paPieces pa n)

/-- Write a physical range for a unit. -/
def paWrite (s : State) (u : DevUnit) (pa : Nat) (bs : List Byte) : DevRes :=
  if isReserved pa || isScratch pa then .fault cPGFLT rBADHOME pa s else devWritePieces s u pa (paPieces pa bs.length) bs

end Sys2Proof.Machine
end

