-- ==== Sys2Proof/Machine/Raise.lean ====
section
/-! DEFINITION. Raising events: the event buffers of the functions, the hold ring of a paused VF, and the events whose raising
units wait for a place (R288, R290, R292). -/

namespace Sys2Proof.Machine

/-! ## Requests to the BAR of a VF (R278, R298) -/

/-- Number that names the physical function's own queues in the model's device steps. -/
def pfQ : Nat := 1024

/-- A host request to a BAR names it in bits [31:0] of its first argument (log entry 1). -/
def barNum (x : W64) : Nat := x.toNat % 2 ^ 32

/-- The BAR of a VF takes a request: none in ERROR, and in RUN those with the T bit, bit 62, on the VF's IDE stream, which bits
[55:48] number (Table 12.7, log entry 1). -/
def barOpen (s : State) (v : Nat) (x : W64) : Bool :=
  let f := s.vf v
  v == pfQ || (f.tdi != .error && (f.tdi != .run || (x.getLsbD 62 && f.stream == some ((x.extractLsb' 48 8).setWidth 64))))

/-- A request of the host completes with Unsupported Request and changes nothing else (R278, R298). -/
def hostUr (s : State) (x : W64) : State := { s with host := { s.host with ur := x :: s.host.ur } }

/-- A host request to a BAR: one that the BAR does not take completes with Unsupported Request (Table 12.7). -/
def barReq (s : State) (v : Nat) (x : W64) (body : State → State) : State := if barOpen s v x then body s else hostUr s x

/-! ## Events -/

/-- The event with every field zero. -/
def Event.zero : Event :=
  { ty := 0, status := 0, gen := 0, colidx := 0, id := 0, frame := 0, cause := 0, reason := 0, addr := 0, info := 0,
    emit := none, acks := [], clear := [] }

/-- The 32 bytes of an event (Table 12.5), with PH. -/
def Event.bytes (e : Event) (ph : Bool) : List Byte :=
  [e.ty, e.status, if ph then 1 else 0, 0] ++ natBytes 2 e.gen.toNat ++ natBytes 2 e.colidx.toNat ++ natBytes 4 e.id.toNat ++
    natBytes 2 e.frame.toNat ++ [e.cause, e.reason] ++ natBytes 8 e.addr.toNat ++ natBytes 8 e.info.toNat

/-- BASE of CTXBASE (Table 11.6). -/
def Vf.ctxAddr (f : Vf) : Nat := (f.ctxbase.extractLsb' 12 40).toNat * 4096

/-- A VF runs: it is enabled, not resetting, and its TDI is not in ERROR (R283, R293, R298). -/
def Vf.runs (f : Vf) : Bool := f.en && f.enabled && f.tdi != .error

/-- The buffer of a VF, or the hold ring of a pausing one, has a free place: 64 places, or 1,024 (R290, R292). -/
def Vf.hasPlace (f : Vf) : Bool := if f.pause then f.held.length < 1024 else f.q.evbuf.length < 64

/-- Where the hold ring of a VF keeps its next event (R292). -/
def Vf.holdAt (f : Vf) : Nat := f.ctxAddr + 0x8000 + 32 * (f.held.length % 1024)

/-- A place is free that can be written (R341). -/
def placeFree (s : State) (v : Nat) : Bool := (s.vf v).hasPlace && !((s.vf v).pause && hbmWaits s (s.vf v).holdAt)

/-- A VF can take one event more: no raising unit waits before it, and a place is free (R290, R292). -/
def canRaise (s : State) (v : Nat) : Bool := (s.vf v).q.pend.isEmpty && placeFree s v

/-- Put an event into a VF's buffer, or into the hold ring of a pausing one, where PH is not set yet (R292, log entry 18). -/
def placeEvent (s : State) (v : Nat) (e : Event) : State :=
  let f := s.vf v
  if f.pause then
    physWr (s.updVf v (fun f => { f with held := f.held ++ [e] })) f.holdAt (e.bytes false)
  else s.updVf v (fun f => { f with q := { f.q with evbuf := f.q.evbuf ++ [e] } })

/-- Raise an event of a VF: it takes the VF's generation (R288); where no place is free the raising unit waits with it (R290). -/
def raise (s : State) (v : Nat) (e : Event) : State :=
  let e' := { e with gen := (s.vf v).gen }
  if canRaise s v then placeEvent s v e'
  else s.updVf v (fun f => { f with q := { f.q with pend := f.q.pend ++ [e'] } })

/-- Events whose raisers wait take the places that have become free, oldest first; the fuel is their number (R290). -/
def admitVf : Nat → State → Nat → State
  | 0, s, _ => s
  | n + 1, s, v => match (s.vf v).q.pend with
    | [] => s
    | e :: rest =>
      if placeFree s v then
        admitVf n (placeEvent (s.updVf v (fun f => { f with q := { f.q with pend := rest } })) v e) v
      else s

/-- `admitVf` for every event of a VF that waits. -/
def admitEvents (s : State) (v : Nat) : State := admitVf (s.vf v).q.pend.length s v

/-- The physical function can take one event more (R290). -/
def canRaisePf (s : State) : Bool := s.pf.q.pend.isEmpty && decide (s.pf.q.evbuf.length < 64)

/-- Raise an event of the physical function; where its buffer is full the raising unit waits with it (R290). -/
def raisePf (s : State) (e : Event) : State :=
  let ready := canRaisePf s
  s.updPf (fun p => { p with q :=
    if ready then { p.q with evbuf := p.q.evbuf ++ [e] } else { p.q with pend := p.q.pend ++ [e] } })

/-- Events of the physical function whose raisers wait take the places that have become free. -/
def admitPf (s : State) : State :=
  let n := 64 - s.pf.q.evbuf.length
  s.updPf (fun p => { p with q := { p.q with evbuf := p.q.evbuf ++ p.q.pend.take n, pend := p.q.pend.drop n } })

/-- The event that ends a PF command (R295). -/
def cmdEvent (id : BitVec 32) (status : BitVec 8) : Event := { Event.zero with ty := 11, status := status, id := id }

/-- An AREAFLT event of a VF (R76, R250). -/
def areaEvent (cause reason : BitVec 8) (va : Nat) : Event :=
  { Event.zero with ty := 6, cause := cause, reason := reason, addr := BitVec.ofNat 64 va }

end Sys2Proof.Machine
end

