-- ==== Sys2Proof/Machine/Channels.lean ====
section
/-! DEFINITION. Tokens, elastic channels, spill queues, ports, header latches and the matching store (R60 to R87). -/

namespace Sys2Proof.Machine

/-! ## Tokens -/

/-- The CHK that a token's fields call for (R68). -/
def Token.crc (t : Token) : BitVec 16 := crc16 t.data t.fmt t.colour t.frame t.wave

/-- The token passes its checks: CHK, parity and KIND (R69, R70). -/
def Token.ok (t : Token) : Bool := t.chk == t.crc && !t.parityErr && t.kind != 3

/-- A data token with a fresh CHK. -/
def mkToken (data : W512) (fmt : BitVec 3) (colour frame : BitVec 12) (wave : BitVec 24) (src : Nat) : Token :=
  { data := data, fmt := fmt, colour := colour, frame := frame, wave := wave, kind := 0, lstake := 0, port := 0,
    chk := crc16 data fmt colour frame wave, src := src, parityErr := false }

/-- A wale marker of round `w` (R79). -/
def mkMarker (c : BitVec 12) (w : BitVec 16) (src : Nat) : Token :=
  { mkToken (w.setWidth 512) 0 c 0 0 src with kind := 1 }

/-- A token of a colour carries the same tag word. -/
def Token.sameTag (a b : Token) : Bool := a.colour == b.colour && a.frame == b.frame && a.wave == b.wave

/-- A token on the way to a destination field's stake and port. -/
def Token.to (t : Token) (d : Dest) : Token := { t with lstake := d.lstake, port := d.port }

/-! ## Channels (R71 to R73) -/

/-- A channel's entry in the net. -/
def chanFind (s : State) (k : ChanKey) : Option Chan := s.net.find? (fun c => c.key == k)

/-- The entries of a channel. -/
def chanItems (s : State) (k : ChanKey) : List ChanItem :=
  match chanFind s k with
  | some c => c.items
  | none => []

/-- Entries that the router stages of a channel hold: two for each router (R71, R73); the channels of units, of task starts
and of the spill engine cross two routers (log entry 11). -/
def chanCap (s : State) (k : ChanKey) : Nat :=
  match k.kind with
  | .stake => 2 * routers (tileOfStake s k.colour k.lsrc) (tileOfStake s k.colour k.ldst)
  | _ => 4

/-- The channel is extended (R244). -/
def chanExt (s : State) (k : ChanKey) : Bool :=
  match chanFind s k with
  | some c => c.ext
  | none => false


/-- Replace the entries of a channel; one without entries that is not extended is not kept. -/
def chanSet (s : State) (k : ChanKey) (items : List ChanItem) (ext : Bool) : State :=
  let rest := s.net.filter (fun c => c.key != k)
  if items.isEmpty && !ext then { s with net := rest }
  else if (chanFind s k).isSome then
    { s with net := updFirst (fun c => c.key == k) (fun c => { c with items := items, ext := ext }) s.net }
  else { s with net := s.net ++ [{ key := k, items := items, ext := ext }] }

/-- Channel of a destination field of a stake. -/
def destKey (c : BitVec 12) (kind : SrcKind) (l : BitVec 16) (d : Nat) (x : Dest) : ChanKey :=
  { colour := c, kind := kind, lsrc := l, dfield := BitVec.ofNat 2 d, ldst := x.lstake, port := x.port }

/-! ## Spill queues (R76 to R78, R244) -/

/-- BASE of SPILLBASE. -/
def Colour.spillBase (k : Colour) : Nat := (k.spillbase.extractLsb' 12 52).toNat * 4096

/-- Entries of the spill ring. -/
def Colour.spillSize (k : Colour) : Nat := 2 ^ (k.spillbase.extractLsb' 0 6).toNat

/-- The spill ring has no free entry. -/
def Colour.spillFull (k : Colour) : Bool :=
  match k.spilled.head? with
  | some e => e.seq + k.spillSize ≤ k.spillNext
  | none => false

/-- The colour's spill ring can take one entry more (R78). -/
def spillRoom (s : State) (c : BitVec 12) : Bool :=
  match s.col? c.toNat with
  | some k => !k.spillFull
  | none => false

/-- The first stage of the channel is ready: it holds fewer entries than its capacity, or is extended and the spill ring takes
its overflow (R71, R78, R244). -/
def chanRoom (s : State) (k : ChanKey) : Bool :=
  (chanItems s k).length < chanCap s k || (chanExt s k && spillRoom s k.colour)

/-- The 128 bytes of a spill-queue entry (Table 3.6). -/
def spillBytes (t : Token) (seq tile : Nat) : List Byte :=
  natBytes 64 t.data.toNat ++ natBytes 6 (t.colour ++ t.frame ++ t.wave : BitVec 48).toNat ++ natBytes 2 t.lstake.toNat ++
    [BitVec.ofNat 8 (t.port.toNat + 4 * t.fmt.toNat + 32 * t.kind.toNat)] ++ natBytes 2 t.chk.toNat ++
    List.replicate 5 0 ++ natBytes 8 seq ++ natBytes 2 tile ++ List.replicate 38 0

/-- The token of a spill-queue entry; the colour that runs it and its source tile are the engine's own. -/
def spillToken (bs : List Byte) (src : Nat) : Token :=
  let v := leNat bs
  let f (lo n : Nat) : Nat := (v >>> (8 * lo)) % 2 ^ n
  { data := BitVec.ofNat 512 v, fmt := BitVec.ofNat 3 (f 72 8 / 4), colour := BitVec.ofNat 12 (f 64 48 / 2 ^ 36),
    frame := BitVec.ofNat 12 (f 64 48 / 2 ^ 24), wave := BitVec.ofNat 24 (f 64 48), kind := BitVec.ofNat 2 (f 72 8 / 32),
    lstake := BitVec.ofNat 16 (f 70 16), port := BitVec.ofNat 2 (f 72 8), chk := BitVec.ofNat 16 (f 73 16), src := src,
    parityErr := false }

/-- Write a token to the colour's spill queue (R76). -/
def spillWrite (s : State) (c : BitVec 12) (key : ChanKey) (t : Token) (tile : Nat) (beyond : Bool) : DevRes :=
  match s.col? c.toNat with
  | none => .wait s
  | some k =>
    if k.spillFull then .wait s else
    let seq := k.spillNext
    let va := k.spillBase + 128 * (seq % k.spillSize)
    match devWrite s k.vf va (spillBytes t seq tile) true with
    | .ok _ s1 => .ok [] (s1.updCol c.toNat (fun k => { k with
        spillNext := seq + 1, spills := k.spills + 1,
        spilled := k.spilled ++
          [{ seq := seq, va := va, tile := tile, beyond := beyond, parityErr := t.parityErr, key := key }] }))
    | r => r

/-- The token under its colour, with the fresh CHK of R268 computed before the old one is verified. -/
def Token.recolour (t : Token) (c : BitVec 12) : Token :=
  let n := crc16 t.data t.fmt c t.frame t.wave
  { t with colour := c, chk := if t.chk = t.crc then n else n ^^^ 1 }

/-- Read a spilled token back and free its entry; CHK is moved unchanged (R69), and what travels beside the token too (R70). -/
def spillRead (s : State) (c : BitVec 12) (seq : Nat) : Option (Token × State) :=
  match s.col? c.toNat with
  | none => none
  | some k => match k.spilled.find? (fun e => e.seq == seq) with
    | none => none
    | some e => match devRead s k.vf e.va 128 true with
      | .ok bs s1 => some ({ spillToken bs (tileOfStake s c e.key.lsrc) with parityErr := e.parityErr },
          s1.updCol c.toNat (fun k => { k with spilled := k.spilled.filter (fun x => x.seq != seq) }))
      | _ => none

/-- The overflow writes of an extended channel wait with the spill engine (R76, R244). -/
def overflowWaits (s : State) (k : ChanKey) (told : Bool) : State :=
  s.updCol k.colour.toNat (fun x => { x with ovf := x.ovf ++ [(k, told)] })

/-- A fault of a write to a spill queue or a replay area is reported to the owning VF (R76, R250). -/
def areaFaultEvent (s : State) (c : BitVec 12) (v : Nat) (cause reason : BitVec 8) (va : Nat) : State :=
  raise s v { areaEvent cause reason va with colidx := BitVec.ofNat 16 (colidx s c.toNat) }

/-- Put a token on a channel; beyond the capacity of an extended one it goes to the spill queue in channel order (R244). Where
that write faults or waits the token stays with the engine, and what follows it stays behind it (R73, R76). -/
def chanPush (s : State) (k : ChanKey) (t : Token) : State :=
  let items := chanItems s k
  let stays (s : State) : State := chanSet s k (items ++ [.tok t]) true
  if items.length < chanCap s k || !chanExt s k then chanSet s k (items ++ [.tok t]) (chanExt s k)
  else match s.col? k.colour.toNat with
    | none => stays s
    | some x =>
      if x.ovf.any (·.1 == k) then stays s
      else match spillWrite s k.colour k t (tileOfStake s k.colour k.ldst) true with
        | .ok _ s1 => chanSet s1 k (items ++ [.beyond x.spillNext]) true
        | .fault cause reason va s1 => overflowWaits (stays (areaFaultEvent s1 k.colour x.vf cause reason va)) k true
        | .wait _ => overflowWaits (stays s) k false

/-- The next token of a channel, with the state in which it has been taken; an entry in the spill queue is read back. The
extension ends when its overflow is empty (R244). -/
def chanPop (s : State) (k : ChanKey) : Option (Token × State) :=
  match chanItems s k with
  | [] => none
  | .tok t :: rest =>
    let more := rest.any (fun i => match i with | .beyond _ => true | _ => false)
    let ended := chanExt s k && !more && decide (rest.length < chanCap s k)
    let s1 := chanSet s k rest (chanExt s k && !ended)
    some (t, if ended then s1.updCol k.colour.toNat (fun x => { x with
      exts := x.exts - 1, ovf := x.ovf.filter (·.1 != k) }) else s1)
  | .beyond q :: rest =>
    match spillRead s k.colour q with
    | some (t, s1) => some (t, chanSet s1 k rest true)
    | none => none

/-- The token at the head of a channel, when it lies in a skid buffer. -/
def chanHead (s : State) (k : ChanKey) : Option Token :=
  match chanItems s k with
  | .tok t :: _ => some t
  | .beyond q :: _ => (spillRead s k.colour q).map Prod.fst
  | [] => none

/-- Every channel of the net into a stake, or of a colour. -/
def netOf (s : State) (c : BitVec 12) : List Chan := s.net.filter (fun x => x.key.colour == c)

/-! ## Header latches (R65 to R67) -/

/-- NSC of a burst header. -/
def hdrNsc (h : W512) : Nat := fld h 64 6
/-- COL0. -/
def hdrCol0 (h : W512) : Nat := fld h 48 16
/-- ROW0. -/
def hdrRow0 (h : W512) : Nat := fld h 32 16
/-- BLEN. -/
def hdrBlen (h : W512) : Nat := fld h 16 16
/-- EFMT. -/
def hdrEfmt (h : W512) : Nat := fld h 12 3
/-- LAST. -/
def hdrLast (h : W512) : Nat := fld h 10 1
/-- Block length: 16, 32, 64 or 128. -/
def hdrL (h : W512) : Nat := 16 * 2 ^ fld h 8 2
/-- SCALE. -/
def hdrScale (h : W512) : Nat := fld h 0 8

/-- The scale of block `j`: S[j] when j < NSC, and SCALE otherwise. -/
def hdrScaleOf (h : W512) (j : Nat) : Nat := if j < hdrNsc h then fld h (72 + 8 * j) 8 else hdrScale h

/-- A header with no reserved value, and not LAST with BLEN 0 (R67). -/
def hdrOk (h : W512) : Bool :=
  hdrNsc h ≤ 55 && fld h 70 2 == 0 && fld h 15 1 == 0 && fld h 11 1 == 0 && 1 ≤ hdrEfmt h && hdrEfmt h ≤ 6 &&
    !(hdrLast h == 1 && hdrBlen h == 0)

/-- Build a header (Table 3.2). -/
def mkHdr (scales : List Nat) (col0 row0 blen efmt last blk scale : Nat) : W512 :=
  let s := lanesNat 8 (scales.take 55)
  BitVec.ofNat 512 (scale % 256 + (blk % 4) * 2 ^ 8 + (last % 2) * 2 ^ 10 + (efmt % 8) * 2 ^ 12 + (blen % 65536) * 2 ^ 16 +
    (row0 % 65536) * 2 ^ 32 + (col0 % 65536) * 2 ^ 48 + (min 55 scales.length) * 2 ^ 64 + s * 2 ^ 72)

/-- The default header of a port with no latch, for a token's FMT (R66). -/
def hdrDefault (fmt : BitVec 3) : W512 := mkHdr [] 0 0 0 fmt.toNat 0 1 127

/-- The data ports of a header consumer, by opcode (R66): FMTCAST, VDEQ, TMST and MMA. -/
def headerPorts (opc : Nat) : List Nat :=
  match opc with
  | 0x15 | 0x69 => [0]
  | 0x91 => [2]
  | 0x99 => [0, 1]
  | _ => []

/-- The opcode of a stake. -/
def StakeSt.opc (st : StakeSt) : Nat := (st.word.extractLsb' 120 8).toNat

/-- The common fields of a stake. -/
def StakeSt.common (st : StakeSt) : Common := Common.ofWord st.word

/-- The port is a data port of a header consumer. -/
def StakeSt.latches (st : StakeSt) (p : Nat) : Bool := (headerPorts st.opc).contains p

/-- The key of a latch: the pair on a MATCH port, nothing on a FIFO port (R66). -/
def StakeSt.pairKey (st : StakeSt) (c f : BitVec 12) : Option (BitVec 12 × BitVec 12) := if st.isMatch then some (c, f) else none

/-- The latch in force on a port for a pair, when a set fires: a token that waits in a row is read under it (R66; log entry 89). -/
def latchOf (st : StakeSt) (p : Nat) (c f : BitVec 12) : Option Latch :=
  (st.port p).latches.find? (fun l => l.pair == st.pairKey c f)

/-- Set the latch of a port for a pair. -/
def setLatch (st : StakeSt) (p : Nat) (l : Latch) : StakeSt :=
  let x := st.port p
  st.setPort p { x with latches := l :: x.latches.filter (fun y => y.pair != l.pair) }

/-- One data token has been taken under the latch of a port: it ends after BLEN of them (R66). -/
def latchAdvance (st : StakeSt) (p : Nat) (c f : BitVec 12) : StakeSt :=
  let x := st.port p
  let go (l : Latch) : Option Latch :=
    if l.pair != st.pairKey c f then some l
    else if hdrBlen l.hdr ≠ 0 && hdrBlen l.hdr ≤ l.count + 1 then none
    else some { l with count := l.count + 1 }
  st.setPort p { x with latches := x.latches.filterMap go }

/-! ## Ports -/

/-- The ports that a stake uses: a, b and c by their selectors, t by its depth (R308); the SC field of ATOM, FATOM, RED and
FRED selects no source (R191). -/
def usedPorts (st : StakeSt) : List Nat :=
  let c := st.common
  (if c.sa = .port then [0] else []) ++ (if c.sb = .port then [1] else []) ++
    (if c.sc = .port && !([0x7A, 0x7B, 0x7E, 0x7F].contains st.opc) then [2] else []) ++ (if st.dt = 0 then [] else [3])

/-- The boundary record of a channel lies in the port: what the channel brings later is held (R81). -/
def Port.bounded (p : Port) (k : ChanKey) : Bool := p.buf.any (fun i => i.tok.kind == 1 && i.key == k)

/-- Walk a port's entries in arrival order with the channels whose markers stand before each. -/
def freeItems : List ChanKey → List PItem → List PItem
  | _, [] => []
  | seen, i :: rest =>
    if i.tok.kind = 1 then freeItems (i.key :: seen) rest
    else if seen.contains i.key then freeItems seen rest
    else i :: freeItems seen rest

/-- The entry that a firing would take from a FIFO port: the first that is neither held nor a misfit. -/
def Port.head (p : Port) : Option PItem := (freeItems [] p.buf).find? (fun i => !i.misfit)

/-- The oldest misfit of a port that is not held. -/
def Port.misfitHead (p : Port) : Option PItem := (freeItems [] p.buf).find? (·.misfit)

/-- Take one entry out of a port. -/
def Port.remove (p : Port) (i : PItem) : Port := { p with buf := p.buf.erase i }

/-- The stake is a FIFO header consumer whose next entry is a good header: it is latched (R66); the fuel is the buffer's
length. -/
def settleLatch : Nat → StakeSt → Nat → StakeSt
  | 0, st, _ => st
  | n + 1, st, p =>
    if st.isMatch || !st.latches p then st else
    match (st.port p).head with
    | some i =>
      if i.tok.fmt = 7 && i.tok.ok && hdrOk i.tok.data then
        let st1 := st.setPort p ((st.port p).remove i)
        settleLatch n (setLatch st1 p { pair := none, hdr := i.tok.data, count := 0, sent := false }) p
      else st
    | none => st

/-- Latch what has come to the head of every port. -/
def settle (st : StakeSt) : StakeSt :=
  [0, 1, 2].foldl (fun st p => settleLatch (st.port p).buf.length st p) st

/-- A header at the head of a FIFO data port that cannot be latched: its check fails, or R67 refuses it. -/
def badHeader (st : StakeSt) : Option (Nat × PItem) :=
  if st.isMatch then none else
  (headerPorts st.opc).findSome? (fun p => match (st.port p).head with
    | some i => if i.tok.fmt = 7 then some (p, i) else none
    | none => none)

/-- ACC does not accept the token's FMT on a port a, b or c; a header at a consumer's data port is latched (R63, R66). -/
def isMisfit (st : StakeSt) (t : Token) : Bool :=
  t.port != 3 && st.common.acc != 0 && !st.common.acc.getLsbD t.fmt.toNat && !(st.latches t.port.toNat && t.fmt == 7)

/-! ## The matching store (R74, R75) -/

/-- The rows of a tile that a colour holds, with the tokens that wait for a flip (R87). -/
def Tile.rowsOf (t : Tile) (c : BitVec 12) : Nat :=
  (t.rows.filter (fun x => x.colour == c)).length + (t.early.filter (fun x => x.tok.colour == c)).length

/-- A row is free for a colour: within its quota and within the tile's 4,096 (R74). -/
def rowFree (s : State) (tile : Nat) (k : Colour) (c : BitVec 12) : Bool :=
  let t := s.tile tile
  decide (t.rowsOf c < k.quota.toNat) && decide (t.rows.length + t.early.length < 4096)

/-- A token of the colour for the tile lies in the spill queue, or on its way back from it (R77). -/
def spilledFor (s : State) (c : BitVec 12) (k : Colour) (tile : Nat) : Bool :=
  k.spilled.any (fun e => !e.beyond && tileOfStake s c e.key.ldst == tile) ||
    (netOf s c).any (fun x => x.key.kind == .spill && !x.items.isEmpty && tileOfStake s c x.key.ldst == tile)

/-- A token of the colour for the port lies in the spill queue, or on its way back from it. -/
def spilledAt (s : State) (c : BitVec 12) (k : Colour) (l : BitVec 16) (p : BitVec 2) : Bool :=
  k.spilled.any (fun e => !e.beyond && e.key.ldst == l && e.key.port == p) ||
    (netOf s c).any (fun x => x.key.kind == .spill && !x.items.isEmpty && x.key.ldst == l && x.key.port == p)

/-- A spill write of the colour for the tile has faulted and waits (R76). -/
def spillStuck (s : State) (k : Colour) (tile : Nat) : Bool :=
  (k.spillFault.map (·.key) ++ k.ovf.map Prod.fst).any (fun key => tileOfStake s key.colour key.ldst == tile)

/-- The row of a tile for one more port of an operand set: the oldest with the same tag and stake. -/
def rowFor (t : Tile) (tok : Token) (p : Nat) : Option Token :=
  t.rows.find? (fun r => r.sameTag tok && r.lstake == tok.lstake && r.port.toNat == p)

/-- The rows that a token needs to complete an operand set: one of each other used port (R74); at a MERGE one of port t when it is
used, and for a token of port t the oldest of a and b (R308, R439). -/
def partners (t : Tile) (st : StakeSt) (tok : Token) : List (Option Token) :=
  if st.opc ≠ 5 then ((usedPorts st).filter (· != tok.port.toNat)).map (rowFor t tok)
  else if tok.port = 3 then [t.rows.find? (fun r => r.sameTag tok && r.lstake == tok.lstake && r.port != 3)]
  else if st.dt = 0 then [] else [rowFor t tok 3]

/-- The operand set that a token completes, with its partners (R74). -/
def completes (t : Tile) (st : StakeSt) (tok : Token) : Option (OpSet × List Token) :=
  let rows := partners t st tok
  if rows.all (·.isSome) then
    let ps := rows.filterMap id
    some ((tok :: ps).foldl (fun o x => o.put x.port.toNat x) OpSet.empty, ps)
  else none

/-- Set the dirty bits of the row blocks of a stake's logical tile (Table 11.8). -/
def rowBits (s : State) (k : Colour) (l : BitVec 16) (c : BitVec 12) : State :=
  setDirty s k (l.toNat / 128) (rowBlocks s c k (l.toNat / 128) 4)

/-- Look a token up in the matching store (R74): it completes its set, or takes a row; none where it must spill. -/
def matchLookup (s : State) (c : BitVec 12) (k : Colour) (tile : Nat) (st : StakeSt) (tok : Token) (behind : Bool) : Option State :=
  let t := s.tile tile
  match completes t st tok with
  | some (o, ps) =>
    let s1 := s.setTile tile { t with rows := ps.foldl List.erase t.rows }
    some (rowBits (updStake s1 c st.lstake (fun x => { x with ready := x.ready ++ [o] })) k st.lstake c)
  | none =>
    if rowFree s tile k c && !behind then
      some (rowBits (s.setTile tile { t with rows := t.rows ++ [tok] }) k st.lstake c)
    else none

end Sys2Proof.Machine
end

