-- ==== Sys2Proof/Machine/Ops.lean ====
section
/-! DEFINITION. Shared operations: events, results of units, the start of a firing and its emission, taking a trap (R135,
R246 to R253) and the barriers, purge and end of a frame. -/

namespace Sys2Proof.Machine

/-! ## Events of jobs (R55, R235, R289) -/

/-- A wait of R175 on a colour that has not begun. -/
def ackWait (c : Nat) : AckWait := { colour := BitVec.ofNat 12 c, st := 0, epoch := false }

/-- A task of a job starts on a colour: the wait before the job's event includes it (R289). -/
def noteJobCol (s : State) (v : Nat) (id : BitVec 32) (c : Nat) : State :=
  s.updVf v (fun f => { f with jobs := f.jobs.map (fun j => if j.id == id then { j with cols := setIns j.cols c } else j) })

/-- The job is known to its VF and has not ended. -/
def jobOpen (s : State) (v : Nat) (id : BitVec 32) : Bool := (s.vf v).jobs.any (fun j => j.id == id && !j.ended)

/-- A job ends with a status: one event, and its queued records are discarded later (R55). INFL of its graph is cleared before
the record of the event is written (R235). -/
def endJob (s : State) (v : Nat) (id : BitVec 32) (status : BitVec 8) : State :=
  if !jobOpen s v id then s else
  let mine := (s.vf v).jobs.filter (fun j => j.id == id)
  let ci := match mine.head? with
    | some j => colidx s j.colour.toNat
    | none => 0
  let s1 := raise s v { Event.zero with
    ty := 1, status := status, colidx := BitVec.ofNat 16 ci, id := id,
    acks := if status = 0 then (mine.flatMap (·.cols)).map ackWait else [],
    clear := (mine.filter (fun j => j.graph != 0)).map (·.graph) }
  s1.updVf v (fun f => { f with
    jobs := f.jobs.map (fun j => if j.id == id then { j with ended := true } else j),
    failed := if status = 0 then f.failed else id :: f.failed })

/-! ## Results of cluster units (R83) -/

/-- A unit returns a token on a destination field of a stake. -/
def unitEmit (s : State) (c : BitVec 12) (l : BitVec 16) (d : Nat) (x : Dest) (t : Token) : State :=
  chanPush s (destKey c .unit l d x) (t.to x)

/-- The result destinations of a stake word: V = 1 and Q = 0, with their numbers. -/
def resultDests (c : Common) : List (Nat × Dest) :=
  ([(0, c.d0), (1, c.d1), (2, c.d2)]).filter (fun d => d.2.isResult)

/-- Every destination field with V = 1, with its number. -/
def allDests (c : Common) : List (Nat × Dest) :=
  ([(0, c.d0), (1, c.d1), (2, c.d2)]).filter (fun d => d.2.v)

/-- One token for every result destination of a stake word. -/
def resultOut (w : Common) (t : Token) : List Emission := (resultDests w).map (fun d => { d := d.1, tok := t })

/-- The destination field of an emission. -/
def Emission.dest (e : Emission) (w : Common) : Dest := w.dests.getD e.d Dest.none

/-- The emissions that leave together with the first: those up to the next one on a field that has one among them (R12). -/
def firstGroup : List Nat → List Emission → List Emission × List Emission
  | _, [] => ([], [])
  | seen, e :: rest =>
    if seen.contains e.d then ([], e :: rest)
    else ((e :: (firstGroup (e.d :: seen) rest).1), (firstGroup (e.d :: seen) rest).2)

/-- Every channel of a group of emissions of a stake is ready (R72). -/
def groupRoom (s : State) (c : BitVec 12) (kind : SrcKind) (l : BitVec 16) (w : Common) (g : List Emission) : Bool :=
  g.all (fun e => chanRoom s (destKey c kind l e.d (e.dest w)))

/-- A group of emissions of a stake enters its channels. -/
def groupSend (s : State) (c : BitVec 12) (kind : SrcKind) (l : BitVec 16) (w : Common) (g : List Emission) : State :=
  g.foldl (fun s e => chanPush s (destKey c kind l e.d (e.dest w)) (e.tok.to (e.dest w))) s

/-- The oldest group of emissions of a stake leaves once every one of its channels is ready (R12, R72); the rest stays behind. -/
def releaseGroup (s : State) (c : BitVec 12) (kind : SrcKind) (l : BitVec 16) (w : Common) (out : List Emission) :
    State × List Emission :=
  let g := firstGroup [] out
  if groupRoom s c kind l w g.1 then (groupSend s c kind l w g.1, g.2) else (s, out)

/-- The word of a stake of a colour. -/
def wordOf (s : State) (c : BitVec 12) (l : BitVec 16) : StakeWord :=
  match stake? s c l with
  | some st => st.word
  | none => 0

/-! ## Firing (R31, R57, R72) -/

/-- What a firing has in hand. -/
structure Fire where
  /-- Its tile. -/
  tile : Nat
  /-- Its stake, before the firing. -/
  st : StakeSt
  /-- The colour record. -/
  k : Colour
  /-- The operand set. -/
  ops : OpSet
  /-- COLOUR of the firing's tag word. -/
  colour : BitVec 12
  /-- FRAME. -/
  frame : BitVec 12
  /-- WAVE. -/
  wave : BitVec 24

/-- FRAMEEND, TASKEND and BAR fire no more for a frame that is ending (R36). -/
def endsFrame (opc : Nat) : Bool := opc == 0x0A || opc == 0x12 || opc == 0x0E

/-- A stake of a tile may start a firing for a frame (R36, R135, R137). -/
def frameFires (k : Colour) (f : BitVec 12) (tile opc : Nat) : Bool :=
  match mapGet? k.frames f.toNat with
  | none => false
  | some x => match x.phase with
    | .live => true
    | .ending => !endsFrame opc
    | .stopping => x.awaitTiles.contains tile && !(x.ended && endsFrame opc)
    | _ => false

/-- A cut that keeps a stake from firing: it has been forced, or the stake has recorded its state for a save (R81, R259, R260;
log entry 12). -/
def cutHolds (k : Colour) (st : StakeSt) : Bool :=
  match k.cut with
  | none => false
  | some x => x.forced || (x.why != .round && (x.whole || st.round != k.round))

/-- A cut serves a save: units start nothing new for the colour (R139, R203, R261; log entry 12). -/
def cutStops (k : Colour) : Bool :=
  match k.cut with
  | some x => x.forced || x.why != .round
  | none => false

/-- The instance is active: its weave is loaded and every tile that holds it has flipped (R39). -/
def Colour.running (k : Colour) : Bool := k.unflipped.isEmpty && !k.loadReq

/-- The oldest frame's set first, and among its sets the one that completed first (R57). -/
def oldestSet (k : Colour) : List OpSet → Option OpSet
  | [] => none
  | o :: rest =>
    match oldestSet k rest with
    | none => some o
    | some b =>
      let age (x : OpSet) : BitVec 32 := match x.toks.head? with
        | some t => match mapGet? k.frames t.frame.toNat with
          | some f => f.seq
          | none => 0
        | none => 0
      if older (age b) (age o) then some b else some o

/-- The operand set that the next firing of a stake takes, when one may begin (R31, R62). -/
def nextSet (k : Colour) (st : StakeSt) (tile : Nat) : Option OpSet :=
  let fires (o : OpSet) : Bool := match o.toks.head? with
    | some t => frameFires k t.frame tile st.opc
    | none => false
  if st.isMatch then oldestSet k (st.ready.filter fires)
  else
    let heads := (usedPorts st).map (fun p => (p, (st.port p).head))
    if heads.all (fun h => h.2.isSome) then
      let o := heads.foldl (fun o h => match h.2 with
        | some i => o.put h.1 i.tok
        | none => o) OpSet.empty
      if fires o then some o else none
    else none

/-- The stake at the cursor, when its weave is active there and nothing keeps it from firing. -/
def cursorStake (s : State) : Option (BitVec 12 × Colour × StakeSt) :=
  let b := (s.tile s.cur.place).active
  match b.colour with
  | none => none
  | some c => match s.col? c.toNat, mapGet? b.slots s.cur.slot with
    | some k, some st => if k.running && !cutHolds k st then some (c, k, st) else none
    | _, _ => none

/-- The firing that the stake at the cursor may begin. -/
def pick (s : State) : Option Fire :=
  match cursorStake s with
  | none => none
  | some (c, k, st) =>
    if !st.out.isEmpty then none else
    match nextSet k st s.cur.place with
    | none => none
    | some o => match o.toks.head? with
      | none => none
      | some t => some { tile := s.cur.place, st := st, k := k, ops := o, colour := c, frame := t.frame, wave := t.wave }

/-- Take the operand set out of the stake's buffers. -/
def takeSet (st : StakeSt) (o : OpSet) : StakeSt :=
  if st.isMatch then { st with ready := st.ready.erase o }
  else (usedPorts st).foldl (fun st p => match (st.port p).head with
    | some i => st.setPort p ((st.port p).remove i)
    | none => st) st

/-- What has used firing slots of a tile in this clk (R57, R227). -/
def slotsUsed (s : State) (tile : Nat) : List (Option (BitVec 16)) :=
  if (s.tile tile).slotClk = s.clk then (s.tile tile).slotUse else []

/-- A firing slot of a tile is used in this clk: by a stake, or by a misfit (R57, R64, R227). -/
def useSlot (s : State) (tile : Nat) (who : Option (BitVec 16)) : State :=
  s.updTile tile (fun t => { t with slotClk := s.clk, slotUse := who :: slotsUsed s tile })

/-- Record that a stake of the colour has fired on a tile: a firing slot is used (R57), and the watchdog and the quench estimate
count it (R243, R245, R272). -/
def noteFiring (s : State) (tile : Nat) (c : BitVec 12) (l : BitVec 16) : State :=
  (useSlot s tile (some l)).updCol c.toNat (fun k => { k with
    fired := k.fired + 1, fireLog := s.clk :: k.fireLog.filter (fun t => s.clk < t + 65536),
    wdFrom := s.clk, wdExt := false, wdPosted := false })

/-- Every destination field with V = 1 names a channel whose first stage is ready (R72). -/
def destsReady (s : State) (f : Fire) : Bool :=
  (allDests f.st.common).all (fun d => chanRoom s (destKey f.colour .stake f.st.lstake d.1 d.2))

/-- A destination field takes a token from its stake. -/
def stakeEmit (s : State) (f : Fire) (d : Nat × Dest) (t : Token) : State :=
  chanPush s (destKey f.colour .stake f.st.lstake d.1 d.2) (t.to d.2)

/-- The result token of a firing: its tag word and a fresh CHK. -/
def Fire.token (f : Fire) (data : W512) (fmt : BitVec 3) : Token := mkToken data fmt f.colour f.frame f.wave f.tile

/-- A firing emits one token on every result destination (R72). -/
def emitResult (s : State) (f : Fire) (t : Token) : State :=
  (resultDests f.st.common).foldl (fun s d => stakeEmit s f d t) s

/-! ## Replay records (Table 11.4) -/

/-- The record of a token. -/
def tokenRecord (w : StakeWord) (t : Token) (l : BitVec 16) (cause : BitVec 8) (corrupt : Bool) : Record :=
  { opa := t.data, opb := 0, opc := 0, word := w, colour := t.colour, frame := t.frame, wave := t.wave, lstake := l,
    port := t.port, fmt := t.fmt, rkind := 0,
    flags := (if cause = 0 then 0 else 1) ||| (if corrupt then 2 else 0), cause := cause, chk := t.chk, faddr := 0, rid := none,
    was := none }

/-- The record of a request and its number (R135, R450). -/
def requestRecord (id : Nat) (r : Request) (fault : Bool) : Record :=
  { opa := r.opa, opb := r.opb, opc := r.opc, word := r.word, colour := r.colour, frame := r.frame, wave := r.wave,
    lstake := r.lstake, port := 0, fmt := r.fa, rkind := if r.ctl then 4 else 1, flags := if fault then 1 else 0,
    cause := if fault then r.cause else 0, chk := 0, faddr := if fault then r.faddr else 0, rid := some id, was := some r }

/-- The 256 bytes of a record (Table 11.4). -/
def Record.bytes (r : Record) : List Byte :=
  natBytes 64 r.opa.toNat ++ natBytes 64 r.opb.toNat ++ natBytes 64 r.opc.toNat ++ natBytes 16 r.word.toNat ++
    natBytes 6 (r.colour ++ r.frame ++ r.wave : BitVec 48).toNat ++ natBytes 2 r.lstake.toNat ++
    [BitVec.ofNat 8 (r.port.toNat + 4 * r.fmt.toNat), r.rkind, r.flags, r.cause] ++ natBytes 2 r.chk.toNat ++
    [0, 0] ++ natBytes 8 r.faddr.toNat ++ List.replicate 24 0

/-- The request had issued when it joined the replay queue: a trap took it back (R135, R136). -/
def Record.again (r : Record) : Bool :=
  match r.was with
  | some q => q.phase == .issued
  | none => false

/-- OWN of a record of a wave-ordered request. -/
def Record.own (r : Record) : Nat := (r.word.extractLsb' 17 9).toNat

/-- Wave order of two request records of a frame whose open wave is `cw`: waves already closed stand before it (R135). -/
def recBefore (cw : BitVec 24) (a b : Record) : Bool :=
  let d (x : Record) : Int := (x.wave - cw).toInt
  d a < d b || (d a == d b && a.own < b.own)

/-- Put a record into a replay queue: tokens, passes and matrix commands first, then wave-ordered requests by wave and OWN,
then control requests, each kind in arrival order (R135; log entry 13). -/
def insertRecord (cw : BitVec 24) (r : Record) : List Record → List Record
  | [] => [r]
  | x :: xs =>
    let rank (y : Record) : Nat := if y.rkind = 1 then 1 else if y.rkind = 4 then 2 else 0
    if rank r < rank x || (rank r == 1 && rank x == 1 && recBefore cw r x) then r :: x :: xs else x :: insertRecord cw r xs

/-! ## Requests (R119, R126, R133) -/

/-- The requests of a frame, with their numbers. -/
def reqsOf (s : State) (c f : BitVec 12) : List (Nat × Request) :=
  s.reqs.filter (fun r => r.2.colour == c && r.2.frame == f)

/-- Entries that a home buffer holds (R126). -/
def bufferUse (s : State) (home : Nat) : Nat := (s.reqs.filter (fun r => r.2.home == home && r.2.holdsEntry)).length

/-- Requests of a stake on its request channel. -/
def onChannel (s : State) (c : BitVec 12) (l : BitVec 16) : Nat :=
  (s.reqs.filter (fun r => r.2.colour == c && r.2.lstake == l && r.2.phase == .chan)).length

/-- The request channel of a stake is ready: one router of two entries, or extended with room for its overflow in the spill ring
(R71, R119, R244). -/
def reqRoom (s : State) (f : Fire) : Bool :=
  decide (onChannel s f.colour f.st.lstake < 2) || (f.st.reqExt && spillRoom s f.colour)

/-- A request beyond the capacity of its extended channel takes an entry of the colour's spill ring (R244; log entry 91). -/
def ringReq (s : State) (r : Request) : State × Option Nat :=
  match s.col? r.colour.toNat with
  | none => (s, none)
  | some k =>
    if onChannel s r.colour r.lstake < 2 then (s, none)
    else
      let key : ChanKey := { colour := r.colour, kind := .stake, lsrc := r.lstake, dfield := 0, ldst := r.lstake, port := 0 }
      (s.updCol r.colour.toNat (fun k => { k with
        spillNext := k.spillNext + 1, spills := k.spills + 1,
        spilled := k.spilled ++ [{ seq := k.spillNext, va := k.spillBase + 128 * (k.spillNext % k.spillSize), tile := r.ptile,
                                   beyond := true, parityErr := false, key := key }] }), some k.spillNext)

/-- Send a request (R119, R450). -/
def sendReq (s : State) (r : Request) : State :=
  let x := ringReq s r
  { x.1 with reqs := mapPut s.reqs s.nextReq { r with order := s.nextReq, ring := x.2 }, nextReq := s.nextReq + 1 }

/-- A request leaves its channel: its entry of the spill ring, when it has one, is free again. -/
def leaveRing (s : State) (r : Request) : State :=
  match r.ring with
  | none => s
  | some q => s.updCol r.colour.toNat (fun k => { k with spilled := k.spilled.filter (fun e => e.seq != q) })

/-- A request as its firing sends it. -/
def mkReq (f : Fire) (ctl : Bool) (home : Nat) (opa opb opc : W512) (fa : BitVec 3) : Request :=
  let m := MemX.ofBits (f.st.word.extractLsb' 0 35)
  { word := f.st.word, lstake := f.st.lstake, colour := f.colour, frame := f.frame, wave := f.wave,
    pred := if ctl then 0 else m.pred, own := if ctl then 0 else m.own, succ := if ctl then 0 else m.succ, ctl := ctl,
    opa := opa, opb := opb, opc := opc, fa := fa, tm := 0, ptile := f.tile, home := home, cause := 0, reason := 0, faddr := 0,
    pages := [], phase := .chan, order := 0, done := 0, data := 0, supply := false, sy := 0, epoch := false, tags := [],
    out := [], waiting := false, resv := false, acc := 0, lineRd := false, snap := [], ring := none, again := false,
    acks := [] }

/-- The home cluster of the firing's frame (R33). -/
def Fire.home (f : Fire) : Nat :=
  match mapGet? f.k.frames f.frame.toNat with
  | some x => x.home
  | none => 0

/-- The request `id` has performed with these results: they leave together once every channel takes them (R12, R72), and until
then it keeps them (R133). -/
def finishReq (s : State) (id : Nat) (r : Request) (out : List Emission) : State :=
  let x := releaseGroup s r.colour .unit r.lstake r.common out
  if x.2.isEmpty then x.1.delReq id else { x.1 with reqs := mapPut x.1.reqs id { r with phase := .performed, out := x.2 } }

/-- One result for every result destination of a request. -/
def reqOut (s : State) (r : Request) (data : W512) (fmt : BitVec 3) : List Emission :=
  resultOut r.common (mkToken data fmt r.colour r.frame r.wave (tileOfStake s r.colour r.lstake))

/-! ## Taking a trap (R135, R246 to R253) -/

/-- Virtual address of a replay slot (R250). -/
def slotVa (k : Colour) (n : Nat) : Nat := (k.trapvec.extractLsb' 16 48).toNat * 65536 + n * 0x80000

/-- Number of replay slots. -/
def Colour.slots (k : Colour) : Nat := 2 ^ (k.trapvec.extractLsb' 12 3).toNat

/-- What a look for a free slot finds. -/
inductive SlotRes where
  | found (n : Nat) (s : State)
  | noSlot (s : State)
  | fault (cause reason : BitVec 8) (va : Nat) (s : State)

/-- Look at the slots from `n` on: the lowest-numbered whose STATE is FREE or KILLED, that no frame has taken and whose STATE no
write waits to change (R250). -/
def findSlot (s : State) (k : Colour) : Nat → Nat → SlotRes
  | 0, _ => .noSlot s
  | fuel + 1, n =>
    if k.frames.any (fun f => f.2.slot == some n) || k.slotWrites.any (·.1 == n) then findSlot s k fuel (n + 1)
    else match devRead s k.vf (slotVa k n) 1 true with
      | .ok bs s1 => if bs == [0] || bs == [4] then .found n s1 else findSlot s1 k fuel (n + 1)
      | .fault c r a s1 => .fault c r a s1
      | .wait s1 => .noSlot s1

/-- The scratch line of an address in the scratch window: its logical tile and line. -/
def scratchLine (pa : Nat) : Nat × Nat := (pa / 2 ^ 19 % 512, pa % 2 ^ 19 / 64)

/-- The scratch line of an LDF or STE. -/
def Request.feLine (r : Request) : Option (Nat × Nat) :=
  (pagePa r.pages (n64 r.opa 0).toNat).map (fun p => scratchLine p.1)

/-- A line of a logical tile of a colour is full. -/
def lineFull (s : State) (k : Colour) (lt line : Nat) : Bool :=
  match anchorOf k lt with
  | some a => (s.tile a).full.contains line
  | none => false

/-- An LDF that waits on the line holds up the LDF and STE requests behind it, and one that waits for the same value of the bit
is served first (R184). -/
def heldUp (s : State) (r : Request) : Bool :=
  s.reqs.any (fun x => x.2.colour == r.colour && x.2.phase == .issued && (x.2.opcode == 0x74 || x.2.opcode == r.opcode) &&
    (x.2.opcode == 0x74 || x.2.opcode == 0x75) && decide (x.2.order < r.order) && x.2.feLine == r.feLine)

/-- An issued request that waits on a full/empty bit: it is withdrawn at a stop or a cut (R135, R261, R428, R477). -/
def bitWaits (s : State) (k : Colour) (r : Request) : Bool :=
  r.phase == .issued && r.tags.isEmpty && match r.opcode with
    | 0x74 | 0x75 => match r.feLine with
      | some (lt, line) => lineFull s k lt line != (r.opcode == 0x74) || heldUp s r
      | none => false
    | 0x72 => r.opa.getLsbD 95 && r.lineRd && lineFull s k (r.lstake.toNat / 128) (fld r.opa 64 13 + r.done)
    | 0x73 => r.opa.getLsbD 95 && !r.lineRd && !lineFull s k (r.lstake.toNat / 128) (fld r.opa 64 13 + r.done)
    | _ => false

/-- `bitWaits` under a bound colour. -/
def waitsOnBit (s : State) (r : Request) : Bool :=
  match s.col? r.colour.toNat with
  | some k => bitWaits s k r
  | none => false

/-- An LDT or STT with its descriptor advanced past the lines already done (R428, R477, R512). -/
def advanceDesc (r : Request) : Request :=
  if r.opcode = 0x72 || r.opcode = 0x73 then
    let src := (n64 r.opa 0).toNat + 64 * r.done
    let ln := fld r.opa 64 13 + r.done
    let nl := fld r.opa 80 13 - r.done
    { r with opa := setFld (setFld (setFld r.opa 0 64 src) 64 13 ln) 80 13 nl, done := 0, data := 0, lineRd := false, snap := [] }
  else r

/-- The requests in a stopped frame's replay queue that had issued ahead of a request; those of a resuming frame are taken in
order. -/
def passedOver (x : Frame) (r : Request) : List Request :=
  if x.phase = .resuming then []
  else (x.recs.filterMap (·.was)).filter (fun q =>
    q.phase == .issued && !q.ctl && decide (q.order < r.order) && q.opcode != 0x78)

/-- A request in the replay queue keeps an issued request from performing (R131, R174): it touches the same bytes, or the issued one
is a release. -/
def queueBlocks (x : Frame) (r : Request) : Bool :=
  (passedOver x r).any (fun q => r.isRelease || q.overlaps r)

/-- A request moves into its frame's replay queue, and its entry becomes free. -/
def moveReq (s : State) (c f : BitVec 12) (id : Nat) (r : Request) : State :=
  let q := { advanceDesc r with acks := [] }
  updFrame (dropAcks (s.delReq id) r) c f (fun x => { x with recs := insertRecord x.cw (requestRecord id q false) x.recs })

/-- An issued request that what stands in the replay queue keeps from performing is withdrawn behind it, and so on for those behind
that one; the fuel is the number of requests (R131, R135, R136; log entry 98). -/
def moveBlocked : Nat → State → BitVec 12 → BitVec 12 → State
  | 0, s, _, _ => s
  | n + 1, s, c, f => match frame? s c f with
    | none => s
    | some x => match (reqsOf s c f).find? (fun r => r.2.phase == .issued && !r.2.ctl && r.2.tags.isEmpty && queueBlocks x r.2) with
      | some (id, r) => moveBlocked n (moveReq s c f id r) c f
      | none => s

/-- Move the held requests of a frame, those that wait on a bit, and those that the replay queue then keeps from performing into that
queue; their entries become free (steps 1 and 3). -/
def moveHeld (s : State) (c f : BitVec 12) : State :=
  let mv := (reqsOf s c f).filter (fun r => r.2.phase == .held || waitsOnBit s r.2)
  moveBlocked s.reqs.length (mv.foldl (fun s r => moveReq s c f r.1 r.2) s) c f

/-- Take a replay slot for a stopping frame and move its held requests; without one the frame waits (R250). -/
def takeSlot (s : State) (c f : BitVec 12) : State :=
  match s.col? c.toNat with
  | none => s
  | some k => match findSlot s k k.slots 0 with
    | .found n s1 => moveHeld (updFrame s1 c f (fun x => { x with slot := some n, retry := s1.clk, areaFault := false })) c f
    | .noSlot s1 => updFrame s1 c f (fun x => { x with retry := s1.clk })
    | .fault cause r a s1 =>
      let posted := match frame? s1 c f with
        | some x => x.areaFault
        | none => true
      let s2 := if posted then s1 else areaFaultEvent s1 c k.vf cause r a
      updFrame s2 c f (fun x => { x with retry := s1.clk, areaFault := true })

/-- The frame has been ended or killed and takes no trap: it is in the retiring set, or waits for a place there. -/
def FramePhase.gone : FramePhase → Bool
  | .purging | .killed => true
  | _ => false

/-- A frame is already stopped, or stopping. -/
def FramePhase.halted : FramePhase → Bool
  | .stopping | .raised | .stopped | .restarting => true
  | _ => false

/-- Taking a trap: stop the frame (COLOUR, FRAME) with a cause (R135). The records join its replay queue, its held requests
follow once it has a slot, and a stop goes to every tile of the instance. A frame that is already stopped takes the records and
no second trap (R136); a frame in the retiring set takes nothing. -/
def haltFrame (s : State) (c f : BitVec 12) (cause reason : BitVec 8) (faddr : W64) (l : BitVec 16) (recs : List Record) : State :=
  match s.col? c.toNat, frame? s c f with
  | some k, some x =>
    let add (y : Frame) : Frame := { y with recs := recs.foldl (fun q r => insertRecord y.cw r q) y.recs }
    if x.phase.gone then s
    else if x.phase.halted then updFrame s c f add
    else takeSlot (updFrame s c f (fun y => { add y with
      phase := .stopping, cause := cause, reason := reason, tstake := l, faddr := faddr, time := s.time, frec := 0, slot := none,
      awaitTiles := k.tileList, stopped := [], retry := s.clk, toHost := false, areaFault := false })) c f
  | _, _ => s

/-- The tile's soft-error counter rises by `n` (R70). -/
def countSoft (s : State) (tile n : Nat) : State := s.updTile tile (fun t => { t with soft := countUp t.soft n })

/-- A token that its first reader finds bad stops its frame with UE; its record is marked corrupt (R70). -/
def corruptTok (s : State) (c : BitVec 12) (tile : Nat) (w : StakeWord) (l : BitVec 16) (t : Token) : State :=
  haltFrame (countSoft s tile 1) c t.frame cUE 0 0 l [tokenRecord w t l cUE true]

/-- A header that cannot be latched stops its frame: its check fails, or it holds a value that R67 refuses. -/
def refuseHeader (s : State) (c : BitVec 12) (tile : Nat) (st : StakeSt) (t : Token) : State :=
  if t.ok then haltFrame s c t.frame cILLOP 0 0 st.lstake [tokenRecord st.word t st.lstake cILLOP false]
  else corruptTok s c tile st.word st.lstake t

/-- A frame that a trap of its own token may stop now: it is live or ending, or the stop is still on its way. -/
def haltable (s : State) (c f : BitVec 12) : Bool :=
  match frame? s c f with
  | some x => x.phase == .live || x.phase == .ending || x.phase == .stopping
  | none => false

/-- Settle what has come to the head of a header consumer's FIFO ports: a good header is latched, a bad one stops its frame and
leaves the port (R66, R67, R70). -/
def settleAt : Nat → State → BitVec 12 → BitVec 16 → State
  | 0, s, _, _ => s
  | n + 1, s, c, l => match findStake s c l with
    | none => s
    | some (tile, _, st) =>
      let st1 := settle st
      match badHeader st1 with
      | none => putStake s c st1
      | some (p, i) =>
        if haltable s c i.tok.frame then
          settleAt n (refuseHeader (putStake s c (st1.setPort p ((st1.port p).remove i))) c tile st1 i.tok) c l
        else putStake s c st1

/-- `settleAt` for every entry that the stake's ports hold. -/
def settleHead (s : State) (c : BitVec 12) (l : BitVec 16) : State :=
  match stake? s c l with
  | none => s
  | some st => if (headerPorts st.opc).isEmpty then s else settleAt (st.held + 1) s c l

/-- A header consumer latches what has come to the head of its ports once a firing is over (R66). -/
def settleAfter (s : State) (f : Fire) : State := settleHead s f.colour f.st.lstake

/-- A firing traps: its inputs go to the replay queue, and it emits nothing (R32). -/
def trapFire (s : State) (f : Fire) (cause : BitVec 8) (reason : BitVec 8 := 0) (faddr : W64 := 0) : State :=
  let recs := (f.ops.toks.zipIdx).map (fun t => tokenRecord f.st.word t.1 f.st.lstake (if t.2 = 0 then cause else 0) false)
  haltFrame s f.colour f.frame cause reason faddr f.st.lstake recs

/-- An input fails its check: the firing traps with UE, the failing inputs are marked corrupt, and the counter rises by one for
each of them (R70; log entry 92). -/
def trapCorrupt (s : State) (f : Fire) : State :=
  let bad := f.ops.toks.filter (fun t => !t.ok)
  let recs := (f.ops.toks).map (fun t => tokenRecord f.st.word t f.st.lstake (if t.ok then 0 else cUE) (!t.ok))
  haltFrame (countSoft s f.tile bad.length) f.colour f.frame cUE 0 0 f.st.lstake recs

/-! ## Results of the barrier and task units (R83, R364, R432) -/

/-- A result for a stake joins those that have still to leave. -/
def queueResult (s : State) (c : BitVec 12) (l : BitVec 16) (out : List Emission) : State :=
  if out.isEmpty then s else s.updCol c.toNat (fun k => { k with out := k.out ++ [(l, out)] })

/-- A result may leave for a stake: that of a MARK only behind its marker, and not into a cut for a save (R432). -/
def resultOpen (k : Colour) (st : StakeSt) : Bool := st.opc != 0xA7 || (st.unitMark.isNone && !cutStops k)

/-- The frame of a result is still there. -/
def resultLive (k : Colour) (out : List Emission) : Bool := out.all (fun e => k.isLive e.tok.frame)

/-- The oldest result of a stake leaves, its tokens together, once every one of its channels takes them (R12, R72, R364, R432); one
of a frame that is gone is dropped. -/
def releaseResult (s : State) (c : BitVec 12) (l : BitVec 16) : State :=
  match s.col? c.toNat, stake? s c l with
  | some k, some st => match takeFirst (fun e => e.1 == l) k.out with
    | none => s
    | some (e, rest) =>
      let drop (s : State) : State := s.updCol c.toNat (fun k => { k with out := rest })
      if !resultLive k e.2 then drop s
      else if resultOpen k st && groupRoom s c .unit l st.common e.2 then groupSend (drop s) c .unit l st.common e.2
      else s
  | _, _ => s

/-- A unit returns a result to a stake: at once when nothing of the stake waits before it and its channels take it. -/
def unitReturn (s : State) (c : BitVec 12) (l : BitVec 16) (out : List Emission) : State :=
  releaseResult (queueResult s c l out) c l

/-! ## Barriers (R44 to R48) -/

/-- A barrier of a colour. -/
def barOf (s : State) (c : BitVec 12) (n : Nat) : Barrier :=
  match s.col? c.toNat with
  | some k => mapGet k.bars n Barrier.reset
  | none => Barrier.reset

/-- Change a barrier. -/
def updBar (s : State) (c : BitVec 12) (n : Nat) (f : Barrier → Barrier) : State :=
  s.updCol c.toNat (fun k => { k with bars := mapPut k.bars n (f (mapGet k.bars n Barrier.reset)) })

/-- The status token of a waiter (R46): 0 OK, 1 BROKEN, 2 LEFT, on every destination with V = 1 but its misfit route; it leaves
once its channels take it (R72, R364). -/
def barToken (s : State) (c : BitVec 12) (w : Waiter) (status : Nat) (gen : BitVec 16) : State :=
  unitReturn s c w.lstake (resultOut (Common.ofWord (wordOf s c w.lstake))
    (mkToken (BitVec.ofNat 512 (status + gen.toNat * 2 ^ 16)) 0 c w.frame w.wave (tileOfStake s c w.lstake)))

/-- A generation completes: every waiter emits its status, ARRIVED becomes 0 and GEN rises (R46, R47). -/
def barComplete (s : State) (c : BitVec 12) (n : Nat) (broken : Bool) : State :=
  let b := barOf s c n
  let s1 := b.waiters.foldl (fun s w => barToken s c w (if broken then 1 else 0) b.gen) s
  let s2 := s1.updCol c.toNat (fun k => { k with frames := k.frames.map (fun f =>
    (f.1, { f.2 with arrived := f.2.arrived &&& ~~~(1#16 <<< n) })) })
  updBar s2 c n (fun b => { b with arrived := 0, gen := b.gen + 1, broken := b.broken || broken, waiters := [] })

/-- Complete the generation when ARRIVED = EXPECT > 0 (R46). -/
def barCheck (s : State) (c : BitVec 12) (n : Nat) : State :=
  let b := barOf s c n
  if b.arrived = b.expect && b.expect != 0 then barComplete s c n false else s

/-- A frame leaves a barrier (Table 2.4): BARLEAVE or the end of the frame, or its kill. A LEFT token carries the GEN of the
generation that is open when the frame leaves (log entry 93). -/
def barLeave (s : State) (c f : BitVec 12) (n : Nat) (kill : Bool) : State :=
  match frame? s c f with
  | none => s
  | some x =>
    let had := x.arrived.getLsbD n
    let mine := (barOf s c n).waiters.filter (fun w => w.frame == f)
    let s1 := if kill then s else mine.foldl (fun s w => barToken s c w 2 (barOf s c n).gen) s
    let s2 := updBar s1 c n (fun b => { b with
      expect := b.expect - 1, arrived := if had then b.arrived - 1 else b.arrived, waiters := b.waiters.filter (fun w => w.frame != f) })
    let s3 := updFrame s2 c f (fun y => { y with mask := y.mask &&& ~~~(1#16 <<< n), arrived := y.arrived &&& ~~~(1#16 <<< n) })
    if kill then (if (barOf s3 c n).arrived != 0 then barComplete s3 c n true else s3) else barCheck s3 c n

/-- A frame leaves every barrier of its mask. -/
def leaveBarriers (s : State) (c f : BitVec 12) (kill : Bool) : State :=
  match frame? s c f with
  | none => s
  | some x => (bitList 16 x.mask.toNat).foldl (fun s n => barLeave s c f n kill) s

/-! ## The end of a frame (R36, R209, R258) -/

/-- The logical tile of which a physical tile is the anchor. -/
def ltileOf (k : Colour) (tile : Nat) : Nat :=
  match k.anchors.find? (fun e => e.2 == tile) with
  | some e => e.1
  | none => 0

/-- Banks of a tile that a frame owns, now or once the queued commands have performed (R207). -/
def Tile.banksOf (t : Tile) (c f : BitVec 12) : List Nat :=
  [0, 1, 2, 3].filter (fun b => (t.acc b).owner == some (c, f) || (t.acc b).qowner == some (c, f))

/-- A bank that a frame no longer owns. -/
def Acc.free (a : Acc) (c f : BitVec 12) : Acc := { a with
  owner := if a.owner == some (c, f) then none else a.owner
  qowner := if a.qowner == some (c, f) then none else a.qowner }

/-- Set the owner, and the queued owner, of every bank that a frame owns to none (R209), with the dirty bits of the banks and of
the queue (R224). -/
def freeBanks (s : State) (c f : BitVec 12) : State :=
  match s.col? c.toNat with
  | none => s
  | some k => k.tileList.foldl (fun s t =>
      let hit := (s.tile t).banksOf c f
      if hit.isEmpty then s
      else setDirty (s.updTile t (fun x => hit.foldl (fun x b => x.setAcc b ((x.acc b).free c f)) x)) k (ltileOf k t)
        (hit.map (· + 176) ++ [180])) s

/-- Discard the queued matrix commands of a frame that have not started (R209), with the dirty bit of the queue (R224). -/
def dropCmds (s : State) (c f : BitVec 12) : State :=
  let mine (m : MatCmd) : Bool := m.colour == c && m.frame == f && !m.started
  match s.col? c.toNat with
  | none => s
  | some k => k.tileList.foldl (fun s t =>
      if (s.tile t).cmds.any mine then
        setDirty (s.updTile t (fun x => { x with cmds := x.cmds.filter (fun m => !mine m) })) k (ltileOf k t) [180]
      else s) s

/-- Tokens of a frame in a port. -/
def Port.ofFrame (p : Port) (f : BitVec 12) : Nat := (p.buf.filter (fun i => i.tok.frame == f && i.tok.kind == 0)).length

/-- Remove a frame's entries from a port. -/
def Port.purge (p : Port) (c f : BitVec 12) : Port :=
  { buf := p.buf.filter (fun i => !(i.tok.frame == f && i.tok.kind == 0)), latches := p.latches.filter (fun l => l.pair != some (c, f)) }

/-- Tokens of a frame that a stake holds. -/
def StakeSt.ofFrame (st : StakeSt) (f : BitVec 12) : Nat :=
  st.pa.ofFrame f + st.pb.ofFrame f + st.pc.ofFrame f + st.pt.ofFrame f +
    ((st.ready.filter (fun o => o.toks.any (fun t => t.frame == f))).map (fun o => o.toks.length)).sum

/-- Remove a frame's tokens from a stake. -/
def StakeSt.purge (st : StakeSt) (c f : BitVec 12) : StakeSt :=
  { st with pa := st.pa.purge c f, pb := st.pb.purge c f, pc := st.pc.purge c f, pt := st.pt.purge c f,
            ready := st.ready.filter (fun o => !o.toks.any (fun t => t.frame == f)),
            out := st.out.filter (fun e => e.tok.frame != f) }

/-- The purge sweep: every tile discards the frame's tokens, and every router too; each is counted in PURGED (R36). -/
def purgeFrame (s : State) (c f : BitVec 12) : State :=
  match s.col? c.toNat with
  | none => s
  | some k =>
    let sts := stakesOf s c
    let inStakes := (sts.map (fun st => st.ofFrame f)).sum
    let mine (t : Token) : Bool := t.colour == c && t.frame == f && t.kind == 0
    let inRows := (k.tileList.map (fun t => ((s.tile t).rows.filter mine).length + ((s.tile t).early.filter (fun i => mine i.tok)).length)).sum
    let isMine (i : ChanItem) : Bool := match i with
      | .tok t => mine t
      | .beyond _ => false
    let inNet := ((netOf s c).map (fun x => (x.items.filter isMine).length)).sum
    let inRow (lt : Nat) : Bool := k.tileList.any (fun t => (s.tile t).rows.any (fun r => mine r && r.lstake.toNat / 128 == lt))
    let s0 := k.anchors.foldl (fun s a => if inRow a.1 then setDirty s k a.1 (rowBlocks s c k a.1 0) else s) s
    let s1 := sts.foldl (fun s st => if st.ofFrame f = 0 && st.out.isEmpty then s
      else settleHead (putStake s c (st.purge c f)) c st.lstake) s0
    let s2 := k.tileList.foldl (fun s t => s.updTile t (fun x =>
      { x with rows := x.rows.filter (fun r => !mine r), early := x.early.filter (fun i => !mine i.tok) })) s1
    let s3 := (netOf s2 c).foldl (fun s x => chanSet s x.key (x.items.filter (fun i => !isMine i)) x.ext) s2
    countPurged s3 c (inStakes + inRows + inNet)

/-- STATE of a slot is written (R251). -/
def writeState (s : State) (k : Colour) (slot v : Nat) : DevRes := devWrite s k.vf (slotVa k slot) [BitVec.ofNat 8 v] true

/-- STATE of a slot that no frame holds any longer is written. A fault is reported, and a write that faults or waits is kept and
tried again (R250). -/
def postState (s : State) (c : BitVec 12) (slot v : Nat) : State :=
  let keep (s : State) (told : Bool) : State := s.updCol c.toNat (fun k => { k with
    slotWrites := k.slotWrites.filter (fun w => w.1 != slot) ++ [(slot, v, told)] })
  match s.col? c.toNat with
  | none => s
  | some k => match writeState s k slot v with
    | .ok _ s1 => s1
    | .wait s1 => keep s1 false
    | .fault cause reason va s1 => keep (areaFaultEvent s1 c k.vf cause reason va) true

/-- The writes of STATE that wait are tried again, oldest first (R250). -/
def retryStates (s : State) (c : BitVec 12) : List (Nat × Nat × Bool) → State
  | [] => s
  | w :: rest =>
    let mark (s : State) (told : Bool) : State := s.updCol c.toNat (fun k => { k with
      slotWrites := k.slotWrites.map (fun x => if x.1 = w.1 then (x.1, x.2.1, told) else x) })
    let s1 := match s.col? c.toNat with
      | none => s
      | some k => match writeState s k w.1 w.2.1 with
        | .ok _ s1 => s1.updCol c.toNat (fun k => { k with slotWrites := k.slotWrites.filter (fun x => x.1 != w.1) })
        | .wait s1 => s1
        | .fault cause reason va s1 => if w.2.2 then s1 else mark (areaFaultEvent s1 c k.vf cause reason va) true
    retryStates s1 c rest

/-- JOBID of a task record (Table 2.5). -/
def recJob (r : W512) : BitVec 32 := r.extractLsb' 384 32

/-- Discard the waiting results and requests of a frame that is killed: barriers, marks, pops, fences and held requests. -/
def dropFrameWork (s : State) (c f : BitVec 12) : State :=
  let s1 := (reqsOf s c f).foldl (fun s r =>
    if r.2.phase == .chan || r.2.phase == .held || r.2.waiting || waitsOnBit s r.2 then
      countPurged (leaveRing (dropAcks (s.delReq r.1) r.2) r.2) c (if r.2.phase == .chan then 1 else 0) else s) s
  { s1.updCol c.toNat (fun k => { k with
      marks := k.marks.filter (fun w => w.frame != f), qfences := k.qfences.filter (fun q => q.2.frame != f),
      out := k.out.filter (fun e => e.2.all (fun x => x.tok.frame != f)) }) with
    clus := s1.clus.map (fun x => (x.1, { x.2 with
      tickets := x.2.tickets.filter (fun t => !(t.colour == c && t.frame == f)),
      fenceWait := x.2.fenceWait.filter (fun r => (mapGet? s1.reqs r).isSome) })) }

/-- Kill a frame (R258): its barriers are left, its records are discarded, and its purge starts once the retiring set has a place
(R37; log entry 90); `report` posts the KILL event and fails the job of a root frame with a status (R55). -/
def killFrame (s : State) (c f : BitVec 12) (report : Bool) (status : BitVec 8) : State :=
  match s.col? c.toNat, frame? s c f with
  | some k, some x =>
    if x.phase.gone then s else
    let s1 := freeBanks (dropCmds (dropFrameWork (leaveBarriers s c f true) c f) c f) c f
    let s2 := match x.slot with
      | some n => postState s1 c n 4
      | none => s1
    let ev := { Event.zero with ty := 4, colidx := BitVec.ofNat 16 (colidx s c.toNat), id := recJob x.task,
                                    frame := x.num.setWidth 16, cause := cKILL }
    let s3 := if report then raise s2 k.vf ev else s2
    let s4 := if x.root && report then endJob s3 k.vf (recJob x.task) status else s3
    updFrame s4 c f (fun y => { y with
      phase := if k.retiring.length < 16 then .purging else .killed, awaitTiles := k.tileList, recs := [], slot := none,
      root := false, ended := true, tend := false })
  | _, _ => s

/-- A killed frame that waits enters the retiring set when it has a place: the oldest first (R37, R258). -/
def admitKilled (s : State) (c : BitVec 12) : State :=
  match s.col? c.toNat with
  | none => s
  | some k =>
    let waits := (mapVals k.frames).filter (fun x => x.phase == .killed)
    match waits.find? (fun x => waits.all (fun y => !older y.seq x.seq)) with
    | some x => if k.retiring.length < 16 then updFrame s c x.num (fun y => { y with phase := .purging, awaitTiles := k.tileList }) else s
    | none => s

end Sys2Proof.Machine
end

