-- ==== Sys2Proof/Machine/Prefetch.lean ====
section
/-! DEFINITION. Bringing a line to an L1D for a prefetch or a hint (R414, R454). -/

namespace Sys2Proof.Machine

/-- A cluster asks for the line of a translated address: a PRIVATE page fills without the directory (R153), a SHARED one sends
GETS (R151). Anything else is dropped. `va` is the virtual address, of a VF. -/
def fetchLine (s : State) (vf c va pa : Nat) (p : W64) : State :=
  let line := pa / 128
  let h := effHome p pa
  let pin := if h = 2 then some (vf, va / 128 * 128) else none
  if !(h == 0 || h == 2) || !isHbm pa || !hbmUsable s pa || (l1Find s c line).isSome || locked s line || (h == 2 && !pinReady s c line) then s
  else if pteCls p = 1 && pteOwner p = c then grantLine s c line .e true pin
  else if pteCls p = 2 && dirRoom s line then dirRequest s line (.gets c pin)
  else s

/-- A FETCH hint: a hit in the tile's or the home cluster's TLB on a page that grants R fetches its line; anything else does
nothing (R414). -/
def hintFetch (s : State) (f : Fire) (va : Nat) : State :=
  let g := va / 4096 * 4096
  match tlbSays s f.k (tlbLook s f.k f.tile f.home g) f.home g .load with
  | .ok pa p => if 2 ^ 57 ≤ va then s else fetchLine s f.k.vf f.home va (pa + va % 4096) p
  | _ => s

end Sys2Proof.Machine
end

