-- ==== Sys2Proof/Machine/Firing.lean ====
section
/-! DEFINITION. When a stake may fire: the operand set of each kind of stake, what each opcode waits for, and the order in which a
tile's two firing slots are given (R31, R34, R37, R57, R59, R64, R72, R179, R207, R208, R215, R227, R290, R384, R419, R439). -/

namespace Sys2Proof.Machine

/-! ## Operand sets -/

/-- The token that a firing took on port a, or on its first used port. -/
def Fire.first (f : Fire) : Token :=
  match f.ops.toks with
  | t :: _ => t
  | [] => mkToken 0 0 f.colour f.frame f.wave f.tile

/-- The firing of an operand set of a stake of a tile. -/
def fireAt (tile : Nat) (c : BitVec 12) (k : Colour) (st : StakeSt) (o : OpSet) : Fire :=
  let t := o.toks.headD (mkToken 0 0 c 0 0 0)
  { tile := tile, st := st, k := k, ops := o, colour := c, frame := t.frame, wave := t.wave }

/-- The firing of an operand set of a stake at the cursor. -/
def fireOf (s : State) (c : BitVec 12) (k : Colour) (st : StakeSt) (o : OpSet) : Fire := fireAt s.cur.place c k st o

/-- The operand set that a MERGE would take from port a or b: the head of a FIFO port, the oldest frame's at a MATCH port (R439),
with the token of a used port t (R308). -/
def mergeHead (k : Colour) (st : StakeSt) (tile p : Nat) : Option OpSet :=
  let fires (t : Option Token) : Bool := match t with
    | some t => frameFires k t.frame tile st.opc
    | none => false
  if st.isMatch then oldestSet k (st.ready.filter (fun o => fires (o.get p)))
  else match (st.port p).head with
    | none => none
    | some i =>
      if !frameFires k i.tok.frame tile st.opc then none
      else if st.dt = 0 then some (OpSet.empty.put p i.tok)
      else st.pt.head.map (fun j => (OpSet.empty.put p i.tok).put 3 j.tok)

/-- The port of a MERGE's next firing, with the operand set and the new state of the alternation (R439). -/
def mergeChoice (k : Colour) (st : StakeSt) (tile : Nat) : Option (Nat × OpSet × Bool) :=
  match mergeHead k st tile 0, mergeHead k st tile 1 with
  | some a, some b => if st.mergeB then some (1, b, false) else some (0, a, true)
  | some a, none => some (0, a, false)
  | none, some b => some (1, b, false)
  | none, none => none

/-- Take the token at the head of a FIFO port out. -/
def StakeSt.popHead (st : StakeSt) (p : Nat) : StakeSt :=
  match (st.port p).head with
  | some i => st.setPort p ((st.port p).remove i)
  | none => st

/-- Take a MERGE's operand set out. -/
def mergeTake (st : StakeSt) (p : Nat) (o : OpSet) (b : Bool) : StakeSt :=
  let st1 := if st.isMatch then { st with ready := st.ready.erase o }
    else if st.dt = 0 then st.popHead p else (st.popHead p).popHead 3
  { st1 with mergeB := b }

/-- The token that a KGATE admits next: the oldest frame's, in arrival order within a frame (R43, R419). -/
def kgateItem (k : Colour) (st : StakeSt) (tile : Nat) : Option PItem :=
  let items := (freeItems [] st.pa.buf).filter (fun i => !i.misfit && frameFires k i.tok.frame tile st.opc)
  let age (i : PItem) : BitVec 32 := match mapGet? k.frames i.tok.frame.toNat with
    | some f => f.seq
    | none => 0
  items.foldl (fun best i => match best with
    | none => some i
    | some b => if older (age i) (age b) then some i else some b) none

/-- The operand set of a KGATE's next firing: the token that it admits, with the head of a used port t (R308). -/
def kgateSet (k : Colour) (st : StakeSt) (tile : Nat) : Option (PItem × OpSet) :=
  match kgateItem k st tile with
  | none => none
  | some i =>
    if st.dt = 0 then some (i, OpSet.empty.put 0 i.tok)
    else st.pt.head.map (fun j => (i, (OpSet.empty.put 0 i.tok).put 3 j.tok))

/-- Take a KGATE's operand set out. -/
def kgateTake (st : StakeSt) (i : PItem) : StakeSt :=
  let st1 := { st with pa := st.pa.remove i }
  if st.dt = 0 then st1 else st1.popHead 3

/-- The bound of a KGATE (R419). -/
def StakeSt.kbound (st : StakeSt) : Nat := (st.word.extractLsb' 0 12).toNat

/-- KGATE may fire: its destinations are ready and its count lies below its bound (R43). -/
def kgateReady (s : State) (f : Fire) : Bool := destsReady s f && decide (f.st.kn < f.st.kbound)

/-- The head of a port of a stake, when its frame lets it fire. -/
def fireHead (k : Colour) (st : StakeSt) (tile p : Nat) : Option PItem :=
  match (st.port p).head with
  | some i => if frameFires k i.tok.frame tile st.opc then some i else none
  | none => none

/-- The operand set that a VQUANT may take: of port a, else of port t (R500, R501). -/
def quantSet (k : Colour) (st : StakeSt) (tile : Nat) : Option OpSet :=
  match fireHead k st tile 0, (if st.dt = 0 then none else fireHead k st tile 3) with
  | some i, _ => some (OpSet.empty.put 0 i.tok)
  | none, some i => some (OpSet.empty.put 3 i.tok)
  | none, none => none

/-- The operand set of the next firing of a stake, by its opcode: MERGE, KGATE and VQUANT choose among their ports. -/
def opsOf (k : Colour) (st : StakeSt) (tile : Nat) : Option OpSet :=
  match st.opc with
  | 0x05 => (mergeChoice k st tile).map (fun x => x.2.1)
  | 0x0C => (kgateSet k st tile).map Prod.snd
  | 0x68 => quantSet k st tile
  | _ => nextSet k st tile

/-! ## What a firing waits for -/

/-- The lowest free FRAME of a colour (R33). -/
def freeFrame (k : Colour) : Option (BitVec 12) :=
  ((List.range 4096).find? (fun n => (mapGet? k.frames n).isNone)).map (BitVec.ofNat 12)

/-- Frames homed in a cluster: its frame table's entries in use (R34). -/
def homedIn (s : State) (c : Nat) : Nat := (s.cols.map (fun k => (k.2.frames.filter (fun f => f.2.home == c)).length)).sum

/-- FRAMENEW may fire: a FRAME number and an entry of the home cluster's table are free (R34). -/
def framenewReady (s : State) (f : Fire) : Bool :=
  destsReady s f && (freeFrame f.k).isSome && decide (homedIn s (cluOfTile f.tile) < 1024)

/-- FRAMEEND and TASKEND may fire: the retiring set has room, and the frame has no BAR waiting (R37, R403, R478). -/
def endReady (s : State) (f : Fire) : Bool :=
  destsReady s f && decide (f.k.retiring.length < 16) &&
    (List.range 16).all (fun n => !(barOf s f.colour n).waiters.any (fun w => w.frame == f.frame))

/-- The command queue of the tile has an entry: a command holds one until it has performed (R208). -/
def cmdRoom (s : State) (f : Fire) : Bool := decide (((s.tile f.tile).cmds.filter (fun m => !m.performed)).length < 32)

/-- The bank's queued owner is none, the firing's frame, or a frame that is no longer live (R207). -/
def bankOpen (b : Nat) (s : State) (f : Fire) : Bool :=
  match ((s.tile f.tile).acc b).qowner with
  | none => true
  | some (c, fr) => (c == f.colour && fr == f.frame) || (match s.col? c.toNat with
      | some k => !k.isLive fr
      | none => true)

/-- MMA may fire: an entry is free and its stake has fewer commands than its depth (R208, R215). -/
def mmaGate (s : State) (f : Fire) : Bool :=
  cmdRoom s f && decide (((s.tile f.tile).cmds.filter (fun m => m.colour == f.colour && m.lstake == f.st.lstake && !m.performed)).length <
    min f.st.da f.st.db)

/-- A covered access has performed: it holds no entry, or only its result has still to leave, and no replay record waits for
it. -/
def accessDone (s : State) (x : Frame) (id : Nat) : Bool :=
  (match s.req? id with
    | some r => r.phase == .performed
    | none => true) && !x.recs.any (fun r => r.rid == some id)

/-- The ticket slot that a token names at its frame's home buffer, when it names a live one (R180). -/
def ticketOf (s : State) (f : Fire) : Option Ticket :=
  let v := fld f.first.data 0 64
  if 2 ^ 38 ≤ v then none
  else (s.clu f.home).tickets.find? (fun t => t.tser.toNat == v % 2 ^ 32 && t.colour == f.colour && t.frame == f.frame)

/-- Conditions 1 and 2 of R179. -/
def ticketMet (s : State) (x : Frame) (t : Ticket) : Bool := t.covered.all (accessDone s x) && t.sy == 3

/-- FWAIT fires, or traps, in this state. -/
def fwaitReady (s : State) (f : Fire) : Bool :=
  match ticketOf s f, frame? s f.colour f.frame with
  | some t, some x => destsReady s f && ticketMet s x t
  | _, _ => true

/-- No write of a colour to the host or a peer is unacknowledged. -/
def Colour.acked (k : Colour) : Bool := k.out0 == 0 && k.out1 == 0

/-- EVENT may fire: its record can be buffered, or its VF is pausing, the hold ring has room and the wait of R384 is over. -/
def eventGate (s : State) (f : Fire) : Bool :=
  destsReady s f && canRaise s f.k.vf && (!(s.vf f.k.vf).pause || f.k.acked)

/-- The bank that a matrix stake names (R210). -/
def StakeSt.bank (st : StakeSt) : Nat := (st.word.extractLsb' 33 2).toNat

/-- What the firing of a stake waits for, by its opcode: an instruction that sends a request, room on its request channel; a
matrix instruction, an entry of the command queue; every other, its destinations (R72, R119, R208). -/
def gateOf (s : State) (f : Fire) : Bool :=
  match f.st.opc with
  | 0x09 => framenewReady s f
  | 0x0A | 0x12 => endReady s f
  | 0x0C => kgateReady s f
  | 0x79 => fwaitReady s f
  | 0xA5 => eventGate s f
  | 0x98 | 0x9C => cmdRoom s f && bankOpen f.st.bank s f
  | 0x99 => mmaGate s f
  | 0x9A | 0x9B => cmdRoom s f
  | 0x10 | 0x11 | 0x13 | 0x14 | 0x90 | 0x91 | 0xA8 => reqRoom s f
  | n => if 0x70 ≤ n && n ≤ 0x82 then reqRoom s f else destsReady s f

/-! ## The order of R57 -/

/-- The misfit route of a stake: the field with Q = 1, but for a STEER (R64). -/
def misfitRoute (st : StakeSt) : Option (Nat × Dest) :=
  if st.opc = 3 then none else (allDests st.common).find? (fun d => d.2.q)

/-- The misfit of a port that is forwarded next, when its frame may still act. -/
def misfitNext (k : Colour) (st : StakeSt) (tile p : Nat) : Option PItem :=
  match (st.port p).misfitHead with
  | some i => if frameFires k i.tok.frame tile 0 then some i else none
  | none => none

/-- The misfits of a stake that are ready to be forwarded: their route can accept, or they have none and trap (R64). -/
def misfitFires (s : State) (c : BitVec 12) (k : Colour) (st : StakeSt) (tile : Nat) : List Fire :=
  let open_ : Bool := match misfitRoute st with
    | none => true
    | some d => chanRoom s (destKey c .stake st.lstake d.1 d.2)
  if !open_ then [] else [0, 1, 2].filterMap (fun p => (misfitNext k st tile p).map (fun i =>
    fireAt tile c k st (OpSet.empty.put p i.tok)))

/-- What a stake of the active bank could put into a firing slot now. -/
def stakeFires (s : State) (c : BitVec 12) (k : Colour) (tile : Nat) (st : StakeSt) : List Fire :=
  if cutHolds k st then []
  else
    let own := if st.out.isEmpty then (opsOf k st tile).toList.map (fireAt tile c k st) else []
    own.filter (gateOf s) ++ misfitFires s c k st tile

/-- The ready firings and misfits of a tile. The active bank holds the stakes of one colour, so that rounds are compared within
a colour (R59). -/
def readyFires (s : State) (tile : Nat) : List Fire :=
  let b := (s.tile tile).active
  match b.colour with
  | none => []
  | some c => match s.col? c.toNat with
    | none => []
    | some k => if k.running then (mapVals b.slots).flatMap (stakeFires s c k tile) else []

/-- The age of a firing's frame (R35). -/
def Fire.age (f : Fire) : BitVec 32 :=
  match mapGet? f.k.frames f.frame.toNat with
  | some x => x.seq
  | none => 0

/-- R57: firing `a` is chosen before firing `b`: its stake is in the older round, its frame is the older, its stake has the lower
number. -/
def precedes (a b : Fire) : Bool :=
  if a.st.round ≠ b.st.round then (b.st.round - a.st.round).toNat < 2 ^ 15
  else if a.age ≠ b.age then older a.age b.age
  else decide (a.st.lstake.toNat < b.st.lstake.toNat)

/-- DUTY allows firings and matrix steps in this clk: in 16 − 2·DUTY of every 16 clk, here the first ones (R344; log entry 106). -/
def issueOpen (s : State) : Bool := decide (s.clk % 16 < 16 - 2 * s.pf.duty.toNat)

/-- One of the tile's two firing slots of this clk falls to a firing: fewer slots are used, or go to ready firings before it in
the order of R57, than there are. -/
def slotFree (s : State) (f : Fire) : Bool :=
  decide ((slotsUsed s f.tile).length +
    ((readyFires s f.tile).filter (fun g => g.st.lstake != f.st.lstake && precedes g f)).length < 2)

/-- A firing may begin in this clk: throttling leaves the clk open, a slot falls to it, and its stake has not fired in this clk (R57,
R227, R344). -/
def hasTurn (s : State) (f : Fire) : Bool := issueOpen s && slotFree s f && !(slotsUsed s f.tile).contains (some f.st.lstake)

/-- A FRAMENEW that joins barrier `n` may fire in this clk: its join comes before an arrival (R365). -/
def joinFirst (s : State) (f : Fire) (n : Nat) : Bool :=
  f.k.tileList.any (fun t => (readyFires s t).any (fun g =>
    g.st.opc == 0x09 && (g.st.word.extractLsb' 0 16).getLsbD n && hasTurn s g))

/-- BAR may fire: its destinations are ready, and every join of its barrier in this clk has been made (R72, R365). -/
def barGate (n : Nat) (s : State) (f : Fire) : Bool := destsReady s f && !joinFirst s f n

/-! ## Firing -/

/-- A firing that `gate` admits and to which a slot falls begins, leaving the stake as `st`; `body` gives its effect, and an input
that fails its check makes it trap instead (R31, R57, R69, R70). -/
def startFire (gate : State → Fire → Bool) (body : State → Fire → State) (s : State) (f : Fire) (st : StakeSt) : State :=
  if !gate s f || !hasTurn s f then s
  else
    let s1 := noteFiring (putStake s f.colour { st with fresh := false }) f.tile f.colour f.st.lstake
    settleAfter (if f.ops.toks.all Token.ok then body s1 f else trapCorrupt s1 f) f

/-- Run a firing: when one may begin and `gate` holds, it consumes its inputs and takes its effect. Otherwise nothing fires and
the step ends. -/
def runFire (gate : State → Fire → Bool) (body : State → Fire → State) (s : State) : State :=
  match pick s with
  | none => s
  | some f => startFire gate body s f (takeSet f.st f.ops)

end Sys2Proof.Machine
end

