-- ==== Sys2Proof/Machine/Fp.lean ====
section
/-! DEFINITION. Floating-point values, exact operations on them and rounding (R90 to R103, R114, R115). -/

namespace Sys2Proof.Machine

/-- The exponent bits of a floating-point type (Table 4.2). -/
def expBits : Ty → Nat
  | .f64 => 11 | .f32 => 8 | .bf16 => 8 | .f16 => 5 | .e5m2 => 5 | .e4m3 => 4 | _ => 2

/-- The fraction bits of a floating-point type: m of R90. -/
def fracBits : Ty → Nat
  | .f64 => 52 | .f32 => 23 | .bf16 => 7 | .f16 => 10 | .e5m2 => 2 | .e4m3 => 3 | _ => 1

/-- The bias of a floating-point type (Table 4.2). -/
def bias : Ty → Nat
  | .f64 => 1023 | .f32 => 127 | .bf16 => 127 | .f16 => 15 | .e5m2 => 15 | .e4m3 => 7 | _ => 1

/-- The type has infinities (R91). -/
def hasInf : Ty → Bool
  | .f64 | .f32 | .bf16 | .f16 | .e5m2 => true
  | _ => false

/-- The code of the largest finite value, sign 0 (Table 4.3). -/
def maxCode : Ty → Nat
  | .f64 => 0x7FEFFFFFFFFFFFFF | .f32 => 0x7F7FFFFF | .bf16 => 0x7F7F | .f16 => 0x7BFF | .e5m2 => 0x7B | .e4m3 => 0x7E
  | _ => 7

/-- The code of infinity, sign 0 (Table 4.3), for a type that has one. -/
def infCode (t : Ty) : Nat := (2 ^ expBits t - 1) * 2 ^ fracBits t

/-- The canonical quiet NaN (Table 4.3); E2M1 has none and takes 0. -/
def nanCode : Ty → Nat
  | .f64 => 0x7FF8000000000000 | .f32 => 0x7FC00000 | .bf16 => 0x7FC0 | .f16 => 0x7E00 | .e5m2 => 0x7E | .e4m3 => 0x7F
  | _ => 0

/-- The sign bit's weight. -/
def signBit (t : Ty) : Nat := 2 ^ (t.width - 1)

/-- A value: a NaN with its sign and its fraction of `m` bits; an infinity; or an exact number `num / den`, where `den` is
not 0 and a zero keeps its sign. -/
inductive FVal where
  | nan (neg : Bool) (frac m : Nat)
  | inf (neg : Bool)
  | num (neg : Bool) (n d : Nat)
  deriving DecidableEq, Repr

/-- The canonical quiet NaN as a value. -/
def FVal.canon : FVal := .nan false 1 1

/-- The exact value `x · 2^k`. -/
def scale2 (n d : Nat) (k : Int) : Nat × Nat :=
  if 0 ≤ k then (n * 2 ^ k.toNat, d) else (n, d * 2 ^ (-k).toNat)

/-- Subnormal inputs of the type are flushed (R99). -/
def flushIn (env : FpEnv) : Ty → Bool
  | .f32 | .bf16 | .f16 => env.fz
  | .e4m3 | .e5m2 => env.fzn
  | _ => false

/-- Decode a lane exactly, with no flush (R90 to R92). -/
def decodeF (t : Ty) (x : Nat) : FVal :=
  let m := fracBits t
  let neg := (x / signBit t) % 2 = 1
  let e := (x / 2 ^ m) % 2 ^ expBits t
  let f := x % 2 ^ m
  if e = 2 ^ expBits t - 1 && hasInf t then (if f = 0 then .inf neg else .nan neg f m)
  else if t = .e4m3 && e = 15 && f = 7 then .nan neg f m
  else if e = 0 then
    let r := scale2 f 1 (1 - (bias t : Int) - m)
    .num neg r.1 r.2
  else
    let r := scale2 (2 ^ m + f) 1 ((e : Int) - bias t - m)
    .num neg r.1 r.2

/-- The lane is subnormal. -/
def isSubnormal (t : Ty) (x : Nat) : Bool :=
  (x / 2 ^ fracBits t) % 2 ^ expBits t = 0 && x % 2 ^ fracBits t != 0

/-- Decode an operand lane, with subnormals flushed under FZ and FZN (R99, R354). -/
def decodeIn (env : FpEnv) (t : Ty) (x : Nat) : FVal :=
  if isSubnormal t x && flushIn env t then .num ((x / signBit t) % 2 = 1) 0 1 else decodeF t x

/-- A NaN. -/
def FVal.isNan : FVal → Bool
  | .nan _ _ _ => true
  | _ => false

/-- A signalling NaN (R93): its most significant fraction bit is 0. -/
def FVal.isSnan : FVal → Bool
  | .nan _ f m => f / 2 ^ (m - 1) % 2 = 0
  | _ => false

/-- The sign of a value. -/
def FVal.isNeg : FVal → Bool
  | .nan s _ _ | .inf s | .num s _ _ => s

/-- A zero. -/
def FVal.isZero : FVal → Bool
  | .num _ n _ => n = 0
  | _ => false

/-- An infinity. -/
def FVal.isInf : FVal → Bool
  | .inf _ => true
  | _ => false

/-- A NaN with its most significant fraction bit set (R101). -/
def FVal.quiet : FVal → FVal
  | .nan s f m => .nan s (if f / 2 ^ (m - 1) % 2 = 0 then f + 2 ^ (m - 1) else f) m
  | v => v

/-- The sign bit as the weight it adds to a code. -/
def signOf (t : Ty) (neg : Bool) : Nat := if neg then signBit t else 0

/-- A NaN put into a format (R101, nanResult of R102), with the flags it sets. -/
def nanResult (t : Ty) (neg : Bool) (f m : Nat) : Nat × Flags :=
  match t with
  | .e4m3 | .e5m2 => (nanCode t, 0)
  | .e2m1 => (0, flagNV)
  | _ =>
    let k := fracBits t
    (signOf t neg + infCode t + (if k ≤ m then f / 2 ^ (m - k) else f * 2 ^ (k - m)), 0)

/-- The mode rounds away from zero: `n` whole spacings and a remainder `r / d` of one, for a value of the given sign
(R102). -/
def roundsUp (rm : Rm) (neg : Bool) (n r d : Nat) (word : BitVec 32) : Bool :=
  r != 0 &&
  match rm with
  | .rne => decide (2 * r > d) || (2 * r == d && n % 2 == 1)
  | .rtz => false
  | .rup => !neg
  | .rdn => neg
  | .rsr => decide (r * 2 ^ 32 > word.toNat * d)

/-- An output of the type that is subnormal is flushed (R99). -/
def flushOut (env : FpEnv) (t : Ty) : Bool := flushIn env t

/-- ⌊log2 (n / d)⌋ for n, d not zero. -/
def log2Rat (n d : Nat) : Int :=
  let k : Int := (ilog2 n : Int) - ilog2 d
  let s := scale2 1 1 k
  if d * s.1 ≤ n * s.2 then k else k - 1

/-- Where a rounded result exceeds the largest finite value (R102, R103). -/
def overflowCode (t : Ty) (sat : Bool) (rm : Rm) (neg : Bool) : Nat :=
  if sat || !hasInf t then signOf t neg + maxCode t
  else
    let toInf := match rm with
      | .rne | .rsr => true
      | .rtz => false
      | .rup => !neg
      | .rdn => neg
    signOf t neg + (if toInf then infCode t else maxCode t)

/-- roundTo on a number that is not zero (R102). -/
def roundNum (env : FpEnv) (t : Ty) (sat : Bool) (neg : Bool) (n d : Nat) (word : BitVec 32) : Nat × Flags :=
  let m := fracBits t
  let emin : Int := 1 - (bias t : Int)
  let e := max (log2Rat n d) emin
  let s := scale2 n d ((m : Int) - e)
  let k := s.1 / s.2
  let r := s.1 % s.2
  let up := roundsUp env.rm neg k r s.2 word
  let code := (e - emin).toNat * 2 ^ m + k + (if up then 1 else 0)
  let inexact := r != 0
  if code > maxCode t then (overflowCode t sat env.rm neg, flagOF ||| flagNX)
  else if code < 2 ^ m then
    if flushOut env t then (signOf t neg, flagUF ||| flagNX)
    else (signOf t neg + code, if inexact then flagUF ||| flagNX else 0)
  else (signOf t neg + code, if inexact then flagNX else 0)

/-- roundTo (R102), with the plait word of the element for RSR; `sat` is fmt.SAT. -/
def roundTo (env : FpEnv) (t : Ty) (sat : Bool) (v : FVal) (word : BitVec 32 := 0) : Nat × Flags :=
  match v with
  | .nan s f m => nanResult t s f m
  | .inf s => if hasInf t && !sat then (signOf t s + infCode t, 0) else (signOf t s + maxCode t, flagNV)
  | .num s n d => if n = 0 then (signOf t s, 0) else roundNum env t sat s n d word

/-- A result of an operation before rounding: the value and the flags that the operation itself sets. -/
abbrev FRes := FVal × Flags

/-- The NaN that an operation with NaN operands delivers, and NV for a signalling one (R100, R101). -/
def nanOf (env : FpEnv) (xs : List FVal) : Option FRes :=
  match xs.find? FVal.isNan with
  | none => none
  | some v => some (if env.dn then .canon else v.quiet, if xs.any FVal.isSnan then flagNV else 0)

/-- An invalid operation's result (R100, R101). -/
def invalid : FRes := (.canon, flagNV)

/-- An exact number as numerator over denominator, signed. -/
def FVal.rat : FVal → Int × Nat
  | .num s n d => (if s then -(n : Int) else n, d)
  | _ => (0, 1)

/-- The exact sum of numbers. -/
def sumRat : List FVal → Int × Nat
  | [] => (0, 1)
  | x :: xs =>
    let a := x.rat
    let b := sumRat xs
    (a.1 * b.2 + b.1 * a.2, a.2 * b.2)

/-- The sign of an exact sum of zero (R354): −0 when every addend is −0, or when the addends have both signs under RDN. -/
def zeroNeg (env : FpEnv) (xs : List FVal) : Bool :=
  xs.all FVal.isNeg || (env.rm == .rdn && xs.any FVal.isNeg)

/-- The exact sum of values none of which is a NaN; infinities of both signs are invalid (R100, R354). -/
def sumVals (env : FpEnv) (xs : List FVal) : FRes :=
  let pos := xs.any (fun v => v.isInf && !v.isNeg)
  let neg := xs.any (fun v => v.isInf && v.isNeg)
  if pos && neg then invalid
  else if pos then (.inf false, 0)
  else if neg then (.inf true, 0)
  else
    let s := sumRat xs
    if s.1 = 0 then (.num (zeroNeg env xs) 0 1, 0) else (.num (s.1 < 0) s.1.natAbs s.2, 0)

/-- FADD before rounding. -/
def addF (env : FpEnv) (a b : FVal) : FRes := (nanOf env [a, b]).getD (sumVals env [a, b])

/-- The value with its sign inverted. -/
def FVal.negate : FVal → FVal
  | .nan s f m => .nan (!s) f m
  | .inf s => .inf (!s)
  | .num s n d => .num (!s) n d

/-- FSUB before rounding: a NaN operand is delivered with its own sign. -/
def subF (env : FpEnv) (a b : FVal) : FRes := (nanOf env [a, b]).getD (sumVals env [a, b.negate])

/-- The product of values none of which is a NaN; none for 0 · ∞. -/
def mulVals (a b : FVal) : Option FVal :=
  let s := a.isNeg != b.isNeg
  match a, b with
  | .num _ n d, .num _ n' d' => some (.num s (n * n') (d * d'))
  | .inf _, y => if y.isZero then none else some (.inf s)
  | x, .inf _ => if x.isZero then none else some (.inf s)
  | _, _ => none

/-- FMUL before rounding. -/
def mulF (env : FpEnv) (a b : FVal) : FRes :=
  match nanOf env [a, b] with
  | some r => r
  | none => match mulVals a b with
    | some v => (v, 0)
    | none => invalid

/-- FFMA before rounding: 0 · ∞ is invalid even when c is a quiet NaN, and the NaN then follows R101 (Table 16.1). -/
def fmaF (env : FpEnv) (a b c : FVal) : FRes :=
  let bad := !a.isNan && !b.isNan && (mulVals a b).isNone
  match nanOf env [a, b, c] with
  | some r => (r.1, if bad then r.2 ||| flagNV else r.2)
  | none => match mulVals a b with
    | none => invalid
    | some p => sumVals env [p, c]

/-- FDIV before rounding (Table 16.1). -/
def divF (env : FpEnv) (a b : FVal) : FRes :=
  let s := a.isNeg != b.isNeg
  match nanOf env [a, b] with
  | some r => r
  | none =>
    match a, b with
    | .inf _, .inf _ => invalid
    | .inf _, _ => (.inf s, 0)
    | _, .inf _ => (.num s 0 1, 0)
    | .num _ n d, .num _ n' d' =>
      if n' = 0 then (if n = 0 then invalid else (.inf s, flagDZ)) else (.num s (n * d') (d * n'), 0)
    | _, _ => invalid

/-- Integer square root, by bisection from the top bit: `fuel` bits. -/
def isqrtGo (n : Nat) : Nat → Nat → Nat
  | 0, r => r
  | k + 1, r => let c := r + 2 ^ k; isqrtGo n k (if c * c ≤ n then c else r)

/-- ⌊√n⌋. -/
def isqrt (n : Nat) : Nat := isqrtGo n (ilog2 n / 2 + 1) 0

/-- √(n / d): exact where it is rational with these terms, and otherwise a value strictly between the two neighbouring
multiples of 2^−2000 / d, between which no rounding boundary lies. -/
def sqrtRat (n d : Nat) : Nat × Nat :=
  let x := n * d * 4 ^ 2000
  let r := isqrt x
  if r * r = x then (r, d * 2 ^ 2000) else (2 * r + 1, d * 2 ^ 2001)

/-- FSQRT before rounding (Table 16.1). -/
def sqrtF (env : FpEnv) (a : FVal) : FRes :=
  match nanOf env [a] with
  | some r => r
  | none =>
    match a with
    | .inf s => if s then invalid else (.inf false, 0)
    | .num s n d => if n = 0 then (.num s 0 1, 0) else if s then invalid else
        let r := sqrtRat n d
        (.num false r.1 r.2, 0)
    | v => (v, 0)

/-- One operation's rounded lane and its flags (R354). -/
def finish (env : FpEnv) (t : Ty) (r : FRes) (word : BitVec 32 := 0) : Nat × Flags :=
  let q := roundTo env t false r.1 word
  (q.1, q.2 ||| r.2)

/-- a < b for values that are no NaN, with −0 less than +0 (R114). -/
def ltTotal (a b : FVal) : Bool :=
  match a, b with
  | .inf s, .inf s' => s && !s'
  | .inf s, _ => s
  | _, .inf s => !s
  | .num s n d, .num s' n' d' =>
    if n = 0 && n' = 0 then s && !s'
    else
      let x : Int := if s then -(n * d' : Nat) else (n * d' : Nat)
      let y : Int := if s' then -(n' * d : Nat) else (n' * d : Nat)
      decide (x < y)
  | _, _ => false

/-- Minimum or maximum of values under R114 and R493: a signalling NaN gives the canonical NaN and NV, quiet NaNs lose to
numbers. -/
def minmaxF (isMax : Bool) (xs : List FVal) : FRes :=
  if xs.any FVal.isSnan then invalid
  else
    match xs.filter (fun v => !v.isNan) with
    | [] => (.canon, 0)
    | y :: ys => (ys.foldl (fun m v => if isMax then (if ltTotal m v then v else m) else (if ltTotal v m then v else m)) y, 0)

/-- The code of a value that its type holds exactly: what a minimum, a maximum or a flushed operand becomes. -/
def codeOf (t : Ty) (v : FVal) : Nat := (roundTo { rm := .rne, dn := false, fz := false, fzn := false } t false v).1

/-- FCMP on two values under a condition code (R390): the result and NV. -/
def cmpF (cond : Nat) (a b : FVal) : Bool × Flags :=
  let un := a.isNan || b.isNan
  let snan := a.isSnan || b.isSnan
  let zz := a.isZero && b.isZero
  let lt := !un && !zz && ltTotal a b
  let gt := !un && !zz && ltTotal b a
  let eq := !un && !lt && !gt
  let quietNV := if snan then flagNV else 0
  let anyNV := if un then flagNV else 0
  match cond with
  | 0 => (eq, quietNV)
  | 1 => (!eq, quietNV)
  | 2 => (lt, anyNV)
  | 3 => (lt || eq, anyNV)
  | 4 => (gt, anyNV)
  | 5 => (gt || eq, anyNV)
  | _ => (un, quietNV)

/-- The class mask of Table 16.5. -/
def classMask (t : Ty) (x : Nat) : Nat :=
  let v := decodeF t x
  let neg := if (x / signBit t) % 2 = 1 then 1 else 0
  neg + match v with
    | .nan _ _ _ => 32 + (if v.isSnan then 64 else 0)
    | .inf _ => 16
    | .num _ n _ => if n = 0 then 2 else if isSubnormal t x then 4 else 8

/-- Round an exact number to an integer under a mode (R108, R407): the integer's magnitude, and whether it is exact. -/
def roundInt (rm : Rm) (neg : Bool) (n d : Nat) : Nat × Bool :=
  let k := n / d
  let r := n % d
  (k + (if roundsUp (if rm == .rsr then .rne else rm) neg k r d 0 then 1 else 0), r = 0)

/-- F2I of one lane (R108): the integer, wrapped to the type, and the flags. -/
def f2i (env : FpEnv) (t : Ty) (v : FVal) : Nat × Flags :=
  let w := t.width
  let lo : Int := if t.isSigned then -(2 ^ (w - 1) : Nat) else 0
  let hi : Int := if t.isSigned then (2 ^ (w - 1) : Nat) - 1 else (2 ^ w : Nat) - 1
  match v with
  | .nan _ _ _ => (0, flagNV)
  | .inf s => (wrapInt w (if s then lo else hi), flagNV)
  | .num s n d =>
    let r := roundInt env.rm s n d
    let x : Int := if s then -(r.1 : Int) else r.1
    if x < lo then (wrapInt w lo, flagNV) else if x > hi then (wrapInt w hi, flagNV)
    else (wrapInt w x, if r.2 then 0 else flagNX)

/-- The exact integer as a value; 0 is +0 (R416). -/
def ofInt (x : Int) : FVal := .num (x < 0) x.natAbs 1

/-- FRND of one lane before formatting (R407). -/
def rndF (env : FpEnv) (a : FVal) : FRes :=
  match nanOf env [a] with
  | some r => r
  | none =>
    match a with
    | .num s n d =>
      let r := roundInt env.rm s n d
      (.num s r.1 1, if r.2 then 0 else flagNX)
    | v => (v, 0)

/-- The exact value `v · 2^(s − 127)` of an element under an E8M0 scale; scale 255 gives the canonical quiet NaN (R94). -/
def scaled (v : FVal) (s : Nat) : FVal :=
  if s = 255 then .canon
  else match v with
    | .num neg n d => let r := scale2 n d ((s : Int) - 127); .num neg r.1 r.2
    | w => w

/-- The exact value `v / 2^(s − 127)`. -/
def unscaled (v : FVal) (s : Nat) : FVal :=
  match v with
  | .num neg n d => let r := scale2 n d (127 - (s : Int)); .num neg r.1 r.2
  | w => w

/-- emax of R95. -/
def blockEmax : Ty → Nat
  | .e2m1 => 2 | .e4m3 => 8 | _ => 15

/-- The larger magnitude of a running rational maximum and a value. -/
def maxMag (m : Nat × Nat) (v : FVal) : Nat × Nat :=
  match v with
  | .num _ n d => if m.1 * d < n * m.2 then (n, d) else m
  | _ => m

/-- The scale of a block under R95, and the flags that choosing it sets. -/
def blockScale (t : Ty) (xs : List FVal) : Nat × Flags :=
  if xs.any (fun v => v.isNan || v.isInf) then
    (255, if xs.any (fun v => v.isInf || v.isSnan) then flagNV else 0)
  else
    let m := xs.foldl maxMag (0, 1)
    if m.1 = 0 then (127, 0)
    else
      let k := log2Rat m.1 m.2 - blockEmax t
      ((max (-127) (min 127 k) + 127).toNat, 0)

end Sys2Proof.Machine
end

