-- ==== Sys2Proof/Machine/Operands.lean ====
section
/-! DEFINITION. Every operand form (R307, R309) and the moulds of the lane instructions (R352 to R354). -/

namespace Sys2Proof.Machine

/-- The value that an immediate supplies in a lane of TY (R309). -/
def immLane (t : Ty) (imm : BitVec 32) : Nat :=
  match t with
  | .i64 => (imm.signExtend 64).toNat
  | .n64 | .f32 | .x => imm.toNat
  | .f64 => codeOf .f64 (decodeF .f32 imm.toNat)
  | _ => imm.toNat % 2 ^ t.width

/-- An immediate as a whole operand of TY: the value in each of the first `n` lanes. -/
def immWhole (t : Ty) (imm : BitVec 32) (n : Nat) : W512 := ofLanes t.width (List.replicate n (immLane t imm))

/-- The operand of a selector in a position, 0 for SA, 1 for SB and 2 for SC (Table 13.3), where no immediate may stand. -/
def Fire.src (f : Fire) (sel : Sel) (pos : Nat) : W512 :=
  match sel with
  | .port => match f.ops.get pos with
    | some t => t.data
    | none => 0
  | .l0 => f.st.l0
  | .l1 => f.st.l1
  | .l2 => f.st.l2
  | .l3 => f.st.l3
  | .imm | .zero | .special => 0

/-- Lane `i` of the operand of a selector, read as lanes of `t` (R352); an immediate gives the same value in every lane. -/
def Fire.lane (f : Fire) (t : Ty) (imm : BitVec 32) (sel : Sel) (pos i : Nat) : Nat :=
  match sel with
  | .imm => immLane t imm
  | _ => Sys2Proof.Machine.lane (f.src sel pos) t.width i

/-- The whole operand of a selector where an immediate may stand: an immediate fills the lanes of TY. -/
def Fire.whole (f : Fire) (t : Ty) (imm : BitVec 32) (sel : Sel) (pos : Nat) : W512 :=
  match sel with
  | .imm => immWhole t imm (if t = .x then 1 else t.lanes)
  | _ => f.src sel pos

/-- FMT of an operand: a port's token keeps its own, anything else takes the tag of TY. -/
def Fire.fmtOf (f : Fire) (t : Ty) (sel : Sel) (pos : Nat) : BitVec 3 :=
  match sel with
  | .port => match f.ops.get pos with
    | some x => x.fmt
    | none => 0
  | _ => t.fmt

/-- The lanes that a firing computes: every lane of TY with V, else lane 0 (R310, R352). -/
def laneCount (c : Common) : Nat := if c.vec then c.ty.lanes else 1

/-- The lanes of R353 for an instruction with STY. -/
def laneCount2 (c : Common) (sty : Ty) : Nat := if c.vec then min c.ty.lanes sty.lanes else 1

/-- A firing that emits one result of its operands (R12, R72). -/
def fireResult (data : State → Fire → W512) (fmt : State → Fire → BitVec 3) (s : State) : State :=
  runFire destsReady (fun s f => emitResult s f (f.token (data s f) (fmt s f))) s

/-- The integer mould of R352: `op` maps lanes a, b and c. -/
def intLanes (c : Common) (imm : BitVec 32) (op : Nat → Nat → Nat → Nat) (f : Fire) : W512 :=
  ofLanes c.ty.width ((List.range (laneCount c)).map (fun i =>
    op (f.lane c.ty imm c.sa 0 i) (f.lane c.ty imm c.sb 1 i) (f.lane c.ty imm c.sc 2 i)))

/-- An integer firing. -/
def execInt (c : Common) (imm : BitVec 32) (op : Nat → Nat → Nat → Nat) (s : State) : State :=
  fireResult (fun _ f => intLanes c imm op f) (fun _ _ => c.ty.fmt) s

/-- The mould of R353: `op` maps lane i of the operand taken as STY. -/
def castLanes (c : Common) (sty : Ty) (op : Nat → Nat) (f : Fire) : W512 :=
  ofLanes c.ty.width ((List.range (laneCount2 c sty)).map (fun i => op (f.lane sty 0 c.sa 0 i)))

/-- An integer firing with STY. -/
def execCast (c : Common) (sty : Ty) (op : Nat → Nat) (s : State) : State :=
  fireResult (fun _ f => castLanes c sty op f) (fun _ _ => c.ty.fmt) s

/-- A value of every lane with its flags: the lanes, and the union of the flags (R100). -/
def withFlags (w : Nat) (xs : List (Nat × Flags)) : W512 × Flags :=
  (ofLanes w (xs.map Prod.fst), xs.foldl (fun a x => a ||| x.2) 0)

/-- A firing sets its flags in FPCTL when it emits (R113). -/
def raiseFlags (s : State) (c : BitVec 12) (fl : Flags) : State :=
  if fl = 0 then s else s.updCol c.toNat (fun k => { k with fpctl := setFlags k.fpctl fl })

/-- A firing that emits one result and sets flags. -/
def fireFlags (val : Fire → W512 × Flags) (fmt : BitVec 3) (s : State) : State :=
  runFire destsReady (fun s f => raiseFlags (emitResult s f (f.token (val f).1 fmt)) f.colour (val f).2) s

/-- The environment that a firing samples when it begins (R98, R110). -/
def Fire.env (f : Fire) (mode : Nat) (narrowing : Bool) : FpEnv := fpEnv f.k.fpctl mode narrowing

/-- The float mould of R354. -/
def floatLanes (c : Common) (imm : BitVec 32) (op : FpEnv → Nat → Nat → Nat → Nat × Flags) (f : Fire) : W512 × Flags :=
  withFlags c.ty.width ((List.range (laneCount c)).map (fun i =>
    op (f.env c.rnd false) (f.lane c.ty imm c.sa 0 i) (f.lane c.ty imm c.sb 1 i) (f.lane c.ty imm c.sc 2 i)))

/-- A float firing of `op` on decoded operands, rounded once. -/
def execFloat (c : Common) (imm : BitVec 32) (op : FpEnv → FVal → FVal → FVal → FRes) (s : State) : State :=
  fireFlags (floatLanes c imm (fun env a b d =>
    finish env c.ty (op env (decodeIn env c.ty a) (decodeIn env c.ty b) (decodeIn env c.ty d)))) c.ty.fmt s

/-- The plait word of an element that a port's latch places: its coordinates there (R106). -/
def plaitLatch (f : Fire) (l : Latch) (e : Nat) : BitVec 32 :=
  plait f.k.colkey 1 f.wave.toNat (hdrRow0 l.hdr + e / 64) (hdrCol0 l.hdr + e % 64)

/-- plaitFor of lane `i` of a firing without a header latch (R106). -/
def plaitLane (f : Fire) (i : Nat) : BitVec 32 :=
  plait f.k.colkey 1 f.wave.toNat f.st.lstake.toNat ((i + 128 * f.frame.toNat) % 2 ^ 16)

end Sys2Proof.Machine
end

