-- ==== Sys2Proof/Machine/Weave.lean ====
section
/-! DEFINITION. Weaves in configuration banks: a stake as loaded, the placement of R326, and the installation and removal of
an instance (R38 to R40, R86, R237, R241, R327). -/

namespace Sys2Proof.Machine

/-- A stake as its record loads it, with its local registers from the LREG records; those that no record names are zero
(R325, R327). -/
def StakeRec.fresh (r : StakeRec) (lregs : List (BitVec 16 × Nat × W512)) : StakeSt :=
  let l (n : Nat) : W512 := ((lregs.find? (fun x => x.1 == r.lstake && x.2.1 == n)).map (·.2.2)).getD 0
  { word := r.word, lstake := r.lstake, entry := r.flags.getLsbD 0, fix := r.flags.getLsbD 2, isMatch := r.flags.getLsbD 3,
    da := r.da, db := r.db, dc := r.dc, dt := r.dt, l0 := l 0, l1 := l 1, l2 := l 2, l3 := l 3, pa := Port.empty,
    pb := Port.empty, pc := Port.empty, pt := Port.empty, ready := [], round := 0, mergeB := false, ebuf := [], group := 0,
    kn := 0, out := [], unitMark := none, near := none, heat := 0, reqExt := false, fresh := false }

/-! ## Placement (R326) -/

/-- A tile that holds no weave in either bank. -/
def tileFree (s : State) (t : Nat) : Bool := (s.tile t).bank0.colour.isNone && (s.tile t).bank1.colour.isNone

/-- The tiles of a partition that hold no weave, rising. -/
def freeTiles (s : State) (p : Part) : List Nat :=
  (p.clusters.flatMap (fun c => rangeFrom (32 * c) 32)).filter (tileFree s)

/-- The hinted tile of a logical tile among a partition's clusters. -/
def hintTile (w : Weave) (clus : List Nat) (lt : Nat) : Option Nat :=
  (w.stakes.find? (fun r => r.lstake.toNat / 128 == lt && r.hint.isSome)).bind (fun r => r.hint.map (fun h =>
    32 * clus.getD (h.1 % clus.length) 0 + h.2.1))

/-- The first pass: logical tiles with hints take their tiles when these are free. -/
def placeHinted (w : Weave) (clus free : List Nat) : NMap Nat :=
  (List.range w.nlt).foldl (fun m lt => match hintTile w clus lt with
    | some t => if free.contains t && !(mapVals m).contains t then mapPut m lt t else m
    | none => m) []

/-- The second pass: every other logical tile takes the lowest free tile. -/
def placeRest (nlt : Nat) (free : List Nat) (m : NMap Nat) : NMap Nat :=
  (List.range nlt).foldl (fun m lt =>
    if (mapGet? m lt).isSome then m else
    match free.find? (fun t => !(mapVals m).contains t) with
    | some t => mapPut m lt t
    | none => m) m

/-- The tiles of the logical tiles of a weave among those that are free; none where too few are. -/
def placeAmong (p : Part) (w : Weave) (free : List Nat) : Option (NMap Nat) :=
  let m := placeRest w.nlt free (placeHinted w p.clusters free)
  if m.length = w.nlt then some m else none

/-- The tiles of the logical tiles of a weave in a partition; none where too few are free. -/
def placeTiles (s : State) (p : Part) (w : Weave) : Option (NMap Nat) := placeAmong p w (freeTiles s p)

/-- A tile whose shadow bank a running instance of the VF leaves free (R241). -/
def shadowFree (s : State) (v t : Nat) : Bool :=
  let x := s.tile t
  x.shadow.colour.isNone && (match x.active.colour with
    | some c => match s.col? c.toNat with
      | some k => k.vf == v && !k.loadReq
      | none => false
    | none => false)

/-- The tiles for a weave that is loaded while other instances of its VF run: those that hold no weave, else also those whose
running instances leave the shadow bank free (R241). -/
def placeShadow (s : State) (v : Nat) (p : Part) (w : Weave) : Option (NMap Nat) :=
  match placeTiles s p w with
  | some m => some m
  | none =>
    if (s.vf v).holds then
      placeAmong p w (freeTiles s p ++ (p.clusters.flatMap (fun c => rangeFrom (32 * c) 32)).filter (shadowFree s v))
    else none

/-- The slots of the stakes of one logical tile: hinted ones first, then the lowest free. -/
def placeSlots (recs : List StakeRec) : NMap Nat :=
  let hinted := recs.foldl (fun (m : NMap Nat) r => match r.hint with
    | some (_, _, h) => if h < 128 && !(mapVals m).contains h then mapPut m r.lstake.toNat h else m
    | none => m) []
  recs.foldl (fun m r =>
    if (mapGet? m r.lstake.toNat).isSome then m else
    match (List.range 128).find? (fun h => !(mapVals m).contains h) with
    | some h => mapPut m r.lstake.toNat h
    | none => m) hinted

/-- The stake records of a logical tile. -/
def Weave.ofTile (w : Weave) (lt : Nat) : List StakeRec := w.stakes.filter (fun r => r.lstake.toNat / 128 == lt)

/-- The stake map that a placement gives (R237). -/
def stakeMap (w : Weave) (m : NMap Nat) : NMap SmapEnt :=
  m.foldl (fun acc x =>
    let slots := placeSlots (w.ofTile x.1)
    (w.ofTile x.1).foldl (fun acc r => mapPut acc r.lstake.toNat
      { fix := r.flags.getLsbD 2, ptile := x.2, pslot := mapGet slots r.lstake.toNat 0 }) acc) []

/-! ## Instances -/

/-- The colour record of a fresh instance (R38); reserved bits of the image's registers read 0 (R9). -/
def newColour (vf part : Nat) (w : Weave) (lead : BitVec 12) (clk : Nat) : Colour :=
  { vf := vf, part := part, weave := w.id, lead := lead, nlt := w.nlt, smap := [], anchors := [], unflipped := [], arriving := [],
    fpctl := fpctlMask w.fpctl &&& ~~~0x1F, colkey := w.colkey, spillbase := spillbaseMask w.spillbase, quota := w.msquota.extractLsb' 0 13,
    spills := 0, trapvec := w.trapvec, bars := [], copyq := [], qfences := [], round := 0, cut := none, want := none, ep := false, out0 := 0,
    out1 := 0, tms := w.tms, frames := [], nextSeq := 0, spillNext := 0, spilled := [], spillFault := [],
    marks := [], out := [], ovf := [], slotWrites := [], swap := none, ctx := none, noStart := false, join := none, fired := 0,
    fireLog := [], wdFrom := clk, wdExt := false, wdPosted := false, exts := 0, loadReq := true, retry := 0, mig := none, moves := 0 }

/-- The shadow bank of a tile with the stakes of a logical tile. -/
def loadBank (w : Weave) (c : BitVec 12) (lt : Nat) (sm : NMap SmapEnt) : Bank :=
  { colour := some c, ltile := lt,
    slots := (w.ofTile lt).foldl (fun m r =>
      mapPut m (match mapGet? sm r.lstake.toNat with | some e => e.pslot | none => 0) (r.fresh w.lregs)) [] }

/-- The scratch of a logical tile from the DATA records: the covered lines with their full/empty bits, zero elsewhere
(R327); where records overlap, the later bytes stand. -/
def loadScratch (w : Weave) (lt : Nat) : NMap Byte × List Nat :=
  (w.data.filter (fun d => d.1 == lt)).foldl (fun acc d =>
    let bytes := (d.2.2.zipIdx).foldl (fun m b =>
      if b.1 = 0 then mapDel m (64 * d.2.1 + b.2) else mapPut m (64 * d.2.1 + b.2) b.1) acc.1
    (bytes, (rangeFrom d.2.1 ((d.2.2.length + 63) / 64)).foldl setIns acc.2)) ([], [])

/-- A tile with the scratch that the image loads for a logical tile, its banks of accumulators reset and every block dirty
(R327, R511). -/
def loadedTile (t : Tile) (w : Weave) (lt : Nat) : Tile :=
  let d := loadScratch w lt
  { t with scratch := d.1, full := d.2, bad := [], m0 := Acc.reset, m1 := Acc.reset, m2 := Acc.reset, m3 := Acc.reset, cmds := [],
           dirty := rangeFrom 0 181 }

/-- A tile with the contents of another: scratch, accumulators, commands and dirty bits. -/
def Tile.contents (t x : Tile) : Tile :=
  { t with scratch := x.scratch, full := x.full, bad := x.bad, m0 := x.m0, m1 := x.m1, m2 := x.m2, m3 := x.m3, cmds := x.cmds,
           dirty := x.dirty }

/-- The upsett token of a colour for a tile (R86). -/
def mkUpsett (c : BitVec 12) (tile : Nat) : Token := { mkToken 0 0 c 0 0 tile with kind := 2 }

/-- The upsett token is sent: the shadow bank is loaded and the active bank runs no weave, its outgoing one having been recorded
at a cut and saved, or unbound (R86). -/
def Tile.sendUpsett (x : Tile) (t : Nat) : Tile :=
  { x with upsett := match x.active.colour, x.shadow.colour with
      | none, some c => some (mkUpsett c t)
      | _, _ => none }

/-- Install a weave for a bound colour in the shadow banks that a placement gives; its tiles have then to flip (R39, R86). A tile
that runs another weave keeps its contents until it flips. -/
def installAt (s : State) (c : BitVec 12) (w : Weave) (m : NMap Nat) : State :=
  let sm := stakeMap w m
  let busy (x : Nat × Nat) : Bool := (s.tile x.2).active.colour.isSome
  let s1 := m.foldl (fun s x => s.updTile x.2 (fun t =>
    let t1 := (if busy x then t else loadedTile t w x.1).setShadow (loadBank w c x.1 sm)
    t1.sendUpsett x.2)) s
  s1.updCol c.toNat (fun k => { k with
    smap := sm, anchors := m.filter (fun x => !busy x), unflipped := (mapVals m).foldl setIns [], loadReq := false,
    arriving := (m.filter busy).map (fun x => (x.1, x.2, loadedTile Tile.reset w x.1)) })

/-- Install a weave for a colour when the partition has the tiles; the request to load it stays otherwise (R241). -/
def install (s : State) (c : BitVec 12) (w : Weave) : State :=
  match s.col? c.toNat with
  | none => s
  | some k => match placeShadow s k.vf (s.part k.part) w with
    | some m => installAt s c w m
    | none => s

/-- A registered weave of a VF. -/
def weave? (s : State) (vf : Nat) (id : BitVec 32) : Option Weave := (s.vf vf).weaves.find? (fun w => w.id == id)

/-- Empty the banks that hold a colour on a tile, with its rows and, unless another weave runs there, the contents; a weave that
waits in the shadow bank is then sent its upsett token (R86). -/
def Tile.clear (x : Tile) (c : BitVec 12) (t : Nat) : Tile :=
  let other : Bool := match x.active.colour with
    | some d => d != c
    | none => false
  let y := { x.updBank c (fun _ => Bank.empty) with
    rows := x.rows.filter (fun r => r.colour != c), early := x.early.filter (fun i => i.tok.colour != c),
    cmds := x.cmds.filter (fun m => m.colour != c) }
  (if other then y else y.contents { Tile.reset with cmds := y.cmds }).sendUpsett t

/-- Empty the banks that hold a colour. -/
def clearBanks (s : State) (c : BitVec 12) (tiles : List Nat) : State :=
  tiles.foldl (fun s t => s.updTile t (fun x => x.clear c t)) s

/-- Unbind a colour: its banks, channels and requests go, its count of purged tokens and its queues in memory stay (R40). -/
def unbindColour (s : State) (c : BitVec 12) : State :=
  match s.col? c.toNat with
  | none => s
  | some k =>
    let s1 := clearBanks s c k.tileList
    { s1 with cols := mapDel s1.cols c.toNat, net := s1.net.filter (fun x => x.key.colour != c),
              reqs := s1.reqs.filter (fun r => r.2.colour != c), kdecs := s1.kdecs.filter (fun d => d.tok.colour != c),
              strays := s1.strays.filter (fun t => t.colour != c),
              clus := s1.clus.map (fun x => (x.1, { x.2 with
                tickets := x.2.tickets.filter (fun t => t.colour != c),
                fenceWait := x.2.fenceWait.filter (fun r => match s1.req? r with
                  | some q => q.colour != c
                  | none => false) })) }

/-- No live frame and no purge sweep (R40). -/
def Colour.isIdle (k : Colour) : Bool := k.frames.isEmpty

/-- A bank flip at a tile: the shadow bank becomes active, with the contents that arrived for it (R86). -/
def flipTile (s : State) (t : Nat) : State :=
  let s1 := s.updTile t (fun x => { x with sel := !x.sel, upsett := none })
  match (s.tile t).shadow.colour with
  | none => s1
  | some c => match s.col? c.toNat with
    | none => s1
    | some k =>
      let lt := (s.tile t).shadow.ltile
      let flip (k : Colour) : Colour := { k with unflipped := setDel k.unflipped t, wdFrom := s.clk }
      match mapGet? k.arriving lt with
      | some x => (s1.updTile t (fun y => y.contents x.2)).updCol c.toNat (fun k =>
          { flip k with anchors := mapPut k.anchors lt t, arriving := mapDel k.arriving lt })
      | none => s1.updCol c.toNat flip

end Sys2Proof.Machine
end

