-- ==== Sys2Proof/Machine/Control.lean ====
section
/-! DEFINITION. The control and tag class but for FMTCAST (R33 to R54, R123, R124, R364 to R376, R403, R404, R417 to R420,
R438, R439, R444, R445, R457, R458, R464, R469, R470, R474, R478 to R481). -/

namespace Sys2Proof.Machine

/-! ## Operands and emission -/

/-- An operand of a control stake: an immediate stands in lane 0 (R309, R376, R444). -/
def Fire.ctlOp (f : Fire) (t : Ty) (imm : BitVec 32) (sel : Sel) (pos : Nat) : W512 :=
  match sel with
  | .imm => immWhole t imm 1
  | _ => f.src sel pos

/-- Emit operand A whole. -/
def emitWhole (c : Common) (imm : BitVec 32) (s : State) (f : Fire) : State :=
  emitResult s f (f.token (f.ctlOp c.ty imm c.sa 0) (f.fmtOf c.ty c.sa 0))

/-- Forward the input unchanged. -/
def forward (s : State) (f : Fire) : State := emitResult s f (f.token f.first.data f.first.fmt)

/-- Forward the input under another frame and wave (R124, R404, R464). -/
def retagged (s : State) (f : Fire) (frame : BitVec 12) (wave : BitVec 24) : State :=
  emitResult s f (mkToken f.first.data f.first.fmt f.colour frame wave f.tile)

/-- CONST (R376). -/
def execConst (c : Common) (x : ImmX) (s : State) : Host.Outcome State Fault Refusal :=
  .next (runFire destsReady (emitWhole c x.imm) s)

/-- MOV (R444). -/
def execMov (c : Common) (x : ImmX) (s : State) : Host.Outcome State Fault Refusal :=
  .next (runFire destsReady (emitWhole c x.imm) s)

/-- The bits of a predicate or condition: the width of TY, or 64 for TY 15 (R469, R474). -/
def condBits (t : Ty) (v : W512) : Nat := v.toNat % 2 ^ (if t = .x then 64 else t.width)

/-- The fields that a STEER sends on: Q = 0 when its predicate is not zero, Q = 1 otherwise. -/
def steerDests (c : Common) (side : Bool) : List (Nat × Dest) := (allDests c).filter (fun d => d.2.q == !side)

/-- STEER (R474, R475). -/
def execSteer (c : Common) (x : ImmX) (s : State) : Host.Outcome State Fault Refusal :=
  .next (runFire destsReady (fun s f =>
    let p := condBits c.ty (f.ctlOp c.ty x.imm c.sb 1) != 0
    let t := f.token (f.ctlOp c.ty x.imm c.sa 0) (f.fmtOf c.ty c.sa 0)
    (steerDests f.st.common p).foldl (fun s d => stakeEmit s f d t) s) s)

/-- SELECT (R469). -/
def execSelect (c : Common) (x : ImmX) (s : State) : Host.Outcome State Fault Refusal :=
  .next (runFire destsReady (fun s f =>
    if condBits c.ty (f.ctlOp c.ty x.imm c.sc 2) != 0 then
      emitResult s f (f.token (f.ctlOp c.ty x.imm c.sa 0) (f.fmtOf c.ty c.sa 0))
    else emitResult s f (f.token (f.ctlOp c.ty x.imm c.sb 1) (f.fmtOf c.ty c.sb 1))) s)

/-! ## MERGE -/

/-- MERGE (R438, R439). -/
def execMerge (_c : Common) (s : State) : Host.Outcome State Fault Refusal :=
  .next (match cursorStake s with
    | none => s
    | some (col, k, st) => match mergeChoice k st s.cur.place with
      | none => s
      | some (p, o, b) => startFire destsReady forward s (fireOf s col k st o) (mergeTake st p o b))

/-- SINK (R470). -/
def execSink (_c : Common) (s : State) : Host.Outcome State Fault Refusal := .next (runFire destsReady (fun s _ => s) s)

/-! ## Identifiers and tags -/

/-- The identifier values of Table 2.2; the VF is that of the colour's weave (log entry 94). -/
def identValue (f : Fire) (code : Nat) : Nat :=
  match code with
  | 0 => f.colour.toNat
  | 1 => f.frame.toNat
  | 2 => f.wave.toNat
  | 3 => f.st.lstake.toNat / 128
  | 4 => f.st.lstake.toNat
  | 5 => f.k.part
  | 6 => f.k.vf
  | 7 => dieOfClu (cluOfTile f.tile)
  | _ => cluOfTile f.tile

/-- MOVID (R41, R445). -/
def execMovid (_c : Common) (ident : BitVec 4) (s : State) : Host.Outcome State Fault Refusal :=
  .next (fireResult (fun _ f => ofLanes 32 [identValue f ident.toNat]) (fun _ _ => 0) s)

/-- WAVEADV (R124). -/
def execWaveadv (_c : Common) (s : State) : Host.Outcome State Fault Refusal :=
  .next (runFire destsReady (fun s f => retagged s f f.frame (f.wave + 1)) s)

/-- RETAG (R464). -/
def execRetag (c : Common) (rsel : BitVec 2) (s : State) : Host.Outcome State Fault Refusal :=
  .next (runFire destsReady (fun s f =>
    let v := n64 (f.src c.sb 1) 0
    let frame := if rsel = 0 then f.frame else if rsel = 1 then v.setWidth 12 else v.extractLsb' 24 12
    let wave := if rsel = 1 then f.wave else v.setWidth 24
    let high := if rsel = 0 then 24 else if rsel = 1 then 12 else 36
    if v.toNat / 2 ^ high != 0 || (rsel != 0 && !f.k.isLive frame) then trapFire s f cILLOP
    else retagged s f frame wave) s)

/-! ## Frames -/

/-- A new frame with chain values as R127 starts them. -/
def newFrame (num : BitVec 12) (seq : BitVec 32) (parent : BitVec 12) (home homeLt : Nat) (mask : BitVec 16) (root handler : Bool)
    (task : W512) : Frame :=
  { num := num, seq := seq, parent := parent, home := home, homeLt := homeLt, mask := mask, arrived := 0, cw := 0, last := none,
    nxt := none, root := root, task := task, stamp := 0, handler := handler, phase := .live, ended := false, tend := false, awaitTiles := [],
    stopped := [], slot := none, cause := 0, reason := 0, tstake := 0, faddr := 0, time := 0, frec := 0, recs := [],
    toHost := false, areaFault := false, retry := 0, hold := none }

/-- FRAMENEW (R404). -/
def execFramenew (_c : Common) (join : BitVec 16) (s : State) : Host.Outcome State Fault Refusal :=
  .next (runFire framenewReady (fun s f =>
    match freeFrame f.k, frame? s f.colour f.frame with
    | some n, some p =>
      let new := newFrame n f.k.nextSeq f.frame (cluOfTile f.tile) (f.st.lstake.toNat / 128) join false p.handler p.task
      let s1 := s.updCol f.colour.toNat (fun k => { k with frames := mapPut k.frames n.toNat new, nextSeq := k.nextSeq + 1 })
      let s2 := (bitList 16 join.toNat).foldl (fun s b => updBar s f.colour b (fun x => { x with expect := x.expect + 1 })) s1
      retagged s2 f n 0
    | _, _ => s) s)

/-- The firing's frame starts to quiesce (R36). -/
def endFrame (s : State) (f : Fire) (tend : Bool) : State :=
  updFrame s f.colour f.frame (fun x => { x with
    ended := true, tend := tend, phase := if x.phase = .live then .ending else x.phase })

/-- The firing's frame is a root frame. -/
def isRoot (s : State) (f : Fire) : Bool :=
  match frame? s f.colour f.frame with
  | some x => x.root
  | none => false

/-- FRAMEEND (R36, R54, R403). -/
def execFrameend (_c : Common) (s : State) : Host.Outcome State Fault Refusal :=
  .next (runFire endReady (fun s f => if isRoot s f then trapFire s f cILLOP else endFrame s f false) s)

/-- TASKEND (R54, R478). -/
def execTaskend (_c : Common) (s : State) : Host.Outcome State Fault Refusal :=
  .next (runFire endReady (fun s f => if isRoot s f then endFrame s f true else trapFire s f cILLOP) s)

/-! ## KGATE and KDONE -/

/-- KGATE (R43, R419, R420). -/
def execKgate (_c : Common) (bound : BitVec 12) (s : State) : Host.Outcome State Fault Refusal :=
  .next (match cursorStake s with
    | none => s
    | some (col, k, st) => match kgateSet k st s.cur.place with
      | none => s
      | some (i, o) => startFire (fun s f => destsReady s f && decide (st.kn < bound.toNat))
          (fun s f => forward (updStake s f.colour f.st.lstake (fun x => { x with kn := x.kn + 1 })) f) s
          (fireOf s col k st o) (kgateTake st i))

/-- KDONE (R417). -/
def execKdone (_c : Common) (gate : BitVec 16) (s : State) : Host.Outcome State Fault Refusal :=
  .next (runFire destsReady (fun s f =>
    let s1 := forward s f
    { s1 with kdecs := s1.kdecs ++ [{ gate := gate, lstake := f.st.lstake, tok := f.first }] }) s)

/-! ## Barriers -/

/-- BAR (R45, R46, R364, R365). -/
def execBar (_c : Common) (barn : BitVec 4) (s : State) : Host.Outcome State Fault Refusal :=
  .next (runFire (barGate barn.toNat) (fun s f =>
    let n := barn.toNat
    match frame? s f.colour f.frame with
    | none => s
    | some x =>
      if x.mask.getLsbD n && x.arrived.getLsbD n then trapFire s f cILLOP
      else
        let bit := 1#16 <<< n
        let s1 := updFrame s f.colour f.frame (fun y => { y with mask := y.mask ||| bit, arrived := y.arrived ||| bit })
        let w : Waiter := { lstake := f.st.lstake, frame := f.frame, wave := f.wave }
        let s2 := updBar s1 f.colour n (fun b => { b with
          expect := if x.mask.getLsbD n then b.expect else b.expect + 1, arrived := b.arrived + 1, waiters := b.waiters ++ [w] })
        barCheck s2 f.colour n) s)

/-- BARLEAVE (R47, R367). -/
def execBarleave (_c : Common) (barn : BitVec 4) (s : State) : Host.Outcome State Fault Refusal :=
  .next (runFire destsReady (fun s f =>
    match frame? s f.colour f.frame with
    | none => s
    | some x =>
      if x.mask.getLsbD barn.toNat then barLeave (forward s f) f.colour f.frame barn.toNat false
      else trapFire s f cILLOP) s)

/-! ## Control requests (R450) -/

/-- A firing that sends a control request with these operands. -/
def sendControl (opb : Fire → W512) (s : State) (f : Fire) (sa : Sel) : State :=
  sendReq s (mkReq f true f.home (f.src sa 0) (opb f) 0 f.first.fmt)

/-- TASKPUSH (R481). -/
def execTaskpush (c : Common) (x : ImmX) (s : State) : Host.Outcome State Fault Refusal :=
  .next (runFire reqRoom (fun s f =>
    let tgt := (f.ctlOp c.ty x.imm c.sb 1).toNat % 2 ^ 32
    if 2 ^ 12 ≤ tgt then trapFire s f cILLOP
    else sendControl (fun _ => BitVec.ofNat 512 tgt) s f c.sa) s)

/-- TASKJOIN (R479, R480). -/
def execTaskjoin (c : Common) (s : State) : Host.Outcome State Fault Refusal :=
  .next (runFire reqRoom (fun s f => sendControl (fun _ => 0) s f c.sa) s)

/-- QPOP (R458). -/
def execQpop (c : Common) (_qsel : BitVec 4) (s : State) : Host.Outcome State Fault Refusal :=
  .next (runFire reqRoom (fun s f => sendControl (fun _ => 0) s f c.sa) s)

/-- QPUSH (R457). -/
def execQpush (c : Common) (_qsel : BitVec 4) (s : State) : Host.Outcome State Fault Refusal :=
  .next (runFire reqRoom (fun s f => sendControl (fun _ => 0) s f c.sa) s)

end Sys2Proof.Machine
end

