-- ==== Sys2Proof/Machine/FpApprox.lean ====
section
/-! DEFINITION. The approximate functions of Table 16.2, evaluated to a thousand bits and rounded once (R356, R357). -/

namespace Sys2Proof.Machine

/-- The seven approximate functions (Table 16.2). -/
inductive Approx where
  | rcp | rsq | exp2 | log2 | sin | cos | tanh
  deriving DecidableEq, Repr

/-- The opcode of an approximate function, which names it to the free choice of R356. -/
def Approx.code : Approx → Nat
  | .rcp => 0x4B | .rsq => 0x4C | .exp2 => 0x4D | .log2 => 0x4E | .sin => 0x4F | .cos => 0x50 | .tanh => 0x51

/-- Fraction bits of the fixed-point numbers of this file. -/
def fxBits : Nat := 1000

/-- 1 in fixed point. -/
def fxOne : Int := 2 ^ fxBits

/-- The product of fixed-point numbers. -/
def fxMul (a b : Int) : Int := (a * b) / fxOne

/-- Σ z^(2k+1) / (2k+1): atanh z, by terms until the fuel ends. -/
def atanhGo (z2 : Int) : Nat → Nat → Int → Int → Int
  | 0, _, _, acc => acc
  | f + 1, k, p, acc => atanhGo z2 f (k + 2) (fxMul p z2) (acc + p / (k : Int))

/-- atanh of a fixed-point number of magnitude at most 1/3. -/
def fxAtanh (z : Int) : Int := atanhGo (fxMul z z) 330 1 z 0

/-- Σ (−1)^k z^(2k+1) / (2k+1): atan z. -/
def atanGo (z2 : Int) : Nat → Nat → Int → Int → Int
  | 0, _, _, acc => acc
  | f + 1, k, p, acc => atanGo z2 f (k + 2) (-(fxMul p z2)) (acc + p / (k : Int))

/-- atan of a small fixed-point number. -/
def fxAtan (z : Int) : Int := atanGo (fxMul z z) 220 1 z 0

/-- ln 2. -/
def fxLn2 : Int := 2 * fxAtanh (fxOne / 3)

/-- π, by Machin's formula. -/
def fxPi : Int := 16 * fxAtan (fxOne / 5) - 4 * fxAtan (fxOne / 239)

/-- Σ x^k / k!. -/
def expGo (x : Int) : Nat → Nat → Int → Int → Int
  | 0, _, _, acc => acc
  | f + 1, k, p, acc => expGo x f (k + 1) (fxMul p x / (k : Int)) (acc + p)

/-- e^x for a fixed-point number of magnitude below 1. -/
def fxExp (x : Int) : Int := expGo x 200 1 fxOne 0

/-- The alternating series of sin (from x) and of cos (from 1). -/
def trigGo (x2 : Int) : Nat → Nat → Int → Int → Int
  | 0, _, _, acc => acc
  | f + 1, k, p, acc => trigGo x2 f (k + 2) (-(fxMul p x2 / ((k : Int) * (k + 1)))) (acc + p)

/-- sin of a fixed-point number of magnitude at most 1. -/
def fxSin (x : Int) : Int := trigGo (fxMul x x) 120 2 x 0

/-- cos of a fixed-point number of magnitude at most 1. -/
def fxCos (x : Int) : Int := trigGo (fxMul x x) 120 1 fxOne 0

/-- An exact number in fixed point. -/
def toFx (neg : Bool) (n d : Nat) : Int :=
  let v : Int := (n * 2 ^ fxBits / d : Nat)
  if neg then -v else v

/-- A fixed-point number as a value. -/
def ofFx (x : Int) : FVal := .num (x < 0) x.natAbs (2 ^ fxBits)

/-- 2^x for an exact number: the whole part by a shift, the rest by the series. -/
def exp2Val (neg : Bool) (n d : Nat) : FVal :=
  let x := toFx neg n d
  let k := x / fxOne
  let r := scale2 (fxExp (fxMul (x % fxOne) fxLn2)).toNat (2 ^ fxBits) k
  .num false r.1 r.2

/-- log2 x for an exact positive number. -/
def log2Val (n d : Nat) : FVal :=
  let k := log2Rat n d
  let s := scale2 n d (-k)
  let m := toFx false s.1 s.2
  let z := ((m - fxOne) * fxOne) / (m + fxOne)
  ofFx (k * fxOne + (2 * fxAtanh z * fxOne) / fxLn2)

/-- sin or cos of an exact number of radians, reduced by the nearest multiple of π/2. -/
def trigVal (wantCos neg : Bool) (n d : Nat) : FVal :=
  let x := toFx neg n d
  let half := fxPi / 2
  let q := (2 * x + half) / (2 * half)
  let r := x - q * half
  let k := (q + (if wantCos then 1 else 0)) % 4
  ofFx (if k = 0 then fxSin r else if k = 1 then fxCos r else if k = 2 then -(fxSin r) else -(fxCos r))

/-- tanh x = (e^2x − 1)/(e^2x + 1) of an exact number; beyond 512 a value just below 1. -/
def tanhVal (neg : Bool) (n d : Nat) : FVal :=
  if 512 * d < n then .num neg (2 ^ 990 - 1) (2 ^ 990)
  else
    let x := toFx false n d
    if x < 2 ^ 600 then
      -- x − x³/3, from the exact x, below which tanh lies
      .num neg (n * (3 * d * d) - n * n * n) (d * (3 * d * d))
    else
      let y := (2 * x * fxOne) / fxLn2
      let k := y / fxOne
      let e := fxExp (fxMul (y % fxOne) fxLn2) * 2 ^ k.toNat
      .num neg (e - fxOne).toNat (e + fxOne).toNat

/-- sin x for a small exact number: x − x³/6. -/
def sinSmall (neg : Bool) (n d : Nat) : FVal := .num neg (n * (6 * d * d) - n * n * n) (d * (6 * d * d))

/-- 1/√(n/d): exact for even powers of two, and otherwise strictly between neighbouring multiples. -/
def rsqVal (n d : Nat) : FVal :=
  let r := sqrtRat d n
  .num false r.1 r.2

/-- The number is a power of two: n / d in any terms. -/
def isPow2 (n d : Nat) : Bool :=
  let s := scale2 1 1 (log2Rat n d)
  d * s.1 == n * s.2

/-- f(a) for a finite operand that is not zero and lies in the domain, with whether f(a) is representable whatever its
size (R356). -/
def approxVal (f : Approx) (neg : Bool) (n d : Nat) : FVal × Bool :=
  match f with
  | .rcp => (.num neg d n, isPow2 n d)
  | .rsq => (rsqVal n d, isPow2 n d && log2Rat n d % 2 == 0)
  | .exp2 =>
    if 4096 * d ≤ n then
      -- beyond every range: any power of two there rounds alike
      let r := scale2 1 1 (if neg then -4096 else 4096)
      (.num false r.1 r.2, n % d = 0)
    else if n % d = 0 then
      let r := scale2 1 1 (if neg then -(n / d : Nat) else (n / d : Nat))
      (.num false r.1 r.2, true)
    else (exp2Val neg n d, false)
  | .log2 =>
    if isPow2 n d then (.num (log2Rat n d < 0) (log2Rat n d).natAbs 1, true) else (log2Val n d, false)
  | .sin => (if n * 2 ^ 400 < d * 2 ^ 300 then sinSmall neg n d else trigVal false neg n d, false)
  | .cos => (trigVal true neg n d, false)
  | .tanh => (tanhVal neg n d, false)

/-- The special operands of Table 16.3. -/
def approxSpecial (f : Approx) (v : FVal) : Option FRes :=
  match v with
  | .nan _ _ _ => none
  | .inf s =>
    some (match f with
      | .rcp => (.num s 0 1, 0)
      | .rsq => if s then invalid else (.num false 0 1, 0)
      | .exp2 => if s then (.num false 0 1, 0) else (.inf false, 0)
      | .log2 => if s then invalid else (.inf false, 0)
      | .sin | .cos => invalid
      | .tanh => (.num s 1 1, 0))
  | .num s n _ =>
    if n = 0 then
      some (match f with
        | .rcp | .rsq => (.inf s, flagDZ)
        | .log2 => (.inf true, flagDZ)
        | .exp2 | .cos => (.num false 1 1, 0)
        | .sin | .tanh => (.num s 0 1, 0))
    else if s && (f == .rsq || f == .log2) then some invalid
    else none

/-- One lane of an approximate function (R356): rounded once, but for F32 under RNE one of the two adjacent values, the same
one for the same operand. -/
def approxLane (f : Approx) (env : FpEnv) (t : Ty) (bits : Nat) : Nat × Flags :=
  let v := decodeIn env t bits
  match nanOf env [v] with
  | some r => finish env t r
  | none =>
    match approxSpecial f v with
    | some r => finish env t r
    | none =>
      match v with
      | .num s n d =>
        let r := approxVal f s n d
        let big := match r.1 with
          | .num _ a b => match decodeF t (maxCode t) with
            | .num _ a' b' => decide (a' * b < a * b')
            | _ => false
          | _ => false
        if r.2 || t != .f32 || env.rm != .rne || big then finish env t (r.1, 0)
        else
          let up := Config.approxUpper f.code (BitVec.ofNat 32 bits)
          finish { env with rm := if up then .rup else .rdn } t (r.1, 0)
      | _ => finish env t (v, 0)

end Sys2Proof.Machine
end

