-- ==== Sys2Proof/Machine/Float.lean ====
section
/-! DEFINITION. The float class (R354 to R357, R385 to R416): the meaning of each instruction. -/

namespace Sys2Proof.Machine

/-- A lane function on decoded operands that rounds nothing: the result is one of the operands (R398). -/
def minmaxLane (isMax : Bool) (t : Ty) (env : FpEnv) (a b : Nat) : Nat × Flags :=
  let r := minmaxF isMax [decodeIn env t a, decodeIn env t b]
  (codeOf t r.1, r.2)

/-- FMIN and FMAX (R398). -/
def execMinmax (isMax : Bool) (c : Common) (x : ImmX) (s : State) : State :=
  fireFlags (floatLanes c x.imm (fun env a b _ => minmaxLane isMax c.ty env a b)) c.ty.fmt s

/-- An approximate function (R356). -/
def execApprox (fn : Approx) (c : Common) (x : ImmX) (s : State) : State :=
  fireFlags (floatLanes c x.imm (fun env a _ _ => approxLane fn env c.ty a)) c.ty.fmt s

/-- The lanes of a conversion with STY and its flags (R353). -/
def castFloat (c : Common) (sty : Ty) (narrowing : Bool) (op : FpEnv → Nat → BitVec 32 → Nat × Flags) (f : Fire) : W512 × Flags :=
  withFlags c.ty.width ((List.range (laneCount2 c sty)).map (fun i =>
    op (f.env c.rnd narrowing) (f.lane sty 0 c.sa 0 i) (plaitLane f i)))

/-- FCVT of one lane (R107, R392). -/
def cvtLane (t sty : Ty) (env : FpEnv) (a : Nat) (word : BitVec 32) : Nat × Flags :=
  let v := decodeIn env sty a
  finish env t ((nanOf env [v]).getD (v, 0)) word

/-- FCMP of one lane (R390). -/
def fcmpLane (t : Ty) (cond : Nat) (env : FpEnv) (a b : Nat) : Nat × Flags :=
  let r := cmpF cond (decodeIn env t a) (decodeIn env t b)
  (if r.1 then 2 ^ t.width - 1 else 0, r.2)

/-- FADD (R355). -/
def execFadd (c : Common) (x : ImmX) (s : State) : Host.Outcome State Fault Refusal :=
  .next (execFloat c x.imm (fun env a b _ => addF env a b) s)
/-- FSUB (R355). -/
def execFsub (c : Common) (x : ImmX) (s : State) : Host.Outcome State Fault Refusal :=
  .next (execFloat c x.imm (fun env a b _ => subF env a b) s)
/-- FMUL (R355). -/
def execFmul (c : Common) (x : ImmX) (s : State) : Host.Outcome State Fault Refusal :=
  .next (execFloat c x.imm (fun env a b _ => mulF env a b) s)
/-- FFMA (R355). -/
def execFfma (c : Common) (x : ImmX) (s : State) : Host.Outcome State Fault Refusal :=
  .next (execFloat c x.imm fmaF s)
/-- FDIV (R355). -/
def execFdiv (c : Common) (x : ImmX) (s : State) : Host.Outcome State Fault Refusal :=
  .next (execFloat c x.imm (fun env a b _ => divF env a b) s)
/-- FSQRT (R355). -/
def execFsqrt (c : Common) (x : ImmX) (s : State) : Host.Outcome State Fault Refusal :=
  .next (execFloat c x.imm (fun env a _ _ => sqrtF env a) s)
/-- FMIN (R398). -/
def execFmin (c : Common) (x : ImmX) (s : State) : Host.Outcome State Fault Refusal :=
  .next (execMinmax false c x s)
/-- FMAX (R398). -/
def execFmax (c : Common) (x : ImmX) (s : State) : Host.Outcome State Fault Refusal :=
  .next (execMinmax true c x s)
/-- FCMP (R390). -/
def execFcmp (c : Common) (x : ImmX) (s : State) : Host.Outcome State Fault Refusal :=
  .next (fireFlags (floatLanes c x.imm (fun env a b _ => fcmpLane c.ty x.sub.toNat env a b)) 0 s)
/-- FABS (R386). -/
def execFabs (c : Common) (x : ImmX) (s : State) : Host.Outcome State Fault Refusal :=
  .next (execInt c x.imm (fun a _ _ => a % signBit c.ty) s)
/-- FNEG (R402). -/
def execFneg (c : Common) (x : ImmX) (s : State) : Host.Outcome State Fault Refusal :=
  .next (execInt c x.imm (fun a _ _ => (a + signBit c.ty) % 2 ^ c.ty.width) s)
/-- FRCP (R356, R357). -/
def execFrcp (c : Common) (x : ImmX) (s : State) : Host.Outcome State Fault Refusal :=
  .next (execApprox .rcp c x s)
/-- FRSQ (R356, R357). -/
def execFrsq (c : Common) (x : ImmX) (s : State) : Host.Outcome State Fault Refusal :=
  .next (execApprox .rsq c x s)
/-- FEXP2 (R356, R357). -/
def execFexp2 (c : Common) (x : ImmX) (s : State) : Host.Outcome State Fault Refusal :=
  .next (execApprox .exp2 c x s)
/-- FLOG2 (R356, R357). -/
def execFlog2 (c : Common) (x : ImmX) (s : State) : Host.Outcome State Fault Refusal :=
  .next (execApprox .log2 c x s)
/-- FSIN (R356, R357). -/
def execFsin (c : Common) (x : ImmX) (s : State) : Host.Outcome State Fault Refusal :=
  .next (execApprox .sin c x s)
/-- FCOS (R356, R357). -/
def execFcos (c : Common) (x : ImmX) (s : State) : Host.Outcome State Fault Refusal :=
  .next (execApprox .cos c x s)
/-- FTANH (R356, R357). -/
def execFtanh (c : Common) (x : ImmX) (s : State) : Host.Outcome State Fault Refusal :=
  .next (execApprox .tanh c x s)
/-- FCLASS (R389). -/
def execFclass (c : Common) (x : ImmX) (s : State) : Host.Outcome State Fault Refusal :=
  .next (fireResult (fun _ f => intLanes c x.imm (fun a _ _ => classMask c.ty a) f) (fun _ _ => 0) s)
/-- FCVT (R392). -/
def execFcvt (c : Common) (sty : Ty) (s : State) : Host.Outcome State Fault Refusal :=
  .next (fireFlags (castFloat c sty (narrowsFloat c.ty sty) (cvtLane c.ty sty)) c.ty.fmt s)
/-- F2I (R385). -/
def execF2i (c : Common) (sty : Ty) (s : State) : Host.Outcome State Fault Refusal :=
  .next (fireFlags (castFloat c sty false (fun env a _ => Sys2Proof.Machine.f2i env c.ty (decodeIn env sty a))) 0 s)
/-- I2F (R416). -/
def execI2f (c : Common) (sty : Ty) (s : State) : Host.Outcome State Fault Refusal :=
  .next (fireFlags (castFloat c sty (narrowsInt c.ty sty) (fun env a w =>
    roundTo env c.ty false (ofInt (laneInt sty a)) w)) c.ty.fmt s)
/-- FRND (R407). -/
def execFrnd (c : Common) (x : ImmX) (s : State) : Host.Outcome State Fault Refusal :=
  .next (execFloat c x.imm (fun env a _ _ => rndF env a) s)

end Sys2Proof.Machine
end

