-- ==== Sys2Proof/Machine/Integer.lean ====
section
/-! DEFINITION. The integer class (R358 to R362, R368, R369, R374, R375, R382, R429, R430, R433, R440, R447, R448, R452,
R453): the lane function of each instruction and its meaning. -/

namespace Sys2Proof.Machine

/-- An exact integer clamped to the range of a type (R360). -/
def clampInt (t : Ty) (x : Int) : Nat :=
  if t.isSigned then
    let lo : Int := -((2 ^ (t.width - 1) : Nat) : Int)
    let hi : Int := ((2 ^ (t.width - 1) : Nat) : Int) - 1
    wrapInt t.width (if x < lo then lo else if hi < x then hi else x)
  else
    let hi : Int := ((2 ^ t.width : Nat) : Int) - 1
    wrapInt t.width (if x < 0 then 0 else if hi < x then hi else x)

/-- (a + b) mod 2^w. -/
def laneAdd (t : Ty) (a b : Nat) : Nat := (a + b) % 2 ^ t.width
/-- (a − b) mod 2^w. -/
def laneSub (t : Ty) (a b : Nat) : Nat := (a + (2 ^ t.width - b)) % 2 ^ t.width
/-- a + b clamped. -/
def laneAdds (t : Ty) (a b : Nat) : Nat := clampInt t (laneInt t a + laneInt t b)
/-- a − b clamped. -/
def laneSubs (t : Ty) (a b : Nat) : Nat := clampInt t (laneInt t a - laneInt t b)
/-- (a·b) mod 2^w. -/
def laneMul (t : Ty) (a b : Nat) : Nat := (a * b) % 2 ^ t.width
/-- Bits [2w − 1 : w] of the exact product. -/
def laneMulh (t : Ty) (a b : Nat) : Nat := wrapInt t.width ((laneInt t a * laneInt t b) / (2 ^ t.width : Nat))
/-- (a·b + c) mod 2^w. -/
def laneMad (t : Ty) (a b c : Nat) : Nat := (a * b + c) % 2 ^ t.width
/-- a / b toward zero; all ones for b = 0 (R382). -/
def laneDiv (t : Ty) (a b : Nat) : Nat :=
  if b = 0 then 2 ^ t.width - 1 else wrapInt t.width ((laneInt t a).tdiv (laneInt t b))
/-- a − b·trunc(a / b); a for b = 0 (R453). -/
def laneRem (t : Ty) (a b : Nat) : Nat :=
  if b = 0 then a else wrapInt t.width ((laneInt t a).tmod (laneInt t b))
/-- The smaller. -/
def laneMin (t : Ty) (a b : Nat) : Nat := if laneInt t a ≤ laneInt t b then a else b
/-- The larger. -/
def laneMax (t : Ty) (a b : Nat) : Nat := if laneInt t a ≤ laneInt t b then b else a
/-- |a| mod 2^w. -/
def laneAbs (t : Ty) (a : Nat) : Nat := wrapInt t.width (laneInt t a).natAbs
/-- (0 − a) mod 2^w. -/
def laneNeg (t : Ty) (a : Nat) : Nat := (2 ^ t.width - a) % 2 ^ t.width
/-- Bitwise not of a lane. -/
def laneNot (t : Ty) (a : Nat) : Nat := 2 ^ t.width - 1 - a
/-- The shift count: lane b mod w. -/
def shiftCount (t : Ty) (b : Nat) : Nat := b % t.width
/-- a shifted left. -/
def laneShl (t : Ty) (a b : Nat) : Nat := (a <<< shiftCount t b) % 2 ^ t.width
/-- a shifted right with zeros. -/
def laneShr (t : Ty) (a b : Nat) : Nat := a >>> shiftCount t b
/-- a shifted right with copies of bit w − 1. -/
def laneSar (t : Ty) (a b : Nat) : Nat := wrapInt t.width (toSigned t.width a / (2 ^ shiftCount t b : Nat))
/-- a rotated left. -/
def laneRol (t : Ty) (a b : Nat) : Nat :=
  ((a <<< shiftCount t b) + (a >>> (t.width - shiftCount t b))) % 2 ^ t.width
/-- Zero bits above the highest set bit. -/
def laneClz (t : Ty) (a : Nat) : Nat := if a = 0 then t.width else t.width - 1 - ilog2 a
/-- Set bits. -/
def lanePopc (t : Ty) (a : Nat) : Nat := popCount t.width a
/-- The integer condition of SUB (R312). -/
def intCond (cond : Nat) (a b : Int) : Bool :=
  match cond with
  | 0 => a == b
  | 1 => a != b
  | 2 => decide (a < b)
  | 3 => decide (a ≤ b)
  | 4 => decide (b < a)
  | 5 => decide (b ≤ a)
  | _ => false
/-- All ones where the condition holds. -/
def laneCmp (t : Ty) (cond a b : Nat) : Nat := if intCond cond (laneInt t a) (laneInt t b) then 2 ^ t.width - 1 else 0
/-- (a + b·2^SUB) mod 2^64. -/
def laneLea (sub a b : Nat) : Nat := (a + b * 2 ^ sub) % 2 ^ 64
/-- Bits [POS + LEN − 1 : POS] of a, extended by the type. -/
def laneBfx (t : Ty) (pos len a : Nat) : Nat :=
  let f := (a >>> pos) % 2 ^ len
  if t.isSigned then wrapInt t.width (toSigned len f) else f
/-- a with the field replaced by bits [LEN − 1 : 0] of b. -/
def laneBfi (pos len a b : Nat) : Nat := a - ((a >>> pos) % 2 ^ len) * 2 ^ pos + (b % 2 ^ len) * 2 ^ pos

/-! ## Meanings -/

/-- ADD (R359). -/
def execAdd (c : Common) (x : ImmX) (s : State) : Host.Outcome State Fault Refusal :=
  .next (execInt c x.imm (fun a b _ => laneAdd c.ty a b) s)
/-- SUB (R452). -/
def execSub (c : Common) (x : ImmX) (s : State) : Host.Outcome State Fault Refusal :=
  .next (execInt c x.imm (fun a b _ => laneSub c.ty a b) s)
/-- ADDS (R360). -/
def execAdds (c : Common) (x : ImmX) (s : State) : Host.Outcome State Fault Refusal :=
  .next (execInt c x.imm (fun a b _ => laneAdds c.ty a b) s)
/-- SUBS (R452). -/
def execSubs (c : Common) (x : ImmX) (s : State) : Host.Outcome State Fault Refusal :=
  .next (execInt c x.imm (fun a b _ => laneSubs c.ty a b) s)
/-- MUL (R447). -/
def execMul (c : Common) (x : ImmX) (s : State) : Host.Outcome State Fault Refusal :=
  .next (execInt c x.imm (fun a b _ => laneMul c.ty a b) s)
/-- MULH (R448). -/
def execMulh (c : Common) (x : ImmX) (s : State) : Host.Outcome State Fault Refusal :=
  .next (execInt c x.imm (fun a b _ => laneMulh c.ty a b) s)
/-- MAD (R430). -/
def execMad (c : Common) (x : ImmX) (s : State) : Host.Outcome State Fault Refusal :=
  .next (execInt c x.imm (fun a b d => laneMad c.ty a b d) s)
/-- DIV (R382). -/
def execDiv (c : Common) (x : ImmX) (s : State) : Host.Outcome State Fault Refusal :=
  .next (execInt c x.imm (fun a b _ => laneDiv c.ty a b) s)
/-- REM (R452). -/
def execRem (c : Common) (x : ImmX) (s : State) : Host.Outcome State Fault Refusal :=
  .next (execInt c x.imm (fun a b _ => laneRem c.ty a b) s)
/-- MIN (R440). -/
def execMin (c : Common) (x : ImmX) (s : State) : Host.Outcome State Fault Refusal :=
  .next (execInt c x.imm (fun a b _ => laneMin c.ty a b) s)
/-- MAX (R433). -/
def execMax (c : Common) (x : ImmX) (s : State) : Host.Outcome State Fault Refusal :=
  .next (execInt c x.imm (fun a b _ => laneMax c.ty a b) s)
/-- ABS (R358). -/
def execAbs (c : Common) (x : ImmX) (s : State) : Host.Outcome State Fault Refusal :=
  .next (execInt c x.imm (fun a _ _ => laneAbs c.ty a) s)
/-- NEG (R452). -/
def execNeg (c : Common) (x : ImmX) (s : State) : Host.Outcome State Fault Refusal :=
  .next (execInt c x.imm (fun a _ _ => laneNeg c.ty a) s)
/-- AND (R361). -/
def execAnd (c : Common) (x : ImmX) (s : State) : Host.Outcome State Fault Refusal :=
  .next (execInt c x.imm (fun a b _ => a &&& b) s)
/-- OR (R452). -/
def execOr (c : Common) (x : ImmX) (s : State) : Host.Outcome State Fault Refusal :=
  .next (execInt c x.imm (fun a b _ => a ||| b) s)
/-- XOR (R452). -/
def execXor (c : Common) (x : ImmX) (s : State) : Host.Outcome State Fault Refusal :=
  .next (execInt c x.imm (fun a b _ => a ^^^ b) s)
/-- ANDN (R362). -/
def execAndn (c : Common) (x : ImmX) (s : State) : Host.Outcome State Fault Refusal :=
  .next (execInt c x.imm (fun a b _ => a &&& laneNot c.ty b) s)
/-- SHL (R452). -/
def execShl (c : Common) (x : ImmX) (s : State) : Host.Outcome State Fault Refusal :=
  .next (execInt c x.imm (fun a b _ => laneShl c.ty a b) s)
/-- SHR (R452). -/
def execShr (c : Common) (x : ImmX) (s : State) : Host.Outcome State Fault Refusal :=
  .next (execInt c x.imm (fun a b _ => laneShr c.ty a b) s)
/-- SAR (R452). -/
def execSar (c : Common) (x : ImmX) (s : State) : Host.Outcome State Fault Refusal :=
  .next (execInt c x.imm (fun a b _ => laneSar c.ty a b) s)
/-- ROL (R452). -/
def execRol (c : Common) (x : ImmX) (s : State) : Host.Outcome State Fault Refusal :=
  .next (execInt c x.imm (fun a b _ => laneRol c.ty a b) s)
/-- CLZ (R374). -/
def execClz (c : Common) (x : ImmX) (s : State) : Host.Outcome State Fault Refusal :=
  .next (execInt c x.imm (fun a _ _ => laneClz c.ty a) s)
/-- POPC (R452). -/
def execPopc (c : Common) (x : ImmX) (s : State) : Host.Outcome State Fault Refusal :=
  .next (execInt c x.imm (fun a _ _ => lanePopc c.ty a) s)
/-- CMP (R375). -/
def execCmp (c : Common) (x : ImmX) (s : State) : Host.Outcome State Fault Refusal :=
  .next (execInt c x.imm (fun a b _ => laneCmp c.ty x.sub.toNat a b) s)
/-- LEA (R429). -/
def execLea (c : Common) (x : ImmX) (s : State) : Host.Outcome State Fault Refusal :=
  .next (execInt c x.imm (fun a b _ => laneLea x.sub.toNat a b) s)
/-- SEXT (R452). -/
def execSext (c : Common) (sty : Ty) (s : State) : Host.Outcome State Fault Refusal :=
  .next (execCast c sty (fun a => wrapInt c.ty.width (toSigned sty.width a)) s)
/-- ZEXT (R452). -/
def execZext (c : Common) (sty : Ty) (s : State) : Host.Outcome State Fault Refusal :=
  .next (execCast c sty (fun a => a) s)
/-- BFX (R369). -/
def execBfx (c : Common) (x : BfX) (s : State) : Host.Outcome State Fault Refusal :=
  .next (execInt c 0 (fun a _ _ => laneBfx c.ty x.pos.toNat x.len.toNat a) s)
/-- BFI (R368). -/
def execBfi (c : Common) (x : BfX) (s : State) : Host.Outcome State Fault Refusal :=
  .next (execInt c 0 (fun a b _ => laneBfi x.pos.toNat x.len.toNat a b) s)

end Sys2Proof.Machine
end

