-- ==== Sys2Proof/Machine/Vector.lean ====
section
/-! DEFINITION. The vector class and FMTCAST (R399, R400, R466, R491 to R504). -/

namespace Sys2Proof.Machine

/-! ## Lanes moved whole -/

/-- The operand of a vector stake: an immediate fills the lanes that the firing computes (R309). -/
def Fire.vecOp (f : Fire) (c : Common) (imm : BitVec 32) (sel : Sel) (pos : Nat) : W512 :=
  match sel with
  | .imm => immWhole c.ty imm (laneCount c)
  | _ => f.src sel pos

/-- VBCAST (R491). -/
def execVbcast (c : Common) (x : ImmX) (s : State) : Host.Outcome State Fault Refusal :=
  .next (fireResult (fun _ f => ofLanes c.ty.width (List.replicate (laneCount c) (f.lane c.ty x.imm c.sa 0 0)))
    (fun _ _ => c.ty.fmt) s)

/-- VEXT (R495). -/
def execVext (c : Common) (x : ImmX) (s : State) : Host.Outcome State Fault Refusal :=
  .next (fireResult (fun _ f =>
    let j := lane (f.vecOp c x.imm c.sb 1) 32 0 % c.ty.lanes
    ofLanes c.ty.width [lane (f.vecOp c x.imm c.sa 0) c.ty.width j]) (fun _ _ => c.ty.fmt) s)

/-- VINS (R497). -/
def execVins (c : Common) (x : ImmX) (s : State) : Host.Outcome State Fault Refusal :=
  .next (fireResult (fun _ f =>
    let j := lane (f.vecOp c x.imm c.sc 2) 32 0 % c.ty.lanes
    let v := setLane (f.vecOp c x.imm c.sa 0) c.ty.width j (lane (f.vecOp c x.imm c.sb 1) c.ty.width 0)
    ofLanes c.ty.width ((List.range (laneCount c)).map (lane v c.ty.width))) (fun _ _ => c.ty.fmt) s)

/-- VPERM (R499). -/
def execVperm (c : Common) (x : ImmX) (s : State) : Host.Outcome State Fault Refusal :=
  .next (fireResult (fun _ f =>
    ofLanes c.ty.width ((List.range (laneCount c)).map (fun i =>
      f.lane c.ty x.imm c.sa 0 (f.lane c.ty x.imm c.sb 1 i % c.ty.lanes)))) (fun _ _ => c.ty.fmt) s)

/-- VSEL (R503). -/
def execVsel (c : Common) (x : ImmX) (s : State) : Host.Outcome State Fault Refusal :=
  .next (fireResult (fun _ f => intLanes c x.imm (fun a b d => if d = 0 then a else b) f) (fun _ _ => c.ty.fmt) s)

/-! ## Combinations of lanes (R492, R493, R502) -/

/-- An integer combination of lanes by SUB (R312). -/
def combInt (t : Ty) (op : Nat) (xs : List Nat) : Nat :=
  match xs with
  | [] => 0
  | x :: rest => rest.foldl (fun a b => match op with
    | 0 => laneAdd t a b
    | 1 => laneMin t a b
    | 2 => laneMax t a b
    | 3 => a &&& b
    | 4 => a ||| b
    | _ => a ^^^ b) x

/-- A floating combination before rounding (R493). -/
def combF (env : FpEnv) (op : Nat) (xs : List FVal) : FRes :=
  match op with
  | 0 => (nanOf env xs).getD (sumVals env xs)
  | 1 => minmaxF false xs
  | _ => minmaxF true xs

/-- A combination of lanes of TY, rounded once, with its flags; one lane alone passes through roundTo (R502). -/
def comb (env : FpEnv) (t : Ty) (op : Nat) (xs : List Nat) (alone : Bool) : Nat × Flags :=
  if t.isInt then (combInt t op xs, 0)
  else
    let vs := xs.map (decodeIn env t)
    finish env t (if alone then (nanOf env vs).getD (vs.headD FVal.canon, 0) else combF env op vs)

/-- The lanes of operand A that a firing computes. -/
def Fire.lanesA (f : Fire) (c : Common) : List Nat := (List.range (laneCount c)).map (f.lane c.ty 0 c.sa 0)

/-- VRED (R502). -/
def execVred (c : Common) (x : ImmX) (s : State) : Host.Outcome State Fault Refusal :=
  .next (fireFlags (fun f =>
    withFlags c.ty.width [comb (f.env c.rnd false) c.ty x.sub.toNat (f.lanesA c) (!c.vec)]) c.ty.fmt s)

/-- VSCAN (R502). -/
def execVscan (c : Common) (x : ImmX) (s : State) : Host.Outcome State Fault Refusal :=
  .next (fireFlags (fun f =>
    withFlags c.ty.width ((List.range (laneCount c)).map (fun i =>
      comb (f.env c.rnd false) c.ty x.sub.toNat ((f.lanesA c).take (i + 1)) (!c.vec)))) c.ty.fmt s)

/-- The carry of a VCHAIN: lane 0 of L0, or of the token on port b (R492). -/
def chainCarry (f : Fire) (c : Common) : Nat :=
  if c.sb = .port then lane (f.src .port 1) c.ty.width 0 else lane f.st.l0 c.ty.width 0

/-- The lanes of a VCHAIN with their flags (R492). -/
def chainLanes (f : Fire) (c : Common) (op : Nat) : List (Nat × Flags) :=
  (List.range (laneCount c)).map (fun i =>
    comb (f.env c.rnd false) c.ty op (chainCarry f c :: (f.lanesA c).take (i + 1)) false)

/-- VCHAIN (R492). -/
def execVchain (c : Common) (x : ImmX) (s : State) : Host.Outcome State Fault Refusal :=
  .next (runFire destsReady (fun s f =>
    let ls := chainLanes f c x.sub.toNat
    let r := withFlags c.ty.width ls
    let s1 := raiseFlags (emitResult s f (f.token r.1 c.ty.fmt)) f.colour r.2
    let last := match ls.getLast? with
      | some l => l.1
      | none => 0
    updStake s1 f.colour f.st.lstake (fun st => { st with l0 := setLane st.l0 c.ty.width 0 last })) s)

/-! ## Packing and unpacking -/

/-- One element converted to a format, with saturation when `sat` (R101, R102). -/
def convElem (env : FpEnv) (t : Ty) (sat : Bool) (v : FVal) (word : BitVec 32) : Nat × Flags :=
  let r := (nanOf env [v]).getD (v, 0)
  let q := roundTo env t sat r.1 word
  (q.1, q.2 ||| r.2)

/-- One lane of a VPACK (R498). -/
def packLane (env : FpEnv) (t sty : Ty) (x : Nat) (word : BitVec 32) : Nat × Flags :=
  if t.isInt then (clampInt t (laneInt sty x), 0) else convElem env t true (decodeIn env sty x) word

/-- The lanes of a VPACK: those of a, then those of b. -/
def packLanes (c : Common) (sty : Ty) (f : Fire) : W512 × Flags :=
  let k := sty.lanes
  let xs := (List.range k).map (f.lane sty 0 c.sa 0) ++ (List.range k).map (f.lane sty 0 c.sb 1)
  let env := f.env c.rnd (narrowsFloat c.ty sty)
  withFlags c.ty.width ((xs.take (if c.vec then 2 * k else 1)).zipIdx.map (fun x =>
    packLane env c.ty sty x.1 (plaitLane f x.2)))

/-- VPACK (R498). -/
def execVpack (c : Common) (sty : Ty) (s : State) : Host.Outcome State Fault Refusal :=
  .next (fireFlags (packLanes c sty) c.ty.fmt s)

/-- One lane widened; a floating lane takes the path of R107, flushed under R99, and no flag is set (R504, log entry 14). -/
def unpackLane (env : FpEnv) (t sty : Ty) (x : Nat) : Nat :=
  if t.isInt then wrapInt t.width (laneInt sty x) else (convElem env t false (decodeIn env sty x) 0).1

/-- VUNPK (R504). -/
def execVunpk (c : Common) (sty : Ty) (s : State) : Host.Outcome State Fault Refusal :=
  .next (runFire destsReady (fun s f =>
    let p := lane (f.src c.sb 1) 32 0
    if sty.lanes ≤ p * c.ty.lanes then trapFire s f cILLOP
    else
      let v := ofLanes c.ty.width ((List.range (laneCount c)).map (fun i =>
        unpackLane (f.env 1 false) c.ty sty (f.lane sty 0 c.sa 0 (p * c.ty.lanes + i))))
      emitResult s f (f.token v c.ty.fmt)) s)

/-- The header that a VHDR builds, and whether the firing may build it (R496). -/
def vhdrOf (a b : W512) : W512 × Bool :=
  let h := BitVec.ofNat 512 (fld a 0 70 + fld b 0 440 * 2 ^ 72)
  (h, fld a 70 442 == 0 && fld b 440 72 == 0 && hdrOk h)

/-- VHDR (R496). -/
def execVhdr (c : Common) (s : State) : Host.Outcome State Fault Refusal :=
  .next (runFire destsReady (fun s f =>
    let r := vhdrOf (f.src c.sa 0) (f.src c.sb 1)
    if r.2 then emitResult s f (f.token r.1 7) else trapFire s f cILLOP) s)

/-- RNG (R466). -/
def execRng (c : Common) (stream : BitVec 8) (s : State) : Host.Outcome State Fault Refusal :=
  .next (runFire destsReady (fun s f =>
    let v := f.src c.sa 0
    if fld v 24 8 != 0 then trapFire s f cILLOP
    else
      let ws := (List.range (if c.vec then 16 else 1)).map (fun i =>
        (plait f.k.colkey stream.toNat (fld v 0 24) (fld v 32 16) ((fld v 48 16 + i) % 2 ^ 16)).toNat)
      emitResult s f (f.token (ofLanes 32 ws) 0)) s)

/-! ## Tokens that leave one per clk -/

/-- Every result destination takes these tokens, in order (R400, R494, R501). -/
def burstOut (c : Common) (ts : List Token) : List Emission :=
  ts.flatMap (fun t => (resultDests c).map (fun d => { d := d.1, tok := t }))

/-- The oldest token leaves on all its destinations together, once every one of their channels is ready (R12, R72). -/
def drainOnce (s : State) (c : BitVec 12) (st : StakeSt) : State :=
  let r := releaseGroup s c .stake st.lstake st.common st.out
  updStake r.1 c st.lstake (fun x => { x with out := r.2 })

/-- A firing sends tokens that leave one per clk, the first at once. -/
def sendBurst (s : State) (f : Fire) (ts : List Token) : State :=
  let s1 := updStake s f.colour f.st.lstake (fun x => { x with out := burstOut f.st.common ts })
  match stake? s1 f.colour f.st.lstake with
  | some st => drainOnce s1 f.colour st
  | none => s1

/-- A stake whose last firing still has tokens to send sends them before it fires again. -/
def drainOr (run : State → State) (s : State) : State :=
  match cursorStake s with
  | none => s
  | some (c, _, st) => if st.out.isEmpty then run s else drainOnce s c st

/-! ## Header consumers on a FIFO port (R66, R67) -/

/-- The latch in force at a firing on port a, or none. -/
def Fire.latchA (f : Fire) : Option Latch := latchOf f.st 0 f.colour f.frame

/-- The header in force at a firing: the latch's, or the default for the token's FMT (R66). -/
def Fire.hdrA (f : Fire) : W512 :=
  match f.latchA with
  | some l => l.hdr
  | none => hdrDefault f.first.fmt

/-- Data tokens taken so far under the latch. -/
def Fire.countA (f : Fire) : Nat :=
  match f.latchA with
  | some l => l.count
  | none => 0

/-- The firing's token is a bad header, or disagrees with the latch (R67). -/
def Fire.badA (f : Fire) : Bool := f.first.fmt == 7 || hdrEfmt f.hdrA != f.first.fmt.toNat

/-- The plait word of element `e` of the firing's token: by the latch when there is one (R106). -/
def Fire.plaitA (f : Fire) (e i : Nat) : BitVec 32 :=
  match f.latchA with
  | some l => plaitLatch f l e
  | none => plaitLane f i

/-- The elements of a header consumer's token, converted: `keep` leaves the scale in the header (R400, R494). Without a latch the
plait lane of an element is its lane in the source token (R106; log entry 27). -/
def burstElems (c : Common) (sty : Ty) (keep : Bool) (env : FpEnv) (f : Fire) : List (Nat × Flags) :=
  (List.range sty.lanes).map (fun i =>
    let e := f.countA * sty.lanes + i
    let x := decodeIn env sty (f.lane sty 0 .port 0 i)
    convElem env c.ty keep (if keep then x else scaled x (hdrScaleOf f.hdrA (e / hdrL f.hdrA))) (f.plaitA e i))

/-- A list cut into pieces of `m`; the fuel is its length. -/
def pieces {α : Type} (m : Nat) : Nat → List α → List (List α)
  | 0, _ => []
  | n + 1, xs => if xs.isEmpty then [] else xs.take m :: pieces m n (xs.drop m)

/-- The header that FMTCAST emits for a latched one (R400): EFMT and BLEN change, and for a wide type the scales go. -/
def castHdr (c : Common) (sty : Ty) (h : W512) : W512 :=
  let blen := (hdrBlen h * sty.lanes + c.ty.lanes - 1) / c.ty.lanes
  if c.ty.isNar then setFld (setFld h 12 3 c.ty.fmt.toNat) 16 16 blen
  else mkHdr [] (hdrCol0 h) (hdrRow0 h) blen c.ty.fmt.toNat (hdrLast h) (fld h 8 2) 127

/-- The latch ends with the firing's token (R66). -/
def Fire.lastA (f : Fire) : Bool := hdrBlen f.hdrA != 0 && decide (hdrBlen f.hdrA ≤ f.countA + 1)

/-- Mark that FMTCAST has sent its header for the latch of port a. -/
def markSent (st : StakeSt) : StakeSt :=
  { st with pa := { st.pa with latches := st.pa.latches.map (fun l => { l with sent := true }) } }

/-- FMTCAST has a latched header to announce. -/
def Fire.freshHdr (f : Fire) : Bool :=
  match f.latchA with
  | some l => !l.sent
  | none => false

/-- FMTCAST of one data token (R400): the state of its output buffer and the tokens that leave. Elements that the buffer still
holds from a burst ended by the next header leave first (log entry 15). -/
def fmtcastBody (c : Common) (sty : Ty) (s : State) (f : Fire) : State :=
  if f.badA || f.first.fmt != sty.fmt then trapFire s f cILLOP else
  let env := f.env c.rnd (narrowsFloat c.ty sty)
  let m := c.ty.lanes
  let es := burstElems c sty c.ty.isNar env f
  let tok (xs : List Nat) : Token := f.token (ofLanes c.ty.width xs) c.ty.fmt
  let old := f.st.ebuf.map BitVec.toNat
  let stale := f.freshHdr && !old.isEmpty
  let all := (if stale then [] else old) ++ es.map Prod.fst
  let whole := (pieces m (all.length + 1) all).filter (fun p => p.length == m)
  let left := all.drop (m * whole.length)
  let flush := f.lastA && !left.isEmpty
  let hdr := if f.freshHdr then [f.token (castHdr c sty f.hdrA) 7] else []
  let ts := (if stale then [tok old] else []) ++ hdr ++ whole.map tok ++ (if flush then [tok left] else [])
  let s1 := updStake s f.colour f.st.lstake (fun st =>
    latchAdvance { markSent st with ebuf := if flush then [] else left.map (BitVec.ofNat 32) } 0 f.colour f.frame)
  raiseFlags (sendBurst s1 f ts) f.colour (es.foldl (fun a e => a ||| e.2) 0)

/-- FMTCAST (R399, R400). -/
def execFmtcast (c : Common) (sty : Ty) (s : State) : Host.Outcome State Fault Refusal :=
  .next (drainOr (runFire destsReady (fmtcastBody c sty)) s)

/-- VDEQ of one data token (R494). -/
def vdeqBody (c : Common) (sty : Ty) (s : State) (f : Fire) : State :=
  if f.badA then trapFire s f cILLOP else
  let es := burstElems c sty false (f.env c.rnd false) f
  let used := if c.vec then es else es.take 1
  let ts := (pieces c.ty.lanes (used.length + 1) (used.map Prod.fst)).map (fun xs => f.token (ofLanes c.ty.width xs) c.ty.fmt)
  let s1 := updStake s f.colour f.st.lstake (fun st => latchAdvance st 0 f.colour f.frame)
  raiseFlags (sendBurst s1 f ts) f.colour (used.foldl (fun a e => a ||| e.2) 0)

/-- VDEQ (R494). -/
def execVdeq (c : Common) (sty : Ty) (s : State) : Host.Outcome State Fault Refusal :=
  .next (drainOr (runFire destsReady (vdeqBody c sty)) s)

/-! ## VQUANT (R500, R501) -/

/-- The tokens of one group: a header and a data token, with the flags. -/
def quantGroup (c : Common) (sty : Ty) (f : Fire) (desc : W512) (q : Nat) (xs : List Nat) (last : Nat) : List Token × Flags :=
  let env := f.env c.rnd true
  let m := c.ty.lanes
  let l := 16 * 2 ^ fld desc 0 2
  let row := fld desc 32 16 + q * m / 64
  let col := fld desc 48 16
  let vs := xs.map (decodeIn env sty)
  let blocks := (pieces l (m + 1) vs).map (blockScale c.ty)
  let word (e : Nat) : BitVec 32 := plait f.k.colkey 1 f.wave.toNat (row + e / 64) (col + e % 64)
  let elem (e : Nat) (v : FVal) : Nat × Flags :=
    let sc := (blocks.getD (e / l) (127, 0)).1
    if sc = 255 then (0, 0) else convElem env c.ty true (unscaled v sc) (word e)
  let es := vs.zipIdx.map (fun v => elem v.2 v.1)
  let h := mkHdr (blocks.map Prod.fst) (col % 2 ^ 16) (row % 2 ^ 16) 1 c.ty.fmt.toNat last (fld desc 0 2) 127
  ([f.token h 7, f.token (ofLanes c.ty.width (es.map Prod.fst)) c.ty.fmt],
    (blocks ++ es).foldl (fun a e => a ||| e.2) 0)

/-- The descriptor of a VQUANT is one that the firing refuses. -/
def quantBad (c : Common) (desc : W512) : Bool := fld desc 2 30 != 0 || (fld desc 0 2 == 3 && c.ty != .e2m1)

/-- VQUANT of one data token. -/
def vquantData (c : Common) (sty : Ty) (s : State) (f : Fire) : State :=
  let desc := f.src c.sb 1
  if quantBad c desc then trapFire s f cILLOP else
  let all := f.st.ebuf.map BitVec.toNat ++ (List.range sty.lanes).map (f.lane sty 0 .port 0)
  if all.length < c.ty.lanes then
    updStake s f.colour f.st.lstake (fun st => { st with ebuf := all.map (BitVec.ofNat 32) })
  else
    let r := quantGroup c sty f desc f.st.group all 0
    let s1 := updStake s f.colour f.st.lstake (fun st => { st with ebuf := [], group := st.group + 1 })
    raiseFlags (sendBurst s1 f r.1) f.colour r.2

/-- VQUANT of a token on port t: the burst ends (R501). -/
def vquantEnd (c : Common) (sty : Ty) (s : State) (f : Fire) : State :=
  let desc := f.src c.sb 1
  let old := f.st.ebuf.map BitVec.toNat
  let s1 := updStake s f.colour f.st.lstake (fun st => { st with ebuf := [], group := 0 })
  if quantBad c desc then trapFire s f cILLOP
  else if old.isEmpty then s1
  else
    let r := quantGroup c sty f desc f.st.group (old ++ List.replicate (c.ty.lanes - old.length) 0) 1
    raiseFlags (sendBurst s1 f r.1) f.colour r.2

/-- The port that a VQUANT's next firing takes: a, or t, and where both hold a token a free choice (log entry 16). -/
def quantPort (s : State) (a t : Bool) : Option (Nat × State) :=
  if a && t then (let r := s.drawBit; some (if r.1 then 0 else 3, r.2))
  else if a then some (0, s) else if t then some (3, s) else none

/-- VQUANT (R500, R501). -/
def execVquant (c : Common) (sty : Ty) (s : State) : Host.Outcome State Fault Refusal :=
  .next (drainOr (fun s => match cursorStake s with
    | none => s
    | some (col, k, st) =>
      let a := fireHead k st s.cur.place 0
      let t := if st.dt = 0 then none else fireHead k st s.cur.place 3
      match quantPort s a.isSome t.isSome with
      | none => s
      | some (p, s1) => match (if p = 0 then a else t) with
        | none => s1
        | some i =>
          let o := OpSet.empty.put p i.tok
          let f : Fire := { tile := s.cur.place, st := st, k := k, ops := o, colour := col, frame := i.tok.frame, wave := i.tok.wave }
          startFire destsReady (if p = 0 then vquantData c sty else vquantEnd c sty) s1 f
            (st.setPort p ((st.port p).remove i))) s)

end Sys2Proof.Machine
end

