-- ==== Sys2Proof/Machine/Tensor.lean ====
section
/-! DEFINITION. Tensor maps and their instructions (R314 to R316, R482 to R489). -/

namespace Sys2Proof.Machine

/-- The copy of a map that a firing samples. -/
def Fire.tm (f : Fire) (n : Nat) : W512 := mapGet f.k.tms n 0

/-- Every byte of an element lies in [BLO, BHI]. -/
def tmInside (m : W512) (a : Int) : Bool :=
  decide ((tmBlo m : Int) ≤ a) && decide (a + tmBytes m ≤ (tmBhi m : Int) + 1)

/-- Checks 1 and 2 of R484 and R488: the first address that fails, when one does. -/
def tmCheck (m op : W512) (store : Bool) : Option W64 :=
  if m = 0 || !(if store then tmW m else tmR m) then some 0
  else ((tmElems m op).find? (fun e => !tmInside m e.2)).map (fun e => BitVec.ofInt 64 e.2)

/-- The granules of the elements, each once, in element order. -/
def tmPages (s : State) (k : Colour) (tile home : Nat) (m op : W512) (need : Need) : List PageRef :=
  let vs := (tmElems m op).flatMap (fun e => granules (e.2 % 2 ^ 64).toNat (tmBytes m))
  (vs.foldl (fun l v => if l.contains v then l else l ++ [v]) []).map (fun v =>
    { va := v, need := need, res := tlbPiece s k tile home v need })

/-- A TMLD or TMST request with its check and its granules (R484, R488). -/
def tmPrep (s : State) (k : Colour) (tile : Nat) (r : Request) (store : Bool) : Request :=
  match tmCheck r.tm r.opa store with
  | some a => { r with cause := cPERM, reason := rTMAP, faddr := a }
  | none => { r with pages := tmPages s k tile r.home r.tm r.opa (if store then .store else .load) }

/-- The request of a TMLD or TMST (R484, R488). -/
def tmRequest (s : State) (f : Fire) (m op data : W512) (store : Bool) (fmt : BitVec 3) : Request :=
  tmPrep s f.k f.tile { mkReq f false f.home op 0 data fmt with tm := m } store

/-- The map's number in TMLD and TMST (R314). -/
def tmNum (c : Common) (m : TmemX) : Nat := 4 * c.mdHi + m.tmLow.toNat

/-- An E2M1 map with an odd start coordinate (R483). -/
def tmOdd (m op : W512) : Bool := m != 0 && tmEty m == .e2m1 && tmCoord op 0 % 2 != 0

/-- TMLD (R483, R484). -/
def execTmld (c : Common) (x : TmemX) (s : State) : Host.Outcome State Fault Refusal :=
  .next (runFire reqRoom (fun s f =>
    let m := f.tm (tmNum c x)
    let op := f.src c.sa 0
    if tmOdd m op then trapFire s f cILLOP else sendReq s (tmRequest s f m op 0 false f.first.fmt)) s)

/-- The data token of a TMST disagrees with its latch, or is a header that cannot be latched (R67, R489). -/
def tmstBad (c : Common) (f : Fire) : Bool :=
  c.sc == .port && match f.ops.get 2 with
    | some t => t.fmt == 7 || (match latchOf f.st 2 f.colour f.frame with
        | some l => hdrEfmt l.hdr != t.fmt.toNat
        | none => false)
    | none => false

/-- TMST (R488, R489). -/
def execTmst (c : Common) (x : TmemX) (s : State) : Host.Outcome State Fault Refusal :=
  .next (runFire reqRoom (fun s f =>
    let m := f.tm (tmNum c x)
    let op := f.src c.sa 0
    if tmstBad c f || tmOdd m op then trapFire s f cILLOP
    else
      let s1 := if c.sc = .port then updStake s f.colour f.st.lstake (fun st => latchAdvance st 2 f.colour f.frame) else s
      sendReq s1 (tmRequest s f m op (f.src c.sc 2) true f.first.fmt)) s)

/-! ## TMSET, TMNAR and TMGET -/

/-- The reasons for which TMSET refuses a map's shape (R486). -/
def tmsetBad (m : W512) : Bool :=
  let r := tmRank m
  let size := tmBytes m
  decide (r = 0 ∨ 5 < r) || tmEty m == .x ||
  (List.range r).any (fun d => tmExt m d == 0) ||
  (rangeFrom r (5 - r)).any (fun d => tmExt m d != 0 || tmStrideBits m d != 0) ||
  tmBase m % size != 0 || (List.range r).any (fun d => tmStride m d % size != 0) ||
  (tmEty m == .e2m1 && (tmStrideBits m 0 != 0 || tmExt m 0 % 2 != 0))

/-- A map with the bounds and permissions of another (R316). -/
def tmWithBounds (m : W512) (lo hi : Nat) (r w : Bool) : W512 :=
  setFld (setFld (setFld (setFld m 64 57 lo) 121 57 hi) 178 1 r.toNat) 179 1 w.toNat

/-- What TMSET installs (R486). -/
def tmsetValue (old v : W512) : W512 := setFld (tmWithBounds v (tmBlo old) (tmBhi old) (tmR old) (tmW old)) 180 32 0

/-- What TMNAR installs (R485). -/
def tmnarValue (old v : W512) : W512 :=
  if old = 0 then 0 else
  let hi := min (tmBhi old) (tmBhi v)
  let lo := max (tmBlo old) (tmBlo v)
  tmWithBounds old (if hi < lo then hi + 1 else lo) hi (tmR old && tmR v) (tmW old && tmW v)

/-- Install a map and emit it (R487; log entry 17: in every tile at once). -/
def tmInstall (s : State) (f : Fire) (n : Nat) (v : W512) : State :=
  emitResult (s.updCol f.colour.toNat (fun k => { k with tms := mapPut k.tms n v })) f (f.token v 0)

/-- TMSET (R486, R487). -/
def execTmset (c : Common) (tmn : BitVec 4) (s : State) : Host.Outcome State Fault Refusal :=
  .next (runFire destsReady (fun s f =>
    let v := f.src c.sa 0
    if tmsetBad v then trapFire s f cILLOP else tmInstall s f tmn.toNat (tmsetValue (f.tm tmn.toNat) v)) s)

/-- TMNAR (R485, R487). -/
def execTmnar (c : Common) (tmn : BitVec 4) (s : State) : Host.Outcome State Fault Refusal :=
  .next (runFire destsReady (fun s f => tmInstall s f tmn.toNat (tmnarValue (f.tm tmn.toNat) (f.src c.sa 0))) s)

/-- TMGET (R482). -/
def execTmget (_c : Common) (tmn : BitVec 4) (s : State) : Host.Outcome State Fault Refusal :=
  .next (runFire destsReady (fun s f => emitResult s f (f.token (f.tm tmn.toNat) 0)) s)

end Sys2Proof.Machine
end

