-- ==== Sys2Proof/Machine/Memory.lean ====
section
/-! DEFINITION. The memory class as its stakes fire (R118, R119, R123, R134, R177, R180, R182, R190 to R193, R198, R377, R378,
R421 to R428, R454, R463, R471 to R477), and FWAIT (R179, R180). -/

namespace Sys2Proof.Machine

/-- FMT that travels with operand A. -/
def Fire.fmtA (f : Fire) (c : Common) : BitVec 3 := f.fmtOf c.ty c.sa 0

/-- A wave-ordered request with operands A, B and C. -/
def waveReq (c : Common) (opc : W512) (f : Fire) : Request :=
  mkReq f false f.home (f.src c.sa 0) (f.src c.sb 1) opc (f.fmtA c)

/-- A request with the granules of SZ bytes at its address (R134). -/
def accessPrep (s : State) (k : Colour) (tile : Nat) (need : Need) (r : Request) : Request :=
  { r with pages := mkPages s k tile r.home (n64 r.opa 0).toNat (szBytes r.mem.sz) need }

/-- A request that accesses SZ bytes at its address. -/
def accessReq (c : Common) (need : Need) (opc : Fire → W512) (s : State) (f : Fire) : Request :=
  accessPrep s f.k f.tile need (waveReq c (opc f) f)

/-- A firing whose only emission is a request (R119). -/
def execReq (req : State → Fire → Request) (s : State) : Host.Outcome State Fault Refusal :=
  .next (runFire reqRoom (fun s f => sendReq s (req s f)) s)

/-- LD (R421 to R423). -/
def execLd (c : Common) (_x : MemX) (s : State) : Host.Outcome State Fault Refusal := execReq (accessReq c .load (fun _ => 0)) s

/-- ST (R471, R472). -/
def execSt (c : Common) (_x : MemX) (s : State) : Host.Outcome State Fault Refusal := execReq (accessReq c .store (fun _ => 0)) s

/-- LDF (R424). -/
def execLdf (c : Common) (_x : MemX) (s : State) : Host.Outcome State Fault Refusal :=
  execReq (accessReq c .loadFull (fun _ => 0)) s

/-- STE (R473). -/
def execSte (c : Common) (_x : MemX) (s : State) : Host.Outcome State Fault Refusal :=
  execReq (accessReq c .storeEmpty (fun _ => 0)) s

/-! ## LDT and STT -/

/-- Checks 1 and 2 of R426: the cause, 0 for none. -/
def ldtFault (d : W512) : BitVec 8 :=
  if fld d 96 32 ≠ 0 ∨ fld d 93 2 ≠ 0 ∨ fld d 77 3 ≠ 0 ∨ ldtNl d = 0 ∨ 4096 < ldtNl d ∨ 8192 < ldtLine d + ldtNl d then cILLOP
  else if ldtAddr d % 64 ≠ 0 then cALIGN
  else 0

/-- A request of an LDT or STT with its checks or its granules. -/
def linePrep (s : State) (k : Colour) (tile : Nat) (need : Need) (r : Request) : Request :=
  let d := r.opa
  if ldtFault d = 0 then { r with pages := mkPages s k tile r.home (ldtAddr d) (64 * ldtNl d) need }
  else { r with cause := ldtFault d, faddr := BitVec.ofNat 64 (if ldtFault d = cALIGN then ldtAddr d else 0) }

/-- The request of an LDT or STT. -/
def lineReq (c : Common) (need : Need) (s : State) (f : Fire) : Request := linePrep s f.k f.tile need (waveReq c 0 f)

/-- LDT (R425 to R428). -/
def execLdt (c : Common) (_x : MemX) (s : State) : Host.Outcome State Fault Refusal := execReq (lineReq c .load) s

/-- STT (R476, R477). -/
def execStt (c : Common) (_x : MemX) (s : State) : Host.Outcome State Fault Refusal := execReq (lineReq c .store) s

/-! ## MEMNOP, PREF and FENCE -/

/-- MEMNOP (R123, R437). -/
def execMemnop (c : Common) (_x : MemX) (s : State) : Host.Outcome State Fault Refusal := execReq (fun _ f => waveReq c 0 f) s

/-- PREF (R454). -/
def execPref (c : Common) (_x : MemX) (s : State) : Host.Outcome State Fault Refusal :=
  execReq (accessReq c .load (fun _ => 0)) s

/-- FENCE (R177, R178). -/
def execFence (c : Common) (_x : FenceX) (s : State) : Host.Outcome State Fault Refusal := execReq (fun _ f => waveReq c 0 f) s

/-! ## Atomics -/

/-- ATOM (R191 to R193). -/
def execAtom (c : Common) (_x : MemX) (s : State) : Host.Outcome State Fault Refusal :=
  execReq (accessReq c .atomic (fun _ => 0)) s

/-- FATOM (R388). -/
def execFatom (c : Common) (_x : MemX) (s : State) : Host.Outcome State Fault Refusal :=
  execReq (accessReq c .atomic (fun _ => 0)) s

/-- CAS (R371). -/
def execCas (c : Common) (_x : MemX) (s : State) : Host.Outcome State Fault Refusal :=
  execReq (accessReq c .atomic (fun f => f.src c.sc 2)) s

/-- RED (R463). -/
def execRed (c : Common) (_x : MemX) (s : State) : Host.Outcome State Fault Refusal :=
  execReq (accessReq c .reduce (fun _ => 0)) s

/-- FRED (R406). -/
def execFred (c : Common) (_x : MemX) (s : State) : Host.Outcome State Fault Refusal :=
  execReq (accessReq c .reduce (fun _ => 0)) s

/-- MCAS (R198, R434): its addresses are translated by the solder engine (R199). -/
def execMcas (c : Common) (_x : MemX) (s : State) : Host.Outcome State Fault Refusal := execReq (fun _ f => waveReq c 0 f) s

/-! ## Copies -/

/-- SRC of a copy descriptor (Table 16.4). -/
def cpySrc (d : W512) : Nat := fld d 0 64
/-- DST. -/
def cpyDst (d : W512) : Nat := fld d 64 64
/-- LEN. -/
def cpyLen (d : W512) : Nat := fld d 128 32
/-- QUEUE. -/
def cpyQueue (d : W512) : Nat := fld d 192 4

/-- The element size of a copy (R378). -/
def cpyElem (t : Ty) : Nat := if t = .x then 64 else max 1 (t.width / 8)

/-- The descriptor checks of R378: the cause and the address that fails. -/
def cpyFault (t : Ty) (d : W512) : BitVec 8 × Nat :=
  let e := cpyElem t
  if cpyLen d = 0 ∨ fld d 160 32 ≠ 0 ∨ fld d 196 60 ≠ 0 ∨ fld d 256 256 ≠ 0 then (cILLOP, 0)
  else if cpySrc d % e ≠ 0 then (cALIGN, cpySrc d)
  else if cpyDst d % e ≠ 0 then (cALIGN, cpyDst d)
  else if cpyLen d % e ≠ 0 then (cALIGN, cpySrc d)
  else (0, 0)

/-- A request of a copy with its checks: the queue home translates it (R378). -/
def cpyPrep (r : Request) : Request :=
  let e := cpyFault r.common.ty r.opa
  { r with cause := e.1, faddr := BitVec.ofNat 64 e.2 }

/-- The request of a copy. -/
def cpyReq (c : Common) (f : Fire) : Request := cpyPrep (waveReq c 0 f)

/-- CPY (R377 to R380). -/
def execCpy (c : Common) (_x : MemX) (s : State) : Host.Outcome State Fault Refusal := execReq (fun _ f => cpyReq c f) s

/-- CPYWP (R377 to R381). -/
def execCpywp (c : Common) (_x : MemX) (s : State) : Host.Outcome State Fault Refusal := execReq (fun _ f => cpyReq c f) s

/-- QFENCE (R182, R455). -/
def execQfence (c : Common) (_x : MemX) (s : State) : Host.Outcome State Fault Refusal :=
  .next (runFire reqRoom (fun s f =>
    let m := fld (f.src c.sa 0) 0 32
    if m = 0 ∨ 2 ^ 16 ≤ m then trapFire s f cILLOP else sendReq s (waveReq c 0 f)) s)

/-- A request with the checks and granules of its operation, for a replay (R137, R257). -/
def prepReq (s : State) (k : Colour) (tile : Nat) (r : Request) : Request :=
  match r.opcode with
  | 0x70 | 0x77 => accessPrep s k tile .load r
  | 0x71 => accessPrep s k tile .store r
  | 0x72 => linePrep s k tile .load r
  | 0x73 => linePrep s k tile .store r
  | 0x74 => accessPrep s k tile .loadFull r
  | 0x75 => accessPrep s k tile .storeEmpty r
  | 0x7A | 0x7B | 0x7C => accessPrep s k tile .atomic r
  | 0x7E | 0x7F => accessPrep s k tile .reduce r
  | 0x80 | 0x81 => cpyPrep r
  | 0x90 => tmPrep s k tile r false
  | 0x91 => tmPrep s k tile r true
  | _ => r

/-! ## FWAIT (R179, R180) -/

/-- Free a ticket slot of a cluster; a FULL fence's hold on its frame ends with its FWAIT condition (R178, R180). -/
def freeTicket (s : State) (home : Nat) (t : Ticket) : State :=
  updFrame (s.updClu home (fun c => { c with tickets := c.tickets.erase t })) t.colour t.frame (fun x =>
    { x with hold := if x.hold = some t.tser then none else x.hold })

/-- FWAIT (R179, R180). -/
def execFwait (_c : Common) (s : State) : Host.Outcome State Fault Refusal :=
  .next (runFire fwaitReady (fun s f =>
    match ticketOf s f with
    | some t => emitResult (freeTicket s f.home t) f (f.token f.first.data 0)
    | none => trapFire s f cILLOP) s)

end Sys2Proof.Machine
end

