-- ==== Sys2Proof/Machine/Scratch.lean ====
section
/-! DEFINITION. The scratch of a logical tile: bytes, full/empty bits and granule errors (R148, R163, R164, R184). -/

namespace Sys2Proof.Machine

/-- A byte of scratch. -/
def scrGet (t : Tile) (off : Nat) : Byte := mapGet t.scratch off 0

/-- A byte of scratch with the error of its 32-byte granule. -/
def scrByte (t : Tile) (off : Nat) : RdByte := (scrGet t off, t.bad.contains (off / 32))

/-- Bytes of scratch with their errors. -/
def scrRd (t : Tile) (off n : Nat) : List RdByte := (rangeFrom off n).map (scrByte t)

/-- Put one byte of scratch. -/
def scrPut (m : NMap Byte) (off : Nat) (b : Byte) : NMap Byte := if b = 0 then mapDel m off else mapPut m off b

/-- The scratch after one granule's error has met a write (R164): a whole granule clears it, a partial write with TOL merges
with zeros, any other partial write keeps it. -/
def scrGranule (t : Tile) (off : Nat) (w : List WrByte) (tol : Bool) (g : Nat) : Tile :=
  let inW (i : Nat) : Bool := decide (off ≤ i) && (w.getD (i - off) none).isSome
  let bytes := rangeFrom (32 * g) 32
  if !t.bad.contains g || !bytes.any inW then t
  else if bytes.all inW then { t with bad := setDel t.bad g }
  else if tol then { t with bad := setDel t.bad g, scratch := bytes.foldl mapDel t.scratch }
  else t

/-- The tile after a write to scratch. -/
def scrWrTile (t : Tile) (off : Nat) (w : List WrByte) (tol : Bool) : Tile :=
  let t1 := (rangeFrom (off / 32) ((off + w.length + 31) / 32 - off / 32)).foldl (fun t g => scrGranule t off w tol g) t
  { t1 with scratch := (w.zipIdx).foldl (fun m b => match b.1 with
      | some v => scrPut m (off + b.2) v
      | none => m) t1.scratch }

/-- Granules in error that a write leaves poisoned: those of a page without TOL that it covers in part (R164). -/
def scrPartial (t : Tile) (off : Nat) (w : List WrByte) (tol : Bool) : Nat :=
  let inW (i : Nat) : Bool := decide (off ≤ i) && (w.getD (i - off) none).isSome
  if tol then 0 else ((rangeFrom (off / 32) ((off + w.length + 31) / 32 - off / 32)).filter (fun g =>
    let bytes := rangeFrom (32 * g) 32
    t.bad.contains g && bytes.any inW && !bytes.all inW)).length

/-- Write bytes of the scratch of a logical tile, with the dirty bits of their lines (Table 11.8); a partial write that leaves a poison
code is counted on the tile's die (R164, log entry 102). -/
def scrWr (s : State) (k : Colour) (lt off : Nat) (w : List WrByte) (tol : Bool) : State :=
  match anchorOf k lt with
  | none => s
  | some a =>
    let first := off / 64
    let last := (off + w.length - 1) / 64
    let n := scrPartial (s.tile a) off w tol
    let s1 := if n = 0 then s else s.updDie (dieOfClu (cluOfTile a)) (fun d => { d with hbmUnc := countUp d.hbmUnc n })
    setDirty (s1.updTile a (fun t => scrWrTile t off w tol)) k lt (rangeFrom (181 + first) (last + 1 - first))

/-- Set or clear full/empty bits of the scratch of a logical tile. -/
def scrFill (s : State) (k : Colour) (lt : Nat) (lines : List Nat) (v : Bool) : State :=
  match anchorOf k lt with
  | none => s
  | some a =>
    let go (l : List Nat) : List Nat := if v then lines.foldl setIns l else l.filter (fun n => !lines.contains n)
    if lines.isEmpty then s else setDirty (s.updTile a (fun t => { t with full := go t.full })) k lt [180]

/-- Every line of a list is full. -/
def linesFull (t : Tile) (lines : List Nat) : Bool := lines.all (fun n => t.full.contains n)

/-- Some line of a list holds an uncorrectable error. -/
def linesBad (t : Tile) (lines : List Nat) : Bool := lines.any (fun n => t.bad.contains (2 * n) || t.bad.contains (2 * n + 1))

/-- The bytes of lines, in the order of the list. -/
def lineBytes (t : Tile) (lines : List Nat) : List Byte := lines.flatMap (fun n => (rangeFrom (64 * n) 64).map (scrGet t))

end Sys2Proof.Machine
end

