-- ==== Sys2Proof/Machine/Matrix.lean ====
section
/-! DEFINITION. The matrix class and the stream sequencer: banks, the command queue, steps, snapshots and drains (R115, R116,
R207 to R224, R435, R436, R441 to R443, R446, R449). -/

namespace Sys2Proof.Machine

/-! ## Banks and commands -/

/-- The elements of a bank, row-major. -/
def Acc.list (a : Acc) : List (BitVec 32) := (List.range 4096).map (fun i => mapGet a.elems i 0)

/-- A bank's table from its elements in order. -/
def accElems (xs : List (BitVec 32)) : NMap (BitVec 32) :=
  (xs.zipIdx).filterMap (fun x => if x.1 = 0 then none else some (x.2, x.1))

/-- The opcode of a command. -/
def MatCmd.opc (m : MatCmd) : Nat := (m.word.extractLsb' 120 8).toNat
/-- The common fields of a command's stake word. -/
def MatCmd.common (m : MatCmd) : Common := Common.ofWord m.word
/-- The bank of a command. -/
def MatCmd.bank (m : MatCmd) : Nat := (m.word.extractLsb' 33 2).toNat
/-- BTY of a command. -/
def MatCmd.bty (m : MatCmd) : Ty := Ty.ofCode (m.word.extractLsb' 29 4)
/-- The logical tile of a command. -/
def MatCmd.ltile (m : MatCmd) : Nat := m.lstake.toNat / 128

/-- A field of the descriptor in lane 0. -/
def desc0 (v : W512) (lo n : Nat) : Nat := fld v lo n
/-- A field of the descriptor in lane 1. -/
def desc1 (v : W512) (lo n : Nat) : Nat := fld v (64 + lo) n

/-- A command as its firing enters it: FPCTL and COLKEY are sampled now (R208). -/
def mkCmd (f : Fire) (opa opb : W512) (fa fb : BitVec 3) (ha hb : Option W512) : MatCmd :=
  { word := f.st.word, lstake := f.st.lstake, colour := f.colour, frame := f.frame, wave := f.wave, opa := opa, opb := opb,
    fa := fa, fb := fb, ha := ha, hb := hb, fpctl := f.k.fpctl, colkey := f.k.colkey, started := false, bytes := [],
    out := [], performed := false }

/-- Put a command at the end of its tile's queue. -/
def acceptCmd (s : State) (f : Fire) (m : MatCmd) : State :=
  setDirty (s.updTile f.tile (fun t => { t with cmds := t.cmds ++ [m] })) f.k (f.st.lstake.toNat / 128) [180]

/-- Change the queued owner and MODE of a bank (R207). -/
def queueOwner (s : State) (tile b : Nat) (o : Option (BitVec 12 × BitVec 12)) (int : Option Bool) : State :=
  s.updTile tile (fun t => t.setAcc b { t.acc b with qowner := o, qint := int.getD (t.acc b).qint })

/-- The firing's frame is the bank's queued owner. -/
def ownsBank (b : Nat) (s : State) (f : Fire) : Bool := ((s.tile f.tile).acc b).qowner == some (f.colour, f.frame)

/-- The queued MODE of a bank is I32. -/
def queuedInt (b : Nat) (s : State) (f : Fire) : Bool := ((s.tile f.tile).acc b).qint

/-! ## Operands (R212 to R214) -/

/-- Data lines of an operand of a type (R213). -/
def opLines (t : Ty) : Nat := 4 * t.width

/-- SMODE of an operand descriptor. -/
def opSmode (d : W512) : Nat := desc0 d 29 2

/-- The block length that a latch gives scale lines, 32 without one (R213). -/
def opBlock (h : Option W512) : Nat :=
  match h with
  | some x => hdrL x
  | none => 32

/-- The scale lines of an operand. -/
def opScaleLines (d : W512) (h : Option W512) : List Nat :=
  if opSmode d = 1 then rangeFrom (desc0 d 16 13) (if opBlock h = 16 then 2 else 1) else []

/-- The data lines of an operand. -/
def opDataLines (t : Ty) (d : W512) : List Nat := rangeFrom (desc0 d 0 13) (opLines t)

/-- R214 and R213 refuse an operand descriptor. -/
def opBad (t : Ty) (d : W512) (h : Option W512) : Bool :=
  desc0 d 32 32 != 0 || desc0 d 13 3 != 0 || decide (2 ≤ opSmode d) || (opSmode d == 1 && t.isInt) ||
    decide (8192 < desc0 d 0 13 + opLines t) || (opScaleLines d h).any (fun n => decide (8191 < n))

/-- The header in a latch. -/
def latchHdr (st : StakeSt) (p : Nat) (c f : BitVec 12) : Option W512 := (latchOf st p c f).map (·.hdr)

/-- The token of an MMA port disagrees with its type or with its latch (R67, R212). -/
def opTagBad (c : Common) (t : Ty) (fmt : BitVec 3) (h : Option W512) : Bool :=
  fmt == 7 || (c.acc == 0 && fmt != t.fmt) || (match h with
    | some x => hdrEfmt x != fmt.toNat
    | none => false)

/-! ## The firings -/

/-- MZERO (R207, R219, R449). -/
def execMzero (c : Common) (x : MatX) (s : State) : Host.Outcome State Fault Refusal :=
  .next (runFire (fun s f => cmdRoom s f && bankOpen x.bank.toNat s f) (fun s f =>
    acceptCmd (queueOwner s f.tile x.bank.toNat (some (f.colour, f.frame)) (some c.ty.isInt)) f
      (mkCmd f 0 0 0 0 none none)) s)

/-- MLDACC (R219, R441). -/
def execMldacc (c : Common) (x : MatX) (s : State) : Host.Outcome State Fault Refusal :=
  .next (runFire (fun s f => cmdRoom s f && bankOpen x.bank.toNat s f) (fun s f =>
    let d := f.src c.sa 0
    if desc0 d 13 18 != 0 || decide (8192 < desc0 d 0 13 + 256) then trapFire s f cILLOP
    else acceptCmd (queueOwner s f.tile x.bank.toNat (some (f.colour, f.frame)) (some c.ty.isInt)) f
      (mkCmd f d 0 (f.fmtOf c.ty c.sa 0) 0 none none)) s)

/-- MMA (R212 to R217, R442, R443). -/
def execMma (c : Common) (x : MatX) (s : State) : Host.Outcome State Fault Refusal :=
  .next (runFire mmaGate (fun s f =>
    let a := f.src .port 0
    let b := f.src .port 1
    let fa := f.fmtOf c.ty .port 0
    let fb := f.fmtOf x.bty .port 1
    let ha := latchHdr f.st 0 f.colour f.frame
    let hb := latchHdr f.st 1 f.colour f.frame
    if opTagBad c c.ty fa ha || opTagBad c x.bty fb hb || !ownsBank x.bank.toNat s f || opBad c.ty a ha ||
        opBad x.bty b hb || queuedInt x.bank.toNat s f != c.ty.isInt then trapFire s f cILLOP
    else
      let s1 := updStake s f.colour f.st.lstake (fun st =>
        latchAdvance (latchAdvance st 0 f.colour f.frame) 1 f.colour f.frame)
      acceptCmd s1 f (mkCmd f a b fa fb ha hb)) s)

/-- MSNAP (R218, R446). -/
def execMsnap (c : Common) (x : MatX) (s : State) : Host.Outcome State Fault Refusal :=
  .next (runFire cmdRoom (fun s f =>
    let d := f.src c.sa 0
    if !ownsBank x.bank.toNat s f || desc0 d 0 32 != 0 || queuedInt x.bank.toNat s f != c.ty.isInt then trapFire s f cILLOP
    else acceptCmd s f (mkCmd f d 0 (f.fmtOf c.ty c.sa 0) 0 none none)) s)

/-- Residual lines of a drain descriptor. -/
def drainLines (d : W512) : List Nat :=
  rangeFrom (desc1 d 0 13) (match desc1 d 44 2 with
    | 1 => 256
    | 2 => 128
    | _ => 0)

/-- R220 refuses a drain. -/
def drainBad (t : Ty) (d : W512) (int : Bool) : Bool :=
  desc1 d 13 28 != 0 || desc0 d 24 8 == 255 || desc1 d 44 2 == 3 || (drainLines d).any (fun n => decide (8191 < n)) ||
    int != t.isInt || (t.isInt && !(desc0 d 24 8 == 127 && desc1 d 48 16 == 0xFFFF && desc1 d 44 2 == 0))

/-- MDRAIN (R220 to R222, R435, R436). -/
def execMdrain (c : Common) (x : MatX) (s : State) : Host.Outcome State Fault Refusal :=
  .next (runFire cmdRoom (fun s f =>
    let d := f.src c.sa 0
    if !ownsBank x.bank.toNat s f || drainBad c.ty d (queuedInt x.bank.toNat s f) then trapFire s f cILLOP
    else
      let s1 := if desc1 d 47 1 = 1 then queueOwner s f.tile x.bank.toNat none none else s
      acceptCmd s1 f (mkCmd f d 0 (f.fmtOf c.ty c.sa 0) 0 none none)) s)

/-! ## The queue -/

/-- An earlier command keeps a later one from starting (R208). -/
def MatCmd.blocks (later x : MatCmd) : Bool :=
  !x.performed && x.bank == later.bank && !(x.opc == 0x9A && x.started) && !(x.opc == 0x99 && (later.opc == 0x9A || later.opc == 0x99))

/-- The first command of a queue that a test accepts, with its place. -/
def cmdFind (p : MatCmd → Bool) (l : List MatCmd) : Option (Nat × MatCmd) :=
  ((l.zipIdx).find? (fun x => p x.1)).map (fun x => (x.2, x.1))

/-- The first command that has not started and that a test accepts, when nothing before it blocks it. -/
def cmdReady (p : MatCmd → Bool) (l : List MatCmd) : Option (Nat × MatCmd) :=
  match cmdFind (fun m => !m.started && p m) l with
  | some (n, m) => if (l.take n).any m.blocks then none else some (n, m)
  | none => none

/-- The command is of an opcode and a bank. -/
def MatCmd.is (opc b : Nat) (m : MatCmd) : Bool := m.opc == opc && m.bank == b

/-- Replace a command of a tile's queue. -/
def cmdPut (s : State) (tile n : Nat) (m : MatCmd) : State := s.updTile tile (fun t => { t with cmds := t.cmds.set n m })

/-- Take a command out of a tile's queue. -/
def cmdDel (s : State) (tile n : Nat) : State := s.updTile tile (fun t => { t with cmds := t.cmds.eraseIdx n })

/-- Dirty bits of a command's bank and of the queue (Table 11.8). -/
def cmdDirty (s : State) (m : MatCmd) : State :=
  match s.col? m.colour.toNat with
  | some k => setDirty s k m.ltile [176 + m.bank, 180]
  | none => s

/-- Set lines of a command's tile empty. -/
def cmdEmpty (s : State) (m : MatCmd) (lines : List Nat) : State :=
  match s.col? m.colour.toNat with
  | some k => scrFill s k m.ltile lines false
  | none => s

/-- The replay record of a command (Table 11.4). -/
def cmdRecord (m : MatCmd) (fault : Bool) : Record :=
  { opa := m.opa, opb := m.opb, opc := 0, word := m.word, colour := m.colour, frame := m.frame, wave := m.wave,
    lstake := m.lstake, port := 0, fmt := m.fa, rkind := 3, flags := if fault then 1 else 0,
    cause := if fault then cUE else 0, chk := 0, faddr := 0, rid := none, was := none }

/-- A line that a command reads is in error: the command and its frame's later commands on the bank go to the replay queue
(R223). -/
def cmdError (s : State) (tile n : Nat) (m : MatCmd) : State :=
  let l := (s.tile tile).cmds
  let mine (x : MatCmd) : Bool := x.colour == m.colour && x.frame == m.frame && x.bank == m.bank && !x.started
  let later := (l.drop (n + 1)).filter mine
  let s1 := s.updTile tile (fun t => { t with cmds := l.take n ++ (l.drop (n + 1)).filter (fun x => !mine x) })
  haltFrame (cmdDirty s1 m) m.colour m.frame cUE 0 0 m.lstake (cmdRecord m true :: later.map (fun x => cmdRecord x false))

/-- The frame of a command is still there; a killed frame's results are discarded (R36, R209). -/
def cmdLive (s : State) (m : MatCmd) : Bool :=
  match s.col? m.colour.toNat with
  | some k => k.isLive m.frame
  | none => false

/-- The first performed command that a test accepts and whose result its channels take, or whose frame is gone: its tokens leave
together and it leaves the queue (R72, R208). The results of one stake leave in command order, for its channels are the same. -/
def releaseCmd (p : MatCmd → Bool) (s : State) (tile : Nat) : State :=
  let may (m : MatCmd) : Bool := m.performed && p m && (!cmdLive s m || groupRoom s m.colour .unit m.lstake m.common m.out)
  match cmdFind may (s.tile tile).cmds with
  | none => s
  | some (n, m) =>
    let s1 := cmdDirty (cmdDel s tile n) m
    if cmdLive s m then groupSend s1 m.colour .unit m.lstake m.common m.out else countPurged s1 m.colour m.out.length

/-- A command has performed: it emits a number as an N32 token on every result destination. -/
def cmdSteps (s : State) (tile n : Nat) (m : MatCmd) (v : BitVec 32) : State :=
  let out := resultOut m.common (mkToken (v.setWidth 512) 0 m.colour m.frame m.wave tile)
  releaseCmd (fun x => x.lstake == m.lstake) (cmdDirty (cmdPut s tile n { m with performed := true, started := true, out := out }) m) tile

/-! ## MZERO and MLDACC -/

/-- Clear and take a bank, then send STEPS. -/
def takeBank (s : State) (tile n : Nat) (m : MatCmd) (elems : NMap (BitVec 32)) (steps : BitVec 32) : State :=
  let s1 := s.updTile tile (fun t => t.setAcc m.bank { t.acc m.bank with
    elems := elems, isInt := m.common.ty.isInt, steps := steps, owner := some (m.colour, m.frame), commit := none })
  cmdSteps s1 tile n m steps

/-- MZERO_PERFORM (R219); where no MZERO of the bank can start, a result that has waited for its channels leaves. -/
def execMzeroPerform (tile bank : W64) (s : State) : Host.Outcome State Fault Refusal :=
  .next (match cmdReady (MatCmd.is 0x98 bank.toNat) (s.tile tile.toNat).cmds with
    | some (n, m) => takeBank s tile.toNat n m [] 0
    | none => releaseCmd (MatCmd.is 0x98 bank.toNat) s tile.toNat)

/-- MLDACC_PERFORM (R219, R441); where none can start, a result that has waited leaves. -/
def execMldaccPerform (tile bank : W64) (s : State) : Host.Outcome State Fault Refusal :=
  .next (match cmdReady (MatCmd.is 0x9C bank.toNat) (s.tile tile.toNat).cmds with
    | some (n, m) =>
      let t := s.tile tile.toNat
      let lines := rangeFrom (desc0 m.opa 0 13) 256
      if !linesFull t lines then s
      else if linesBad t lines then cmdError s tile.toNat n m
      else
        let xs := (pieces 4 4096 (lineBytes t lines)).map (fun b => BitVec.ofNat 32 (leNat b))
        let s1 := if desc0 m.opa 31 1 = 1 then cmdEmpty s m lines else s
        takeBank s1 tile.toNat n m (accElems xs) (BitVec.ofNat 32 (desc0 m.opa 32 32))
    | none => releaseCmd (MatCmd.is 0x9C bank.toNat) s tile.toNat)

/-! ## MMA steps (R115, R116, R215, R217) -/

/-- The lines that an MMA step reads: A data, A scales, B data, B scales. -/
def mmaLines (m : MatCmd) : List Nat :=
  opDataLines m.common.ty m.opa ++ opScaleLines m.opa m.ha ++ opDataLines m.bty m.opb ++ opScaleLines m.opb m.hb

/-- The lines that a step sets empty (R215). -/
def mmaRel (m : MatCmd) : List Nat :=
  (if desc0 m.opa 31 1 = 1 then opDataLines m.common.ty m.opa ++ opScaleLines m.opa m.ha else []) ++
    (if desc0 m.opb 31 1 = 1 then opDataLines m.bty m.opb ++ opScaleLines m.opb m.hb else [])

/-- MMA_STEP_START (R208, R215, R223, R344). -/
def execMmaStepStart (s : State) : Host.Outcome State Fault Refusal :=
  .next (match cmdReady (fun m => m.opc == 0x99) (s.tile s.cur.place).cmds with
    | some (n, m) =>
      let t := s.tile s.cur.place
      if !linesFull t (mmaLines m) || !issueOpen s then s
      else if linesBad t (mmaLines m) then cmdError s s.cur.place n m
      else
        let s1 := cmdPut s s.cur.place n { m with started := true, bytes := lineBytes t (mmaLines m) }
        cmdEmpty (cmdDirty s1 m) m (mmaRel m)
    | none => s)

/-- A byte read by a step that a store may have reached meanwhile: its old or its new value (R215). A line that the step has set
empty and that has been filled again since holds the data of a later step. -/
def mixByte (s : State) (t : Tile) (rel : List Nat) (x : Byte × Nat) : State × Byte :=
  let now := scrGet t x.2
  if now = x.1 || (rel.contains (x.2 / 64) && t.full.contains (x.2 / 64)) then (s, x.1)
  else
    let r := s.drawBit
    (r.2, if r.1 then now else x.1)

/-- The bytes that a step has read. -/
def stepBytes (s : State) (tile : Nat) (m : MatCmd) : State × List Byte :=
  let offs := (mmaLines m).flatMap (fun n => rangeFrom (64 * n) 64)
  let r := (m.bytes.zip offs).foldl (fun (acc : State × List Byte) x =>
    let y := mixByte acc.1 (s.tile tile) (mmaRel m) x
    (y.1, y.2 :: acc.2)) (s, [])
  (r.1, r.2.reverse)

/-- The 64 rows of A, or columns of B, as codes. -/
def opRows (t : Ty) (bs : List Byte) : List (List Nat) :=
  (pieces (4 * t.width) 64 bs).map (fun r => (List.range 32).map (fun k => (leNat r >>> (t.width * k)) % 2 ^ t.width))

/-- The scale of element `k` of row `r` (R213). -/
def opScale (d : W512) (h : Option W512) (sb : List Byte) (r k : Nat) : Nat :=
  if opSmode d = 1 then (sb.getD ((if opBlock h = 16 then 64 * (k / 16) else 0) + r) 0).toNat
  else match h with
    | some x => hdrScale x
    | none => 127

/-- The scaled values of an operand. -/
def opVals (t : Ty) (d : W512) (h : Option W512) (bs sb : List Byte) : List (List FVal) :=
  ((opRows t bs).zipIdx).map (fun r => (r.1.zipIdx).map (fun x => scaled (decodeF t x.1) (opScale d h sb r.2 x.2)))

/-- The environment of a step: RNE, and nothing from FPCTL (R115). -/
def FpEnv.step : FpEnv := { rm := .rne, dn := false, fz := false, fzn := false }

/-- The sum of one chunk (R115). -/
def chunkSum (a b : List FVal) : FRes :=
  if a.any FVal.isNan || b.any FVal.isNan then (.canon, 0)
  else
    let ps := List.zipWith mulVals a b
    if ps.any Option.isNone then invalid else sumVals .step (.num false 0 1 :: ps.filterMap id)

/-- One element after a step (R115). -/
def stepElem (acc : BitVec 32) (a b : List FVal) : Nat × Flags :=
  let p := finish .step .f32 (chunkSum a b)
  let q := finish .step .f32 (addF .step (decodeF .f32 p.1) (decodeF .f32 acc.toNat))
  (q.1, (p.2 ||| q.2) &&& (flagNV ||| flagOF))

/-- One I32 element after a step (R116). -/
def stepInt (acc : BitVec 32) (a b : List Int) : BitVec 32 := acc + BitVec.ofInt 32 (List.zipWith (· * ·) a b).sum

/-- The elements of a bank after a step, with the flags. -/
def stepAcc (m : MatCmd) (acc : List (BitVec 32)) (bs : List Byte) : List (BitVec 32) × Flags :=
  let na := 64 * opLines m.common.ty
  let nsa := 64 * (opScaleLines m.opa m.ha).length
  let nb := 64 * opLines m.bty
  let ab := bs.take na
  let asb := (bs.drop na).take nsa
  let bb := (bs.drop (na + nsa)).take nb
  let bsb := bs.drop (na + nsa + nb)
  if m.common.ty.isInt then
    let ra := (opRows m.common.ty ab).map (fun r => r.map (laneInt m.common.ty))
    let rb := (opRows m.bty bb).map (fun r => r.map (laneInt m.bty))
    (List.zipWith (fun x (p : List Int × List Int) => stepInt x p.1 p.2) acc (ra.flatMap (fun a => rb.map (fun b => (a, b)))), 0)
  else
    let ra := opVals m.common.ty m.opa m.ha ab asb
    let rb := opVals m.bty m.opb m.hb bb bsb
    let rs := List.zipWith (fun x (p : List FVal × List FVal) => stepElem x p.1 p.2) acc (ra.flatMap (fun a => rb.map (fun b => (a, b))))
    (rs.map (fun r => BitVec.ofNat 32 r.1), rs.foldl (fun a r => a ||| r.2) 0)

/-- The bank after a commit: it keeps the elements and STEPS that stood before the first commit of this clk (R218). -/
def Acc.commitStep (a : Acc) (clk : Nat) (elems : NMap (BitVec 32)) : Acc := { a with
  elems := elems, steps := a.steps + 1
  commit := match a.commit with
    | some (t, es, n) => if t = clk then some (t, es, n) else some (clk, a.elems, a.steps)
    | none => some (clk, a.elems, a.steps) }

/-- MMA_STEP_COMMIT (R217, R442); where no step is under way, a result that has waited for its channels leaves. -/
def execMmaStepCommit (s : State) : Host.Outcome State Fault Refusal :=
  .next (match cmdFind (fun m => m.opc == 0x99 && m.started && !m.performed) (s.tile s.cur.place).cmds with
    | some (n, m) =>
      let tile := s.cur.place
      let rb := stepBytes s tile m
      let a := (s.tile tile).acc m.bank
      let r := stepAcc m a.list rb.2
      let s1 := rb.1.updTile tile (fun t => t.setAcc m.bank (a.commitStep s.clk (accElems r.1)))
      cmdSteps (raiseFlags s1 m.colour r.2) tile n m (a.steps + 1)
    | none => releaseCmd (fun m => m.opc == 0x99) s s.cur.place)

/-! ## Group streams (R222) -/

/-- One group of a stream: its header, but for I32, and its data tokens. -/
def groupToks (t : Ty) (xs : List Nat) (row col last : Nat) (scales : List Nat) (blk : Nat) : List (W512 × BitVec 3) :=
  let data := (pieces t.lanes 128 xs).map (fun ys => (ofLanes t.width ys, t.fmt))
  if t.isInt then data
  else (mkHdr scales col (row % 2 ^ 16) data.length t.fmt.toNat last blk 127, 7) :: data

/-- The tokens of a stream of 4,096 elements; `scales` are those of all blocks in element order, `bl` their length. -/
def streamToks (t : Ty) (xs : List Nat) (row0 col0 : Nat) (scales : List Nat) (blk bl : Nat) : List (W512 × BitVec 3) :=
  ((pieces 128 32 xs).zipIdx).flatMap (fun g =>
    groupToks t g.1 (row0 + 2 * g.2) col0 (if g.2 = 31 then 1 else 0)
      (if scales.isEmpty then [] else (scales.drop (g.2 * (128 / bl))).take (128 / bl)) blk)

/-- The emissions of a stream on destination field 0; a misfit route takes no result (R306). -/
def streamOut (m : MatCmd) (tile : Nat) (ts : List (W512 × BitVec 3)) : List Emission :=
  if m.common.d0.isResult then ts.map (fun t => { d := 0, tok := mkToken t.1 t.2 m.colour m.frame m.wave tile }) else []

/-- The N32 token of STEPS of a command on destination field 1, when that field takes results (R306). -/
def stepsOut (m : MatCmd) (tile : Nat) (v : BitVec 32) : List Emission :=
  if m.common.d1.isResult then [{ d := 1, tok := mkToken (v.setWidth 512) 0 m.colour m.frame m.wave tile }] else []

/-- What a drain does once its last token has left: ZERO, then FREE (R221). -/
def drainEnd (s : State) (tile : Nat) (m : MatCmd) : State :=
  let s1 := if desc1 m.opa 46 1 = 1 then s.updTile tile (fun t =>
      t.setAcc m.bank { t.acc m.bank with elems := [], steps := 0, commit := none }) else s
  if desc1 m.opa 47 1 = 1 then s1.updTile tile (fun t => t.setAcc m.bank { t.acc m.bank with owner := none }) else s1

/-- A command whose last token has left: it leaves the queue, and a drain takes its last effect. -/
def streamEnd (s : State) (tile n : Nat) (m : MatCmd) : State :=
  cmdDirty (cmdDel (if m.opc = 0x9B then drainEnd s tile m else s) tile n) m

/-- One token of a stream leaves when its channel accepts it; after the last the command has ended. -/
def drainCmd (s : State) (tile n : Nat) (m : MatCmd) : State :=
  if !cmdLive s m then countPurged (cmdDirty (cmdDel s tile n) m) m.colour m.out.length
  else match m.out with
    | [] => streamEnd s tile n m
    | e :: rest =>
      if !groupRoom s m.colour .unit m.lstake m.common [e] then s
      else
        let s1 := groupSend s m.colour .unit m.lstake m.common [e]
        if rest.isEmpty then streamEnd s1 tile n m else cmdPut s1 tile n { m with out := rest }

/-- The elements and STEPS of a bank as left by the last commit before a clk (R218). -/
def Acc.before (a : Acc) (clk : Nat) : List (BitVec 32) × BitVec 32 :=
  match a.commit with
  | some (t, es, n) => if t = clk then ({ a with elems := es }.list, n) else (a.list, a.steps)
  | none => (a.list, a.steps)

/-- MSNAP_START (R218, R222, R446): the copy of the bank starts to stream; while it streams, its next token leaves. -/
def execMsnapStart (tile bank : W64) (s : State) : Host.Outcome State Fault Refusal :=
  let t := s.tile tile.toNat
  .next (match cmdFind (fun m => m.opc == 0x9A && m.started) t.cmds with
    | some (n, m) => if m.bank = bank.toNat then drainCmd s tile.toNat n m else s
    | none => match cmdReady (MatCmd.is 0x9A bank.toNat) t.cmds with
      | some (n, m) =>
        let a := (t.acc m.bank).before s.clk
        let ts := streamToks m.common.ty (a.1.map BitVec.toNat) (desc0 m.opa 32 16) (desc0 m.opa 48 16) [] 1 32
        cmdPut s tile.toNat n { m with
          started := true, out := stepsOut m tile.toNat a.2 ++ streamOut m tile.toNat ts }
      | none => s)

/-! ## MDRAIN (R221, R436) -/

/-- Residual elements as F32 or BF16 codes, row-major (R436). -/
def residual (t : Tile) (d : W512) : List Nat :=
  let w := if desc1 d 44 2 = 1 then 4 else 2
  (pieces w 4096 (lineBytes t (drainLines d))).map leNat

/-- The F32 steps of one element (R221). -/
def drainElem (env : FpEnv) (key : W64) (d : W512) (res : Option FVal) (i : Nat) (x : BitVec 32) : Nat × Flags :=
  let kprob := desc1 d 48 16
  let one (v : FVal) (g : FVal → FVal) : Nat × Flags := finish env .f32 ((nanOf env [v]).getD (g v, 0))
  let a := one (decodeIn env .f32 x.toNat) (fun v => scaled v (desc0 d 24 8))
  let u := plait key 2 (desc0 d 0 24) ((desc0 d 32 16 + i / 64) % 2 ^ 16) ((desc0 d 48 16 + i % 64) % 2 ^ 16)
  let b := if decide (kprob < u.toNat / 2 ^ 16) then (0, 0)
    else one (decodeIn env .f32 a.1) (fun v => match v with
      | .num s n m => .num s (n * 65536) (m * (kprob + 1))
      | w => w)
  let c := match res with
    | some r => finish env .f32 (addF env (decodeIn env .f32 b.1) r)
    | none => (b.1, 0)
  (c.1, a.2 ||| b.2 ||| c.2)

/-- The drained elements in the output type, the block scales, and the flags (R221). -/
def drainVals (m : MatCmd) (acc : List (BitVec 32)) (res : List Nat) : List Nat × List Nat × Flags :=
  let t := m.common.ty
  let d := m.opa
  if t.isInt then (acc.map BitVec.toNat, [], 0)
  else
    let env := fpEnv m.fpctl 1 false
    let rty := if desc1 d 44 2 = 1 then Ty.f32 else Ty.bf16
    let rvs := if res.isEmpty then acc.map (fun _ => none) else res.map (fun r => some (decodeIn env rty r))
    let xs := ((acc.zip rvs).zipIdx).map (fun x => drainElem env m.colkey d x.1.2 x.2 x.1.1)
    let fl := xs.foldl (fun a x => a ||| x.2) 0
    let nenv := fpEnv m.fpctl m.common.rnd true
    let word (i : Nat) : BitVec 32 :=
      plait m.colkey 1 (desc0 d 0 24) ((desc0 d 32 16 + i / 64) % 2 ^ 16) ((desc0 d 48 16 + i % 64) % 2 ^ 16)
    let vs := xs.map (fun x => decodeIn nenv .f32 x.1)
    if t = .f32 then (xs.map Prod.fst, [], fl)
    else if !t.isNar then
      let ys := (vs.zipIdx).map (fun v => convElem nenv t true v.1 (word v.2))
      (ys.map Prod.fst, [], ys.foldl (fun a y => a ||| y.2) fl)
    else
      let bl := 16 * 2 ^ desc1 d 41 2
      let blocks := (pieces bl 256 vs).map (fun b => (b, blockScale t b))
      let ys := (blocks.zipIdx).flatMap (fun b => (b.1.1.zipIdx).map (fun v =>
        if b.1.2.1 = 255 then (0, 0) else convElem nenv t true (unscaled v.1 b.1.2.1) (word (bl * b.2 + v.2))))
      let fl1 := blocks.foldl (fun a b => a ||| b.2.2) fl
      (ys.map Prod.fst, blocks.map (fun b => b.2.1), ys.foldl (fun a y => a ||| y.2) fl1)

/-- MDRAIN_PERFORM (R221, R222, R435): the drain is computed once its lines are full; then its next token leaves. -/
def execMdrainPerform (tile bank : W64) (s : State) : Host.Outcome State Fault Refusal :=
  let t := s.tile tile.toNat
  .next (match cmdFind (fun m => m.started && MatCmd.is 0x9B bank.toNat m) t.cmds with
    | some (n, m) => drainCmd s tile.toNat n m
    | none => match cmdReady (MatCmd.is 0x9B bank.toNat) t.cmds with
      | some (n, m) =>
        let lines := drainLines m.opa
        if !linesFull t lines then s
        else if linesBad t lines then cmdError s tile.toNat n m
        else
          let a := t.acc m.bank
          let r := drainVals m a.list (residual t m.opa)
          let blk := if m.common.ty.isNar then desc1 m.opa 41 2 else 1
          let ts := streamToks m.common.ty r.1 (desc0 m.opa 32 16) (desc0 m.opa 48 16) r.2.1 blk (16 * 2 ^ desc1 m.opa 41 2)
          let s1 := cmdPut s tile.toNat n { m with
            started := true, out := streamOut m tile.toNat ts ++ stepsOut m tile.toNat a.steps }
          let s2 := if desc1 m.opa 43 1 = 1 then cmdEmpty s1 m lines else s1
          raiseFlags s2 m.colour r.2.2
      | none => s)

end Sys2Proof.Machine
end

