-- ==== Sys2Proof/Machine/System.lean ====
section
/-! DEFINITION. The system class (R317, R338, R370, R372, R383, R384, R414, R415, R431, R460 to R462, R467, R490, R506). -/

namespace Sys2Proof.Machine

/-! ## Control registers (Table 13.7) -/

/-- BARCNTn (Table 2.3). -/
def Barrier.word (b : Barrier) : W64 :=
  BitVec.ofNat 64 (b.expect.toNat + b.arrived.toNat * 2 ^ 16 + b.broken.toNat * 2 ^ 31 + b.gen.toNat * 2 ^ 32)

/-- An empty copy queue (R38). -/
def CopyQ.reset : CopyQ := { accepted := 0, done := 0, items := [] }

/-- CQWPn (Table 7.6): OFF moves for a CPYWP only, to the last boundary of a piece that has performed (R381). -/
def CopyQ.word (q : CopyQ) : W64 :=
  let off := match q.items.find? (fun i => match i with | .cmd _ => true | .fence _ => false) with
    | some (.cmd c) => if c.wp then c.acked else 0
    | _ => 0
  BitVec.ofNat 64 (off % 2 ^ 32 + q.done.toNat * 2 ^ 32)

/-- A marker is in flight: INFL of WALE (Table 3.7). -/
def Colour.inflight (k : Colour) : Bool :=
  match k.cut with
  | some x => !x.whole
  | none => false

/-- The value of a control register of a colour. -/
def ctlRead (k : Colour) (n : Nat) : W64 :=
  if n = 0 then k.fpctl
  else if n = 2 then k.colkey
  else if n = 3 then k.spillbase
  else if n = 4 then BitVec.ofNat 64 (k.quota.toNat + k.spills.toNat * 2 ^ 16)
  else if n = 5 then k.trapvec
  else if 0x10 ≤ n ∧ n < 0x20 then (mapGet k.bars (n - 0x10) Barrier.reset).word
  else if 0x20 ≤ n ∧ n < 0x30 then (mapGet k.copyq (n - 0x20) CopyQ.reset).word
  else if n = 0x30 then BitVec.ofNat 64 (k.round.toNat + k.inflight.toNat * 2 ^ 16)
  else if n = 0x31 then BitVec.ofNat 64 (k.out0.toNat + k.out1.toNat * 2 ^ 16 + k.ep.toNat * 2 ^ 32)
  else 0

/-- A value that SPILLBASE accepts (R76). -/
def spillbaseOk (v : W64) : Bool :=
  8 ≤ v.toNat % 64 && v.toNat % 64 ≤ 24 && v.toNat / 2 ^ 57 == 0

/-- A value that MSQUOTA accepts (R75). -/
def msquotaOk (v : W64) : Bool := 1 ≤ v.toNat % 2 ^ 13 && v.toNat % 2 ^ 13 ≤ 4096

/-- A value that TRAPVEC accepts in a partition (R249). -/
def trapvecOk (p : Part) (v : W64) : Bool :=
  v.toNat / 2 ^ 57 == 0 && (v.extractLsb' 12 3) != 7 && (!v.getLsbD 15 || p.hasColour (v.toNat % 2 ^ 12))

/-- What a WRCTL does to the colour's registers; none where it traps with ILLOP (R506). -/
def ctlWrite (s : State) (k : Colour) (n : Nat) (v : W64) : Option Colour :=
  if n = 0 then (if fpctlOk v then some { k with fpctl := fpctlMask v } else none)
  else if n = 2 then some { k with colkey := v }
  else if n = 3 then (if spillbaseOk v then some { k with spillbase := spillbaseMask v } else none)
  else if n = 4 then (if msquotaOk v then some { k with quota := v.setWidth 13 } else none)
  else if n = 5 then (if trapvecOk (s.part k.part) v then some { k with trapvec := v } else none)
  else if 0x10 ≤ n ∧ n < 0x20 then
    let b := mapGet k.bars (n - 0x10) Barrier.reset
    some { k with bars := mapPut k.bars (n - 0x10) { b with broken := b.broken && !v.getLsbD 31 } }
  else none

/-- RDCTL (R460, R461). -/
def execRdctl (_c : Common) (ctl : BitVec 8) (s : State) : Host.Outcome State Fault Refusal :=
  .next (fireResult (fun _ f => (ctlRead f.k ctl.toNat).setWidth 512) (fun _ _ => 0) s)

/-- WRCTL (R111, R338, R506; log entry 17: in every tile at once). -/
def execWrctl (c : Common) (ctl : BitVec 8) (s : State) : Host.Outcome State Fault Refusal :=
  .next (runFire destsReady (fun s f =>
    match s.col? f.colour.toNat with
    | none => s
    | some k => match ctlWrite s k ctl.toNat (n64 (f.src c.sa 0) 0) with
      | none => trapFire s f cILLOP
      | some k1 =>
        emitResult (s.updCol f.colour.toNat (fun _ => k1)) f (f.token ((ctlRead k1 ctl.toNat).setWidth 512) 0)) s)

/-- RDTIME (R462). -/
def execRdtime (_c : Common) (s : State) : Host.Outcome State Fault Refusal :=
  .next (fireResult (fun s _ => s.time.setWidth 512) (fun _ _ => 0) s)

/-! ## TRAP, BRK and EVENT -/

/-- A stop that a stake asks for: one PASS record holds its operand (R370, R490). -/
def softTrap (c : Common) (code : BitVec 16) (cause : BitVec 8) (s : State) (f : Fire) : State :=
  let t := f.token (f.src c.sa 0) (f.fmtOf c.ty c.sa 0)
  let r := { tokenRecord f.st.word t f.st.lstake cause false with rkind := 2, faddr := code.setWidth 64 }
  haltFrame s f.colour f.frame cause 0 (code.setWidth 64) f.st.lstake [r]

/-- TRAP (R490). -/
def execTrap (c : Common) (code : BitVec 16) (s : State) : Host.Outcome State Fault Refusal :=
  .next (runFire destsReady (softTrap c code cSWTRAP) s)

/-- BRK (R370). -/
def execBrk (c : Common) (code : BitVec 16) (s : State) : Host.Outcome State Fault Refusal :=
  .next (runFire destsReady (softTrap c code cBRK) s)

/-- EVENT (R383, R384): the operand is emitted once the record has been written. -/
def execEvent (c : Common) (code : BitVec 16) (s : State) : Host.Outcome State Fault Refusal :=
  .next (drainOr (runFire eventGate (fun s f =>
    let t := f.token (f.src c.sa 0) (f.fmtOf c.ty c.sa 0)
    let e := { Event.zero with
      ty := 11, colidx := BitVec.ofNat 16 (colidx s f.colour.toNat), id := code.setWidth 32, frame := f.frame.setWidth 16,
      info := n64 (f.src c.sa 0) 0 }
    if (s.vf f.k.vf).pause then emitResult (raise s f.k.vf e) f t
    else raise s f.k.vf { e with emit := some (f.st.lstake, t), acks := [ackWait f.colour.toNat] })) s)

/-! ## CFGSWAP, MARK, RPLAY and HINT -/

/-- The status of a CFGSWAP (R372). -/
def swapStatus (s : State) (k : Colour) (w : BitVec 32) : Nat :=
  if (weave? s k.vf w).isNone then 1 else if k.swap.isSome then 2 else if k.weave = w then 3 else 0

/-- The number of the registration of a weave of a VF. -/
def weaveReg (s : State) (v : Nat) (w : BitVec 32) : Nat :=
  match weave? s v w with
  | some x => x.reg
  | none => 0

/-- CFGSWAP (R372). -/
def execCfgswap (_c : Common) (weaveId : BitVec 32) (s : State) : Host.Outcome State Fault Refusal :=
  .next (runFire destsReady (fun s f =>
    let r := swapStatus s f.k weaveId
    let s1 := if r = 0 then s.updCol f.colour.toNat (fun k => { k with swap := some (weaveId, weaveReg s f.k.vf weaveId) }) else s
    emitResult s1 f (f.token (BitVec.ofNat 512 r) 0)) s)

/-- MARK (R431): its result comes when the round that it joins is complete. -/
def execMark (_c : Common) (s : State) : Host.Outcome State Fault Refusal :=
  .next (runFire destsReady (fun s f => s.updCol f.colour.toNat (fun k =>
    { k with marks := k.marks ++ [{ lstake := f.st.lstake, frame := f.frame, wave := f.wave }] })) s)

/-- RPLAY (R467). -/
def execRplay (c : Common) (s : State) : Host.Outcome State Fault Refusal :=
  .next (runFire reqRoom (fun s f => sendControl (fun _ => 0) s f c.sa) s)

/-- What a hint passes on (Table 17.1). -/
def hintAct (c : Common) (kind : Nat) (s : State) (f : Fire) : State :=
  match kind with
  | 0 => hintFetch s f (n64 (f.src c.sa 0) 0).toNat
  | 1 => updStake s f.colour f.st.lstake (fun st => { st with near := some ((f.src c.sa 0).setWidth 16) })
  | 2 => updStake s f.colour f.st.lstake (fun st => { st with heat := 1 })
  | _ => updStake s f.colour f.st.lstake (fun st => { st with heat := 2 })

/-- HINT (R414, R415). -/
def execHint (c : Common) (hint : BitVec 8) (s : State) : Host.Outcome State Fault Refusal :=
  .next (runFire destsReady (fun s f =>
    hintAct c hint.toNat (emitResult s f (f.token (f.src c.sa 0) (f.fmtOf c.ty c.sa 0))) f) s)

end Sys2Proof.Machine
end

