-- ==== Sys2Proof/Machine/Events.lean ====
section
/-! DEFINITION. Writing events to the event rings and the MSI-X messages (R288 to R291, R523, R524). -/

namespace Sys2Proof.Machine

/-- The queues of a function. -/
def queuesOf (s : State) (v : Nat) : Queues := if v = pfQ then s.pf.q else (s.vf v).q

/-- Change the queues of a function. -/
def updQueues (s : State) (v : Nat) (f : Queues → Queues) : State :=
  if v = pfQ then s.updPf (fun p => { p with q := f p.q }) else s.updVf v (fun x => { x with q := f x.q })

/-- Entries of a ring: 2^LOG2N of SQBASE or EQBASE. -/
def ringSize (base : W64) : Nat := 2 ^ (base.toNat % 64)

/-- A ring base that has been set: LOG2N lies from 6 to 16 (R284). -/
def ringSet (base : W64) : Bool := 6 ≤ base.toNat % 64 && base.toNat % 64 ≤ 16

/-- Address of slot `k mod 2^LOG2N` of a ring with slots of `n` bytes. -/
def ringSlot (base : W64) (k n : Nat) : Nat := base.toNat / 4096 * 4096 + n * (k % ringSize base)

/-- The event ring has a free slot (R290). -/
def eventRoom (q : Queues) : Bool := ringSet q.eqbase && decide ((q.eqtail - q.eqhead).toNat < ringSize q.eqbase)

/-- PH of event `k` (R288). -/
def eventPhase (q : Queues) : Bool := q.eqtail.toNat / ringSize q.eqbase % 2 = 0

/-- The device's access to a ring slot: a VF's through its page table, the PF's at its physical address, in HBM4 or in the host window (log
entry 19). -/
def ringWrite (s : State) (v va : Nat) (bs : List Byte) : DevRes := if v = pfQ then paWrite s pfUnit va bs else devWrite s v va bs

/-- Read a ring slot. -/
def ringRead (s : State) (v va n : Nat) : DevRes := if v = pfQ then paRead s pfUnit va n else devRead s v va n

/-- One look at the wait of R175 on a colour before an event; a colour that is not bound has nothing to wait for. -/
def ackLook (s : State) (a : AckWait) : State × AckWait :=
  match s.col? a.colour.toNat with
  | none => (s, { a with st := 3 })
  | some k =>
    if a.st = 3 then (s, a)
    else
      let e := if a.st = 0 then k.ep else a.epoch
      let r := syLook k (if a.st = 0 then 1 else a.st) e
      (s.updCol a.colour.toNat (fun k => { k with ep := r.2 }), { a with st := r.1, epoch := e })

/-- One look at every wait before an event (R289, R384). -/
def acksLook (s : State) : List AckWait → State × List AckWait
  | [] => (s, [])
  | a :: rest =>
    let x := ackLook s a
    let y := acksLook x.1 rest
    (y.1, x.2 :: y.2)

/-- An EVENT firing emits once its record has been written (R383). -/
def eventEmit (s : State) (e : Event) : State :=
  match e.emit with
  | none => s
  | some (l, t) =>
    let s1 := updStake s t.colour l (fun st => { st with out := st.out ++ resultOut st.common t })
    match stake? s1 t.colour l with
    | some st => drainOnce s1 t.colour st
    | none => s1

/-- Events of a function whose raisers wait take the places that are free (R290). -/
def admitOf (s : State) (v : Nat) : State := if v = pfQ then admitPf s else admitEvents s v

/-- The oldest event of a function has been written (R288): EQTAIL advances, a message is due, an ended job leaves. -/
def eventDone (s : State) (v : Nat) (e : Event) (rest : List Event) : State :=
  let s1 := updQueues s v (fun q => { q with
    evbuf := rest, eqtail := q.eqtail + 1, evFault := none, msixDue := q.msixDue || q.ien })
  let s2 := if v != pfQ && (e.ty == 1 || e.ty == 2) then s1.updVf v (fun f => { f with jobs := f.jobs.filter (fun j => !(j.id == e.id && j.ended)) })
    else s1
  eventEmit (admitOf s2 v) e

/-- INFL of the task graphs of a job that has ended is cleared (R235). -/
def clearInfl (s : State) (v : Nat) : List Nat → DevRes
  | [] => .ok [] s
  | g :: rest => match devWrite s v (g + 16) [0] with
    | .ok _ s1 => clearInfl s1 v rest
    | r => r

/-- The event that a function writes next cannot be written: the PF is told once, and the write is tried again (R524; an INFL that
cannot be cleared holds its event in the same way, log entry 95). -/
def eventFault (s : State) (v : Nat) (cause reason : BitVec 8) (va : Nat) : State :=
  let s1 := updQueues s v (fun q => { q with evFault := some s.clk })
  if (queuesOf s v).evFault.isSome then s1 else raisePf s1 (areaEvent cause reason va)

/-- The record of an event is written at the tail of the ring, once INFL of its job's graphs has been cleared (R235, R288). -/
def eventWrite (s : State) (v : Nat) (e : Event) (rest : List Event) : State :=
  match clearInfl s v e.clear with
  | .wait s1 => s1
  | .fault c r a s1 => eventFault s1 v c r a
  | .ok _ s1 =>
    let q := queuesOf s1 v
    let va := ringSlot q.eqbase q.eqtail.toNat 32
    match ringWrite s1 v va (e.bytes (eventPhase q)) with
    | .ok _ s2 => eventDone s2 v e rest
    | .fault c r _ s2 => eventFault s2 v c r va
    | .wait s2 => s2

/-- Write the oldest event of a function, when its turn has come; one of another generation is dropped (R293). -/
def eventTry (s : State) (v : Nat) : State :=
  let q := queuesOf s v
  match q.evbuf with
  | [] => s
  | e :: rest =>
    if v != pfQ && e.gen != (s.vf v).gen then admitOf (updQueues s v (fun q => { q with evbuf := rest })) v
    else if (v != pfQ && (s.vf v).tdi == .error) || !eventRoom q then s
    else if !(acksLook s e.acks).2.all (fun a => a.st == 3) then
      let x := acksLook s e.acks
      updQueues x.1 v (fun q => { q with evbuf := { e with acks := x.2 } :: rest })
    else
      eventWrite (acksLook s e.acks).1 v e rest

/-- EVENT_WRITE (R288 to R290). -/
def execEventWrite (vf : W64) (s : State) : Host.Outcome State Fault Refusal :=
  .next (if (queuesOf s vf.toNat).evFault.isSome then s else eventTry s vf.toNat)

/-- EVENT_SLOT_RETRY (R524): the spec bounds the time between two tries, so a try may come at any time. -/
def execEventSlotRetry (vf : W64) (s : State) : Host.Outcome State Fault Refusal :=
  .next (if (queuesOf s vf.toNat).evFault.isSome then eventTry s vf.toNat else s)

/-- MSIX_MESSAGE (R289). -/
def execMsixMessage (vf : W64) (s : State) : Host.Outcome State Fault Refusal :=
  let q := queuesOf s vf.toNat
  let due := match mapGet? q.msixLast q.vec.toNat with
    | some t => decide (t + usClk q.modus.toNat ≤ s.clk)
    | none => true
  .next (if q.msixDue && q.ien && due then
    let s1 := updQueues s vf.toNat (fun q => { q with msixDue := false, msixLast := mapPut q.msixLast q.vec.toNat s.clk })
    { s1 with host := { s1.host with msix := (vf.toNat, q.vec.toNat) :: s1.host.msix } }
  else s)

end Sys2Proof.Machine
end

