-- ==== Sys2Proof/Machine/Tasks.lean ====
section
/-! DEFINITION. Task queues, user queues, join blocks, the job unit and the start of tasks (R49 to R58, R228 to R236, R456 to
R459, R478 to R481, R524). -/

namespace Sys2Proof.Machine

/-! ## Queue descriptors (Tables 10.3, 18.2) -/

/-- Address of the scheduler area of a partition. -/
def Part.schedAddr (p : Part) : Nat := p.schedbase.toNat / 4096 * 4096 % 2 ^ 52

/-- Address of a task-queue descriptor (R230). -/
def taskDescAt (p : Part) (idx prio : Nat) : Nat := p.schedAddr + 256 * idx + 32 * prio

/-- Address of a user-queue descriptor (R456). -/
def userDescAt (p : Part) (idx q : Nat) : Nat := p.schedAddr + 0x100000 + 512 * idx + 32 * q

/-- A queue descriptor as read. -/
structure QDesc where
  /-- Its address. -/
  at_ : Nat
  /-- BASE. -/
  base : Nat
  /-- STAMPS. -/
  stamps : Nat
  /-- LOG2N. -/
  log : Nat
  /-- HEAD. -/
  head : Nat
  /-- TAIL. -/
  tail : Nat
  /-- The reserved bits that both layouts have. -/
  rsvd : Nat
  deriving DecidableEq, Repr

/-- Read a queue descriptor. -/
def readDesc (s : State) (a : Nat) : QDesc :=
  let v := cohNat s a 32
  let f (lo n : Nat) : Nat := (v >>> lo) % 2 ^ n
  { at_ := a, base := f 0 64, stamps := f 64 64, log := f 128 5, head := f 160 32, tail := f 192 32,
    rsvd := f 224 32 + f 133 27 }

/-- LOG2N of a usable task queue (R481). -/
def QDesc.usable (d : QDesc) : Bool := 6 ≤ d.log && d.log ≤ 20

/-- The number of entries in a queue. -/
def QDesc.count (d : QDesc) : Nat := (d.tail + 2 ^ 32 - d.head) % 2 ^ 32

/-- The queue is full. -/
def QDesc.full (d : QDesc) : Bool := d.count = 2 ^ d.log

/-- Address of entry `k`. -/
def QDesc.slot (d : QDesc) (k : Nat) : Nat := d.base + 64 * (k % 2 ^ d.log)

/-- Address of stamp `k`. -/
def QDesc.stampAt (d : QDesc) (k : Nat) : Nat := d.stamps + 8 * (k % 2 ^ d.log)

/-- Write HEAD. -/
def setHead (s : State) (d : QDesc) (n : Nat) : State := physPut s (d.at_ + 20) 4 (n % 2 ^ 32)

/-- Write TAIL. -/
def setTail (s : State) (d : QDesc) (n : Nat) : State := physPut s (d.at_ + 24) 4 (n % 2 ^ 32)

/-- An address of a queue ring that a bind accepts (R231, R456). -/
def ringAddrOk (a : Nat) : Bool := a % 4096 = 0 && a < 2 ^ 52

/-- A bind refuses a task-queue descriptor (R231). -/
def taskDescBad (s : State) (p : Part) (idx prio : Nat) : Bool :=
  let d := readDesc s (taskDescAt p idx prio)
  !d.usable || !ringAddrOk d.base || !ringAddrOk d.stamps || d.rsvd != 0

/-- A bind refuses a user-queue descriptor (R456). -/
def userDescBad (s : State) (p : Part) (idx q : Nat) : Bool :=
  let d := readDesc s (userDescAt p idx q)
  !(d.log = 0 || d.usable) || !ringAddrOk d.base || d.stamps != 0 || d.rsvd != 0

/-- Some queue descriptor of a colour index is refused. -/
def descsBad (s : State) (p : Part) (idx : Nat) : Bool :=
  (List.range 8).any (taskDescBad s p idx) || (List.range 16).any (userDescBad s p idx)

/-! ## Pushing records (R52, R231, R269, R481) -/

/-- PRIO of a record. -/
def recPrio (r : W512) : Nat := fld r 176 3
/-- ENTRY. -/
def recEntry (r : W512) : BitVec 16 := r.extractLsb' 160 16
/-- WEAVEID. -/
def recWeave (r : W512) : BitVec 32 := r.extractLsb' 128 32
/-- JOINADDR. -/
def recJoin (r : W512) : Nat := fld r 64 64
/-- A reserved bit of a record is set (Table 2.5). -/
def recRsvd (r : W512) : Bool := fld r 448 64 != 0 || fld r 181 11 != 0
/-- A record with its JOBID. -/
def recWithJob (r : W512) (id : BitVec 32) : W512 := setFld r 384 32 id.toNat

/-- An access to a queue's descriptor, its entry `k` and its stamp waits for a stack (R341). -/
def QDesc.waits (s : State) (d : QDesc) (k : Nat) : Bool :=
  physWaits s d.at_ 32 || (d.usable && (physWaits s (d.slot k) 64 || (d.stamps != 0 && physWaits s (d.stampAt k) 8)))

/-- How a push ends. -/
inductive PushRes where
  | ok (s : State)
  | full
  | noQueue
  | wait

/-- Push a record to a colour index's queue of its PRIO (R231). -/
def pushRecord (s : State) (part idx : Nat) (r : W512) : PushRes :=
  let d := readDesc s (taskDescAt (s.part part) idx (recPrio r))
  if d.waits s d.tail then .wait
  else if !d.usable then .noQueue
  else if d.full then .full
  else
    let s1 := physWr s (d.slot d.tail) (dataBytes r 64)
    let s2 := physPut s1 (d.stampAt d.tail) 8 s.clk
    .ok (setTail s2 d (d.tail + 1))

/-- Map a target colour into a partition's tag block: its own block, else the newest rebase window that covers it (R269). -/
def targetIdx (p : Part) (c : Nat) : Option Nat :=
  if p.hasColour c then some (p.idx c)
  else match p.windows.find? (fun w => decide (w.old ≤ c) && decide (c < w.old + w.size)) with
    | some w => let m := w.new + (c - w.old); if p.hasColour m then some (p.idx m) else none
    | none => none

/-! ## Join blocks (R53, R479, R480) -/

/-- How a join ends. -/
inductive JoinRes where
  /-- With a status. -/
  | done (status : Nat) (s : State)
  /-- With a fault: cause, reason and address. -/
  | fault (cause reason : BitVec 8) (va : Nat) (s : State)
  /-- It waits. -/
  | wait (s : State)

/-- A job has completed: its event is raised once (R55, R229). -/
def completeJob (s : State) (v : Nat) (id : BitVec 32) : State :=
  if (s.vf v).jobs.any (fun j => j.id == id) then endJob s v id 0
  else if (s.vf v).failed.contains id then s
  else raise s v { Event.zero with ty := 1, id := id }

/-- The join at a translated block, as one atomic operation (R53). -/
def joinAt (s : State) (v part va pa : Nat) (pte : W64) : JoinRes :=
  if hbmWaits s pa then .wait s
  else if !hbmUsable s pa then .fault cUE 0 va (countMiss s pa (vfUnit s v).die)
  else if !rangeFree s pa 128 then .wait s
  else
    let s := recallRange s pa 128
    let raw := homeRd s pa 128
    let s := noteUe s pa 128
    if anyBad raw && !pteTol pte then .fault cUE 0 va s
    else
      let bs := substitute .x false pa raw
      let old := toSigned 64 (leNat (bs.take 8))
      let tgt := leNat ((bs.drop 8).take 2)
      let put (s : State) : State := homeWr s pa (wrAll (natBytes 8 (wrapInt 64 (old - 1)))) (pteTol pte)
      if old ≤ 0 then .done 3 s
      else if old ≠ 1 then .done 0 (put s)
      else if tgt = 0xFFFF then
        if canRaise s v then .done 0 (completeJob (put s) v (BitVec.ofNat 32 (leNat ((bs.drop 64).take 4)))) else .wait s
      else match targetIdx (s.part part) tgt with
        | none => .fault cSTRAY 0 va s
        | some idx => match pushRecord s part idx (bytesData (bs.drop 64)) with
          | .noQueue => .done 2 s
          | .full => .done 1 s
          | .wait => .wait s
          | .ok s1 => .done 0 (put s1)

/-- A TASKJOIN on a join block of a VF: the checks of R479 in order, then the join; a page still NEW becomes SHARED, a PRIVATE
one is reclassified (R157; log entry 21). -/
def taskJoin (s : State) (v part va : Nat) : JoinRes :=
  match walk s v va with
  | .wait => .wait s
  | .fault c r => .fault c r va s
  | .ue at_ => .fault cUE 0 va (countMiss s at_ (vfUnit s v).die)
  | .leaf p size at_ =>
    let pa := leafPa p size va
    match permReason .atomic p with
    | some r => .fault cPERM r va s
    | none =>
      if xpart s part p pa then .fault cPERM rXPART va s
      else if va % 128 ≠ 0 then .fault cALIGN 0 va s
      else if !(effHome p pa == 0 || effHome p pa == 2) then .fault cPERM rJOINHOME va s
      else if pteCls p = 2 then joinAt s v part va pa p
      else if pteCls p = 1 then
        match sharePage s (some part) v va p size at_ with
        | .xpart => .fault cPERM rXPART va s
        | .wait => .wait s
        | .ok s1 => joinAt s1 v part va pa p
      else if !pteFree s at_ then .wait s
      else joinAt (pteWrite s at_ (pteClassify p 2 (pteOwner p))) v part va pa p

/-! ## TASKEND's join (R54) -/

/-- A VF's job fails, when its event can be raised. -/
def failJob (s : State) (v : Nat) (id : BitVec 32) (status : BitVec 8) : Option State :=
  if !jobOpen s v id then some s else if canRaise s v then some (endJob s v id status) else none

/-- The join of a task that has ended: FULL is retried, every other failure fails the job (R54). -/
def endTask (s : State) (c : BitVec 12) (rcd : W512) : State :=
  match s.col? c.toNat with
  | none => s
  | some k =>
    let keep (s : State) : State := s.updCol c.toNat (fun k => { k with join := some (rcd, s.clk) })
    let finish (s : State) : State := s.updCol c.toNat (fun k => { k with join := none })
    let bad (s : State) : State := match failJob s k.vf (recJob rcd) 1 with
      | some s1 => finish s1
      | none => keep s
    if recJoin rcd = 0 then finish s
    else match taskJoin s k.vf k.part (recJoin rcd) with
      | .done 0 s1 => finish s1
      | .done 1 s1 => keep s1
      | .done _ s1 => bad s1
      | .fault _ _ _ s1 => bad s1
      | .wait s1 => keep s1

/-- TASKJOIN_RETRY (R54): a join that found its queue full is tried again after 1,024 clk. -/
def execTaskjoinRetry (colour : W64) (s : State) : Host.Outcome State Fault Refusal :=
  let c : BitVec 12 := colour.setWidth 12
  .next (match (s.col? c.toNat).bind (·.join) with
    | some (rcd, t) => if t + 1024 ≤ s.clk then endTask s c rcd else s
    | none => s)

/-! ## The job unit (R228, R229, R234 to R236) -/

/-- The job unit acts on a VF's descriptors (R283, R287, R292, R293). -/
def jobReady (s : State) (v : Nat) : Bool :=
  let f := s.vf v
  f.runs && (s.part f.part.toNat).en && !f.pause && !f.q.sqerr && ringSet f.q.sqbase &&
    f.q.sqhead != f.q.sqtail && canRaise s v

/-- The descriptor at the head of a VF's submission queue. -/
def headDesc (s : State) (v : Nat) : DevRes :=
  let q := (s.vf v).q
  devRead s v (ringSlot q.sqbase q.sqhead.toNat 64) 64

/-- The submission queue is put in error (R287, R524). -/
def sqError (s : State) (v : Nat) (cause reason : BitVec 8) (va : Nat) : State :=
  raise (updQueues s v (fun q => { q with sqerr := true })) v
    { Event.zero with ty := 8, cause := cause, reason := reason, addr := BitVec.ofNat 64 va }

/-- OP of a job descriptor (Table 10.2). -/
def jdOp (d : W512) : Nat := fld d 192 7
/-- JOBID. -/
def jdJob (d : W512) : BitVec 32 := d.extractLsb' 96 32
/-- COLIDX. -/
def jdCol (d : W512) : Nat := fld d 0 12
/-- The completion join block. -/
def jdDone (d : W512) : Nat := fld d 192 64 / 128 * 128
/-- ROOTADDR. -/
def jdRoot (d : W512) : Nat := fld d 128 64
/-- GRAPH. -/
def jdGraph (d : W512) : Nat := fld d 256 64
/-- NEWVER. -/
def jdVer (d : W512) : Nat := fld d 64 32

/-- A malformed descriptor (R228). -/
def jdBad (s : State) (v : Nat) (d : W512) : Bool :=
  decide (jdOp d = 0 ∨ 3 < jdOp d) || fld d 320 192 != 0 || fld d 12 52 != 0 ||
    decide ((s.part (s.vf v).part.toNat).block ≤ jdCol d)

/-- The head descriptor has been taken. -/
def takeDesc (s : State) (v : Nat) : State :=
  s.updVf v (fun f => { f with q := { f.q with sqhead := f.q.sqhead + 1 }, launchWait := none, fill := none, infl := false })

/-- The job of a descriptor, from the taking of the descriptor on (R284). -/
def addJob (s : State) (v : Nat) (d : W512) (graph : Nat) (ended : Bool) : State :=
  let c := (s.part (s.vf v).part.toNat).tbase + BitVec.ofNat 12 (jdCol d)
  s.updVf v (fun f => { f with
    jobs := f.jobs ++ [{ id := jdJob d, colour := c, done := jdDone d, graph := graph, ended := ended, cols := [] }] })

/-- A descriptor is taken and ends with one event; its job is in flight until the record has been written (R284). INFL of a graph
that the descriptor has set is cleared with the event (R235). -/
def descEvent (s : State) (v : Nat) (d : W512) (ty status : BitVec 8) : State :=
  raise (addJob (takeDesc s v) v d 0 true) v { Event.zero with
    ty := ty, status := status, colidx := BitVec.ofNat 16 (jdCol d), id := jdJob d,
    clear := if (s.vf v).infl then [jdGraph d] else [] }

/-- A job of a descriptor begins. -/
def openJob (s : State) (v : Nat) (d : W512) (graph : Nat) : State :=
  (addJob s v d graph false).updVf v (fun f => { f with failed := f.failed.filter (· != jdJob d) })

/-- Writes at addresses of a VF, one after the other. -/
def devWrites (s : State) (v : Nat) : List (Nat × List Byte) → DevRes
  | [] => .ok [] s
  | (a, bs) :: rest => match devWrite s v a bs with
    | .ok _ s1 => devWrites s1 v rest
    | r => r

/-- The writes to a completion block: counter, target colour and JOBID (R229, R235). -/
def doneWrites (d : W512) (count : Nat) : List (Nat × List Byte) :=
  [(jdDone d, natBytes 8 count), (jdDone d + 8, [0xFF, 0xFF]), (jdDone d + 64, natBytes 4 (jdJob d).toNat)]

/-- Steps 2 to 4 of a LAUNCH. -/
def launchPush (s : State) (v : Nat) (d : W512) : State :=
  match devRead s v (jdRoot d) 64 with
  | .wait s1 => s1
  | .fault _ _ _ s1 => descEvent s1 v d 1 2
  | .ok bs s1 =>
    let r := setFld (recWithJob (bytesData bs) (jdJob d)) 64 64 (jdDone d)
    match pushRecord s1 (s1.vf v).part.toNat (jdCol d) r with
    | .noQueue => descEvent s1 v d 1 2
    | .full => s1.updVf v (fun f => { f with launchWait := some s1.clk })
    | .wait => s1
    | .ok s2 => takeDesc (openJob s2 v d 0) v

/-- A LAUNCH descriptor. -/
def launchDesc (s : State) (v : Nat) (d : W512) : State :=
  match devWrites s v (doneWrites d 1) with
  | .wait s1 => s1
  | .fault _ _ _ s1 => descEvent s1 v d 1 2
  | .ok _ s1 => launchPush s1 v d

/-- Bytes of the task-graph header (Table 10.5). -/
def graphField (h : List Byte) (at_ n : Nat) : Nat := leNat ((h.drop at_).take n)

/-- A REPLAY refuses a graph (R234). -/
def graphBad (h : List Byte) : Bool :=
  let n := graphField h 0 4
  let v := graphField h 4 2
  decide (n = 0 ∨ 65536 < n ∨ v < 2 ∨ 16 < v) || graphField h 17 7 != 0 || graphField h 36 220 != 0

/-- The writes of node `n` of a REPLAY: its record and its counter (R235). -/
def replayNode (s : State) (v : Nat) (d : W512) (ver n : Nat) : DevRes :=
  let a := jdGraph d + 256 + 256 * n
  match devRead s v a 68 with
  | .ok bs s1 =>
    let r := setFld (setFld (recWithJob (bytesData (bs.take 64)) (jdJob d)) 416 32 n) 224 32 ver
    devWrites s1 v [(a + 192, dataBytes r 64), (a + 128, natBytes 8 (leNat ((bs.drop 64).take 4)))]
  | r => r

/-- The writes of every node from `n` on. -/
def replayNodes (s : State) (v : Nat) (d : W512) (ver : Nat) : Nat → Nat → DevRes
  | 0, _ => .ok [] s
  | fuel + 1, n => match replayNode s v d ver n with
    | .ok _ s1 => replayNodes s1 v d ver fuel (n + 1)
    | r => r

/-- Push the records of the nodes with INDEG 0, from node `n` on, until a queue is full. -/
def replayPush (s : State) (v : Nat) (d : W512) : Nat → Nat → State
  | 0, _ => takeDesc s v
  | fuel + 1, n =>
    let a := jdGraph d + 256 + 256 * n
    let stop (s : State) : State := s.updVf v (fun f => { f with fill := some n })
    let bad (s : State) : State := takeDesc (endJob s v (jdJob d) 2) v
    match devRead s v (a + 64) 4 with
    | .wait s1 => stop s1
    | .fault _ _ _ s1 => bad s1
    | .ok bs s1 =>
      if leNat bs ≠ 0 then replayPush s1 v d fuel (n + 1)
      else match devRead s1 v (a + 192) 64 with
        | .wait s2 => stop s2
        | .fault _ _ _ s2 => bad s2
        | .ok rb s2 => match pushRecord s2 (s2.vf v).part.toNat (jdCol d) (bytesData rb) with
          | .noQueue => bad s2
          | .full | .wait => stop s2
          | .ok s3 => replayPush s3 v d fuel (n + 1)

/-- The writes of a REPLAY that has set INFL: where one waits, all are made again; once the last has been made, the pushes begin
(R235). -/
def replayWrites (s : State) (v : Nat) (d : W512) (h : List Byte) : State :=
  let n := graphField h 0 4
  let ver := graphField h 8 4
  let w1 := match devWrite s v (jdGraph d + 12) (natBytes 4 ver) with
    | .ok _ s2 => replayNodes s2 v d ver n 0
    | r => r
  let w2 := match w1 with
    | .ok _ s2 => devWrites s2 v (doneWrites d (graphField h 6 2))
    | r => r
  match w2 with
  | .wait s2 => s2
  | .fault _ _ _ s2 => descEvent s2 v d 1 2
  | .ok _ s2 => replayPush (openJob s2 v d (jdGraph d)) v d n 0

/-- A REPLAY descriptor: a graph in flight makes it wait, and its pushes go on where a full queue stopped them (R226, R235). -/
def replayDesc (s : State) (v : Nat) (d : W512) : State :=
  match devRead s v (jdGraph d) 256 with
  | .wait s1 => s1
  | .fault _ _ _ s1 => descEvent s1 v d 1 2
  | .ok h s1 =>
    let n := graphField h 0 4
    match (s1.vf v).fill with
    | some k => replayPush s1 v d (n - k) k
    | none =>
      if graphBad h then descEvent s1 v d 1 2
      else if graphField h 16 1 = 1 && !(s1.vf v).infl then s1
      else match devWrite s1 v (jdGraph d + 16) [1] with
        | .wait s2 => s2
        | .fault _ _ _ s2 => descEvent s2 v d 1 2
        | .ok _ s2 => replayWrites (s2.updVf v (fun f => { f with infl := true })) v d h

/-- A PATCH descriptor (R236). -/
def patchDesc (s : State) (v : Nat) (d : W512) : State :=
  match devRead s v (jdGraph d) 256 with
  | .wait s1 => s1
  | .fault _ _ _ s1 => descEvent s1 v d 1 2
  | .ok h s1 =>
    let slots := graphField h 4 2
    let ok := jdVer d == (graphField h 8 4 + 1) % 2 ^ 32 &&
      (graphField h 16 1 == 0 || jdVer d % slots != graphField h 12 4 % slots)
    if !ok then descEvent s1 v d 2 6
    else match devWrite s1 v (jdGraph d + 8) (natBytes 4 (jdVer d)) with
      | .wait s2 => s2
      | .fault _ _ _ s2 => descEvent s2 v d 1 2
      | .ok _ s2 => descEvent s2 v d 2 0

/-- The job unit takes the VF's head descriptor when it is of an operation; a malformed one fails whichever step meets it. -/
def jobStep (s : State) (v op : Nat) (run : State → Nat → W512 → State) : State :=
  if !jobReady s v || (s.vf v).launchWait.isSome then s
  else match headDesc s v with
    | .wait s1 => s1
    | .fault c r a s1 => sqError s1 v c r a
    | .ok bs s1 =>
      let d := bytesData bs
      if jdBad s1 v d then descEvent s1 v d 1 2 else if jdOp d = op then run s1 v d else s1

/-- LAUNCH (R229). -/
def execLaunch (vf : W64) (s : State) : Host.Outcome State Fault Refusal := .next (jobStep s vf.toNat 1 launchDesc)

/-- REPLAY (R235). -/
def execReplay (vf : W64) (s : State) : Host.Outcome State Fault Refusal := .next (jobStep s vf.toNat 2 replayDesc)

/-- PATCH (R236). -/
def execPatch (vf : W64) (s : State) : Host.Outcome State Fault Refusal := .next (jobStep s vf.toNat 3 patchDesc)

/-- LAUNCH_PUSH_RETRY (R229): after 1,024 clk. -/
def execLaunchPushRetry (vf : W64) (s : State) : Host.Outcome State Fault Refusal :=
  let v := vf.toNat
  .next (match (s.vf v).launchWait with
    | some t =>
      if t + 1024 ≤ s.clk && jobReady s v then
        match headDesc s v with
        | .ok bs s1 => launchPush s1 v (bytesData bs)
        | .fault _ _ _ s1 => s1
        | .wait s1 => s1
      else s
    | none => s)

/-! ## Taking up tasks (R51, R58) -/

/-- A record at the head of one of a colour's queues. -/
structure HeadRec where
  /-- PRIO of the queue. -/
  prio : Nat
  /-- The queue's descriptor. -/
  desc : QDesc
  /-- The record. -/
  rcd : W512
  /-- Its stamp. -/
  stamp : Nat
  deriving DecidableEq, Repr

/-- The head record of a queue, when the queue is usable and holds one. -/
def headRec (s : State) (p : Part) (idx prio : Nat) : Option HeadRec :=
  let d := readDesc s (taskDescAt p idx prio)
  if d.waits s d.head || !d.usable || d.count = 0 then none
  else some { prio := prio, desc := d, rcd := BitVec.ofNat 512 (cohNat s (d.slot d.head) 64),
              stamp := cohNat s (d.stampAt d.head) 8 }

/-- Effective priority (R58). -/
def HeadRec.eff (h : HeadRec) (clk : Nat) : Nat := min 7 (h.prio + (clk - h.stamp) / 2 ^ 20)

/-- `a` is served before `b` (R58). -/
def HeadRec.before (clk : Nat) (a b : HeadRec) : Bool :=
  decide (b.eff clk < a.eff clk) ||
    (a.eff clk == b.eff clk && (decide (a.stamp < b.stamp) || (a.stamp == b.stamp && decide (b.prio < a.prio))))

/-- The record that an instance takes up next: heads of another weave block their queue (R51, R58); records of a failed job
are taken only to be discarded (R55). -/
def nextRec (s : State) (k : Colour) (idx : Nat) : Option HeadRec :=
  let p := s.part k.part
  let ok (h : HeadRec) : Bool := recWeave h.rcd == k.weave || (s.vf k.vf).failed.contains (recJob h.rcd)
  (((List.range 8).filterMap (headRec s p idx)).filter ok).foldl (fun b h => match b with
    | none => some h
    | some x => if h.before s.clk x then some h else some x) none

/-- Take the record off its queue. -/
def popRec (s : State) (h : HeadRec) : State := setHead s h.desc (h.desc.head + 1)

/-- The record is one that the device pushed for a trap (R255). -/
def isTrapRec (p : Part) (idx : Nat) (h : HeadRec) : Bool :=
  h.prio == 7 && p.trapRecs.contains (idx, BitVec.ofNat 32 h.desc.head)

/-- A VF may start tasks (R232, R259, R283, R290, R292). -/
def vfStarts (s : State) (v : Nat) : Bool :=
  let f := s.vf v
  f.runs && !f.pause && (s.part f.part.toNat).en && canRaise s v &&
    (f.holds || !s.vfs.any (fun x => x.2.holds && x.2.part == f.part))

/-- A VF takes its partition when none holds it (R232). -/
def takePartition (s : State) (v : Nat) : State :=
  if (s.vf v).holds then s
  else (s.updVf v (fun f => { f with holds := true })).updPart (s.vf v).part.toNat (fun p => { p with sliceStart := s.clk })

/-- An instance is idle and may take up a task (R40, R54, R259, R271). -/
def mayStart (s : State) (k : Colour) : Bool :=
  k.isIdle && k.running && k.join.isNone && !k.noStart && k.want.isNone && (s.part k.part).state != .accepted && vfStarts s k.vf &&
    !(s.vf k.vf).gswAgain

/-- Channel of the task-start path into an entry stake. -/
def taskKey (c : BitVec 12) (l : BitVec 16) : ChanKey :=
  { colour := c, kind := .task, lsrc := 0, dfield := 0, ldst := l, port := 0 }

/-- Start a root frame for a record and send its entry token (R33, R35, R51). -/
def startRoot (s : State) (c : BitVec 12) (k : Colour) (h : HeadRec) (handler : Bool) : State :=
  let e := recEntry h.rcd
  let tile := tileOfStake s c e
  match freeFrame k with
  | none => s
  | some n =>
    if !chanRoom s (taskKey c e) || decide (1024 ≤ homedIn s (cluOfTile tile)) then s
    else
      let fr := { newFrame n k.nextSeq 0 (cluOfTile tile) (e.toNat / 128) 0 true handler h.rcd with stamp := h.stamp }
      let s1 := noteJobCol (takePartition (popRec s h) k.vf) k.vf (recJob h.rcd) c.toNat
      let s2 := s1.updCol c.toNat (fun k => { k with
        frames := mapPut k.frames n.toNat fr, nextSeq := k.nextSeq + 1, fired := 0, fireLog := [] })
      chanPush s2 (taskKey c e) { mkToken h.rcd 0 c n 0 tile with lstake := e, port := 0 }

/-- Forget that a record is a trap record. -/
def dropTrapRec (s : State) (part idx : Nat) (h : HeadRec) : State :=
  s.updPart part (fun p => { p with trapRecs := p.trapRecs.filter (· != (idx, BitVec.ofNat 32 h.desc.head)) })

/-- The stake that a record names is an entry of the instance's weave (R51). -/
def entryOk (s : State) (c : BitVec 12) (e : BitVec 16) : Bool :=
  match stake? s c e with
  | some st => st.entry
  | none => false

/-! ## User queues (R456 to R459) -/

/-- The descriptor of a user queue of a colour. -/
def userDesc (s : State) (c : BitVec 12) (q : Nat) : QDesc :=
  match s.col? c.toNat with
  | some k => readDesc s (userDescAt (s.part k.part) (colidx s c.toNat) q)
  | none => readDesc s 0

/-- QSEL of a request. -/
def Request.qsel (r : Request) : Nat := (r.word.extractLsb' 0 4).toNat

/-- The pops that wait on a user queue, in arrival order at the queue home. -/
def waitingPops (s : State) (c : BitVec 12) (q : Nat) : List (Nat × Request) :=
  (s.reqs.filter (fun r => r.2.colour == c && r.2.opcode == 0x13 && r.2.waiting && r.2.qsel == q)).foldl
    (fun l r => (l.takeWhile (fun x => x.2.order < r.2.order)) ++ r :: l.dropWhile (fun x => x.2.order < r.2.order)) []

/-- The results of a QPOP that takes an entry: DATA on D0, status 0 on D1 (R458); a misfit route takes no result (R306). -/
def popOut (s : State) (r : Request) (data : W512) : List Emission :=
  let t (v : W512) : Token := mkToken v 0 r.colour r.frame r.wave (tileOfStake s r.colour r.lstake)
  (if r.common.d0.isResult then [{ d := 0, tok := t data }] else []) ++
    (if r.common.d1.isResult then [{ d := 1, tok := t 0 }] else [])

end Sys2Proof.Machine
end

