-- ==== Sys2Proof/Machine/Traps.lean ====
section
/-! DEFINITION. Stopping, delivering, resuming and ending frames, and taking up tasks (R36, R51, R135 to R138, R209, R246 to
R258, R418, R420). -/

namespace Sys2Proof.Machine

/-! ## Stopping a frame (R135) -/

/-- A stake still has tokens of a frame to send, or an EVENT firing of it whose record has not been written. -/
def firingOpen (s : State) (k : Colour) (c f : BitVec 12) (st : StakeSt) : Bool :=
  st.out.any (fun e => e.tok.frame == f) || (((s.vf k.vf).q.evbuf ++ (s.vf k.vf).q.pend).any (fun e => match e.emit with
    | some (l, t) => l == st.lstake && t.colour == c && t.frame == f
    | none => false))

/-- The stakes of a colour on a tile. -/
def stakesOn (s : State) (c : BitVec 12) (tile : Nat) : List StakeSt :=
  (stakesOf s c).filter (fun st => tileOfStake s c st.lstake == tile)

/-- FRAME_STOP_ACK (R135 step 4). -/
def execFrameStopAck (colour frame tile : W64) (s : State) : Host.Outcome State Fault Refusal :=
  let c : BitVec 12 := colour.setWidth 12
  let f : BitVec 12 := frame.setWidth 12
  let t := tile.toNat
  .next (match s.col? c.toNat, frame? s c f with
    | some k, some x =>
      let busy := (stakesOn s c t).any (firingOpen s k c f) ||
        (reqsOf s c f).any (fun r => r.2.phase == .chan && r.2.ptile == t)
      if x.phase = .stopping && x.awaitTiles.contains t && !busy then
        updFrame s c f (fun y => { y with awaitTiles := setDel y.awaitTiles t, stopped := setIns y.stopped t })
      else s
    | _, _ => s)

/-- The index of the record that caused a trap, from 0. -/
def faultIdx (x : Frame) : Nat :=
  match x.recs.findIdx? (fun r => (r.flags.getLsbD 0 || r.flags.getLsbD 3) && r.cause == x.cause && r.lstake == x.tstake) with
  | some i => i
  | none => (x.recs.findIdx? (fun r => r.flags.getLsbD 0)).getD 0

/-- The code of f.last or f.nxt in a slot header: none is 0x3FF (Table 11.3). -/
def chainCode (x : Option (BitVec 9)) : Nat :=
  match x with
  | some v => v.toNat
  | none => 0x3FF

/-- Bytes 1 to 255 of a slot header (Table 11.3): STATE is written at delivery. -/
def slotHeader (k : Colour) (c : BitVec 12) (x : Frame) (nrec frec : Nat) : List Byte :=
  [x.cause, x.reason, 0] ++ natBytes 2 nrec ++ natBytes 2 frec ++ natBytes 6 (c ++ x.num ++ x.cw : BitVec 48).toNat ++
    natBytes 2 x.tstake.toNat ++ natBytes 8 x.faddr.toNat ++ natBytes 3 x.cw.toNat ++ [0] ++ natBytes 2 (chainCode x.last) ++
    natBytes 2 (chainCode x.nxt) ++ natBytes 8 x.time.toNat ++ natBytes 4 (recJob x.task).toNat ++ natBytes 2 k.vf ++
    natBytes 2 x.home ++ List.replicate 208 0

/-- The last record of a queue that is too long (R253). -/
def fullRecord (x : Frame) : Record :=
  { opa := 0, opb := 0, opc := 0, word := 0, colour := 0, frame := x.num, wave := 0, lstake := x.tstake, port := 0, fmt := 0,
    rkind := 0, flags := 8, cause := cILLOP, chk := 0, faddr := 0, rid := none, was := none }

/-- A fault on a write to the replay area: one AREAFLT event, and the frame waits (R250). -/
def areaFault (s : State) (k : Colour) (c f : BitVec 12) (cause reason : BitVec 8) (va : Nat) : State :=
  match frame? s c f with
  | none => s
  | some x =>
    if x.areaFault then s
    else updFrame (areaFaultEvent s c k.vf cause reason va) c f (fun y => { y with areaFault := true, retry := s.clk })

/-- The frame has stopped everywhere and nothing of it is in flight (R135 step 5); a QPOP that waits at the queue home is not
awaited. -/
def stopComplete (s : State) (c f : BitVec 12) (x : Frame) : Bool :=
  x.phase == .stopping && x.awaitTiles.isEmpty && (reqsOf s c f).all (fun r => r.2.waiting)

/-- Close and write the replay queue of a stopped frame (R251 to R253). -/
def raiseTrap (s : State) (k : Colour) (c f : BitVec 12) (x : Frame) (slot : Nat) : State :=
  let long := decide (2047 < x.recs.length)
  let recs := if long then x.recs.take 2046 ++ [fullRecord x] else x.recs
  let bytes := slotHeader k c x recs.length (1 + faultIdx x) ++ recs.flatMap Record.bytes
  match devWrite s k.vf (slotVa k slot + 1) bytes true with
  | .wait s1 => s1
  | .fault cause reason va s1 => areaFault s1 k c f cause reason va
  | .ok _ s1 =>
    let s2 := updFrame s1 c f (fun y => { y with phase := .raised, areaFault := false, frec := 1 + faultIdx x })
    if long then killFrame s2 c f true 3 else s2

/-- Try to raise the trap of a frame; requests that have come to wait on a bit are withdrawn first. -/
def tryRaise (s : State) (c f : BitVec 12) : State :=
  match s.col? c.toNat, frame? s c f with
  | some k, some x =>
    if x.phase ≠ .stopping then s
    else match x.slot with
    | none => s
    | some n =>
      let s1 := moveHeld s c f
      match frame? s1 c f with
      | some y => if stopComplete s1 c f y then raiseTrap s1 k c f y n else s1
      | none => s1
  | _, _ => s

/-- TRAP_RAISE (R135 step 5, R251 to R253). -/
def execTrapRaise (colour frame : W64) (s : State) : Host.Outcome State Fault Refusal :=
  .next (tryRaise s (colour.setWidth 12) (frame.setWidth 12))

/-! ## Delivery (R254, R255) -/

/-- The handler colour of TRAPVEC. -/
def Colour.hcol (k : Colour) : Nat := k.trapvec.toNat % 2 ^ 12

/-- The trap record (R255). -/
def trapRecord (s : State) (k h : Colour) (c : BitVec 12) (x : Frame) (slot : Nat) : W512 :=
  let arg1 := x.cause.toNat + x.reason.toNat * 2 ^ 8 + colidx s c.toNat * 2 ^ 16 + x.num.toNat * 2 ^ 32
  setFld (setFld (setFld (setFld (setFld 0 256 64 (slotVa k slot)) 320 64 arg1) 128 32 h.weave.toNat) 176 3 7) 384 32
    (recJob x.task).toNat

/-- Logical stake 0 of a colour's weave is an entry, by the registered image, whether or not it lies in a bank (R255). -/
def entryZero (s : State) (c : BitVec 12) (h : Colour) : Bool :=
  match stake? s c 0, (s.vf h.vf).weaves.find? (fun w => w.id == h.weave) with
  | some st, _ => st.entry
  | none, some w => w.stakes.any (fun r => r.lstake == 0 && r.flags.getLsbD 0)
  | none, none => false

/-- The handler path is open to a trap (R254): the handler's colour. -/
def handlerOf (s : State) (k : Colour) (x : Frame) : Option Colour :=
  match s.col? k.hcol with
  | some h =>
    if k.trapvec.getLsbD 15 && x.cause != cBRK && !x.handler && !x.toHost && entryZero s (BitVec.ofNat 12 k.hcol) h then some h
    else none
  | none => none

/-- The host path: STATE is HOST and a TRAP event is posted, once there is room for it (R254). -/
def hostPath (s : State) (k : Colour) (c f : BitVec 12) (x : Frame) (slot : Nat) : State :=
  if !canRaise s k.vf then s
  else match writeState s k slot 1 with
    | .wait s1 => s1
    | .fault cause reason va s1 => areaFault s1 k c f cause reason va
    | .ok _ s1 =>
      let e := { Event.zero with
        ty := 3, colidx := BitVec.ofNat 16 (colidx s c.toNat), id := recJob x.task, frame := x.num.setWidth 16,
        cause := x.cause, reason := x.reason, addr := BitVec.ofNat 64 (slotVa k slot) }
      updFrame (raise s1 k.vf e) c f (fun y => { y with phase := .stopped, areaFault := false })

/-- Deliver a raised trap. -/
def deliver (s : State) (c f : BitVec 12) : State :=
  match s.col? c.toNat, frame? s c f with
  | some k, some x =>
    match x.phase, x.slot with
    | .raised, some n => match handlerOf s k x with
      | none => hostPath s k c f x n
      | some h =>
        let idx := (s.part h.part).idx k.hcol
        match pushRecord s h.part idx (trapRecord s k h c x n) with
        | .ok s1 => match writeState s1 k n 2 with
          | .wait _ => s
          | .fault cause reason va _ => areaFault s k c f cause reason va
          | .ok _ s2 =>
            let tail := (readDesc s (taskDescAt (s.part h.part) idx 7)).tail
            updFrame (s2.updPart h.part (fun p => { p with trapRecs := p.trapRecs ++ [(idx, BitVec.ofNat 32 tail)] })) c f
              (fun y => { y with phase := .stopped, areaFault := false })
        | .wait => s
        | .full | .noQueue => hostPath s k c f x n
    | _, _ => s
  | _, _ => s

/-- TRAP_DELIVERY (R254, R255). -/
def execTrapDelivery (colour frame : W64) (s : State) : Host.Outcome State Fault Refusal :=
  .next (deliver s (colour.setWidth 12) (frame.setWidth 12))

/-- REPLAY_SLOT_RETRY (R250): the device looks again for a free slot; the spec bounds the time between two looks. -/
def execReplaySlotRetry (colour frame : W64) (s : State) : Host.Outcome State Fault Refusal :=
  let c : BitVec 12 := colour.setWidth 12
  let f : BitVec 12 := frame.setWidth 12
  .next (match frame? s c f with
    | some x => if x.phase = .stopping && x.slot.isNone then takeSlot s c f else s
    | none => s)

/-! ## Resuming (R137, R256, R257) -/

/-- A record with what the device reads back of it (R252). -/
def readRecord (r : Record) (bs : List Byte) : Record :=
  let g (at_ n : Nat) : Nat := leNat ((bs.drop at_).take n)
  { r with opa := BitVec.ofNat 512 (g 0 64), opb := BitVec.ofNat 512 (g 64 64), opc := BitVec.ofNat 512 (g 128 64),
           flags := BitVec.ofNat 8 (g 218 1), port := if r.rkind = 0 then BitVec.ofNat 2 (g 216 1) else r.port }

/-- Read the records of a slot back. -/
def readRecords (s : State) (k : Colour) (slot : Nat) (recs : List Record) : DevRes × List Record :=
  let r := devRead s k.vf (slotVa k slot + 256) (256 * recs.length) true
  match r with
  | .ok bs _ => (r, (recs.zip (pieces 256 (recs.length + 1) bs)).map (fun x => readRecord x.1 x.2))
  | _ => (r, recs)

/-- The key of a token that a replay presents: no channel brings it. -/
def replayKey (c : BitVec 12) (l : BitVec 16) (p : BitVec 2) : ChanKey :=
  { colour := c, kind := .task, lsrc := 0xFFFF, dfield := 3, ldst := l, port := p }

/-- Put a replayed token into a FIFO port behind earlier replayed tokens and ahead of every other token of its frame. -/
def putAhead (item : PItem) : List PItem → List PItem
  | [] => [item]
  | i :: rest =>
    if i.tok.frame == item.tok.frame && i.tok.kind == 0 && i.key != item.key then item :: i :: rest
    else i :: putAhead item rest

/-- A tile returns a token to its source tile (R242, R247). -/
def strayAt (s : State) (tile : Nat) (t : Token) : State :=
  let s1 := s.updTile tile (fun x => { x with stray := countUp x.stray 1 })
  { s1 with strays := s1.strays ++ [t] }

/-- Present a replayed token to its stake (R257); none where a MATCH port has no row and the spill queue takes it not, or where a
FIFO port is full and the tile's pool too (R14; log entry 96). A token for an empty slot is returned (R247). -/
def replayToken (s : State) (c : BitVec 12) (k : Colour) (l : BitVec 16) (t : Token) : Option State :=
  match findStake s c l with
  | none => some (strayAt s (tileOfStake s c l) t)
  | some (tile, _, st) =>
    let key := replayKey c l t.port
    if st.isMatch && !isMisfit st t && !(st.latches t.port.toNat && t.fmt == 7) then
      match matchLookup s c k tile st t false with
      | some s1 => some s1
      | none => match spillWrite s c key t tile false with
        | .ok _ s1 => some s1
        | _ => none
    else if st.portReady t.port.toNat || decide ((s.tile tile).poolUsed < 1024) then
      some (settleHead (updStake s c l (fun st =>
        let p := st.port t.port.toNat
        st.setPort t.port.toNat { p with buf := putAhead { key := key, tok := t, misfit := isMisfit st t } p.buf })) c l)
    else none

/-- A stake's destinations take one token each. -/
def resultRoom (s : State) (c : BitVec 12) (l : BitVec 16) (kind : SrcKind) (w : StakeWord) : Bool :=
  (resultDests (Common.ofWord w)).all (fun d => chanRoom s (destKey c kind l d.1 d.2))

/-- Emit a token on a stake's result destinations. -/
def emitOn (s : State) (c : BitVec 12) (l : BitVec 16) (kind : SrcKind) (w : StakeWord) (t : Token) : State :=
  (resultDests (Common.ofWord w)).foldl (fun s d => chanPush s (destKey c kind l d.1 d.2) (t.to d.2)) s

/-- A general entry of a buffer is free (R126). -/
def generalFree (s : State) (home : Nat) : Bool :=
  decide ((s.reqs.filter (fun r => r.2.home == home && r.2.holdsEntry && !r.2.resv)).length < 480)

/-- A request of a wave or a place in it that a frame's chain has passed (R128). -/
def behind (x : Frame) (wave : BitVec 24) (own : BitVec 9) : Bool :=
  let d := (wave - x.cw).toNat
  decide (2 ^ 23 ≤ d) || (d == 0 && match x.last with
    | some l => decide (own.toNat ≤ l.toNat)
    | none => false)

/-- The request of a replay record at its frame's home buffer; it keeps its number, by which tickets name it (R187). One that had
issued, or whose result is supplied for a place that the chain has passed, takes no place in the chain again (R137). -/
def requestOf (s : State) (k : Colour) (c : BitVec 12) (x : Frame) (r : Record) : Request :=
  let tile := tileOfStake s c r.lstake
  let w := wordOf s c r.lstake
  let m := MemX.ofBits (w.extractLsb' 0 35)
  let ctl := r.rkind = 4
  let tm := if [0x90, 0x91].contains (w.extractLsb' 120 8).toNat then
      mapGet k.tms (4 * (Common.ofWord w).mdHi + (TmemX.ofBits (w.extractLsb' 0 35)).tmLow.toNat) 0 else 0
  let q : Request :=
    { word := w, lstake := r.lstake, colour := c, frame := x.num, wave := r.wave, pred := if ctl then 0 else m.pred,
      own := if ctl then 0 else m.own, succ := if ctl then 0 else m.succ, ctl := ctl, opa := r.opa, opb := r.opb, opc := r.opc,
      fa := r.fmt, tm := tm, ptile := tile, home := x.home, cause := 0, reason := 0, faddr := 0, pages := [], phase := .held,
      order := 0, done := 0, data := if r.flags.getLsbD 2 then r.opc else 0, supply := r.flags.getLsbD 2, sy := 0, epoch := false,
      tags := [], out := [], waiting := false, resv := false, acc := 0, lineRd := false, snap := [], ring := none, acks := [],
      again := r.again || (r.flags.getLsbD 2 && behind x r.wave m.own) }
  if ctl || q.supply then q else prepReq s k tile q

/-- Put a request that a buffer accepts into the pool under a number. -/
def holdReq (s : State) (id : Nat) (r : Request) : State :=
  { s with reqs := mapPut s.reqs id { r with phase := .held, order := s.nextReq, acc := s.nextReq }, nextReq := s.nextReq + 1 }

/-- A matrix record enters its tile's queue again (R257). -/
def replayCmd (s : State) (k : Colour) (c : BitVec 12) (r : Record) : Option State :=
  match findStake s c r.lstake with
  | none => some s
  | some (tile, _, st) =>
    if 32 ≤ (s.tile tile).cmds.length then none else
    let f : Fire := { tile := tile, st := st, k := k, ops := OpSet.empty, colour := c, frame := r.frame, wave := r.wave }
    let m := mkCmd f r.opa r.opb r.fmt (MatX.ofBits (st.word.extractLsb' 0 35)).bty.fmt (latchHdr st 0 c r.frame)
      (latchHdr st 1 c r.frame)
    let s1 := if m.opc = 0x98 || m.opc = 0x9C then queueOwner s tile m.bank (some (c, r.frame)) (some m.common.ty.isInt)
      else if m.opc = 0x9B && desc1 m.opa 47 1 = 1 then queueOwner s tile m.bank none none else s
    some (acceptCmd s1 f m)

/-- What taking one record does. -/
inductive TakeRes where
  /-- Taken. -/
  | ok (s : State)
  /-- It waits, with the records behind it. -/
  | wait
  /-- It traps again with a cause. -/
  | again (cause : BitVec 8)

/-- Take one record of a resuming frame (R252, R257): SUPPLY puts OPC in place of a token, a passed operand or a result. -/
def takeRecord (s : State) (k : Colour) (c : BitVec 12) (x : Frame) (r : Record) : TakeRes :=
  let supply := r.flags.getLsbD 2
  let fresh (data : W512) : Token := { mkToken data r.fmt c x.num r.wave (tileOfStake s c r.lstake) with lstake := r.lstake, port := r.port }
  let opt (o : Option State) : TakeRes := match o with
    | some s1 => .ok s1
    | none => .wait
  if r.flags.getLsbD 3 then .ok s
  else if r.flags.getLsbD 1 && !supply then .again cUE
  else if r.rkind = 0 then opt (replayToken s c k r.lstake (fresh (if supply then r.opc else r.opa)))
  else if r.rkind = 2 then
    let data := if supply then r.opc else r.opa
    if resultRoom s c r.lstake .stake (wordOf s c r.lstake) then .ok (emitOn s c r.lstake .stake (wordOf s c r.lstake) (fresh data))
    else .wait
  else if r.rkind = 3 then opt (replayCmd s k c r)
  else if !generalFree s x.home then .wait
  else if r.rkind = 1 && !supply && !r.again && behind x r.wave (BitVec.ofNat 9 r.own) then .again cILLOP
  else
    let id := r.rid.getD s.nextReq
    let id := if (s.req? id).isSome then s.nextReq else id
    .ok (holdReq s id (requestOf s k c x r))

/-- Take records in order while they can be taken; the fuel is their number. -/
def takeRecords : Nat → State → BitVec 12 → BitVec 12 → State
  | 0, s, _, _ => s
  | n + 1, s, c, f =>
    match s.col? c.toNat, frame? s c f with
    | some k, some x =>
      match x.recs with
      | [] => s
      | r :: rest =>
        match takeRecord s k c x r with
        | .wait => s
        | .ok s1 => takeRecords n (updFrame s1 c f (fun y => { y with recs := rest })) c f
        | .again cause =>
          let s1 := match x.slot with
            | some sl => postState s c sl 0
            | none => s
          haltFrame (updFrame s1 c f (fun y => { y with recs := rest })) c f cause 0 0 r.lstake
            [{ r with flags := r.flags ||| 1, cause := cause }]
    | _, _ => s

/-- Take what a resuming frame still has in its replay queue; after the last record its slot is FREE and it runs again. -/
def resumeMore (s : State) (c f : BitVec 12) : State :=
  match s.col? c.toNat, frame? s c f with
  | some k, some x =>
    if x.phase ≠ .resuming then s
    else
      let s1 := takeRecords x.recs.length s c f
      match frame? s1 c f with
      | some y =>
        if y.phase ≠ .resuming || !y.recs.isEmpty then s1
        else
          let live (s : State) : State := updFrame s c f (fun z => { z with
            phase := if z.ended then .ending else .live, slot := none, stopped := [], areaFault := false })
          match y.slot with
          | none => live s1
          | some n => match writeState s1 k n 0 with
            | .ok _ s2 => live s2
            | .fault cause reason va s2 => areaFault s2 k c f cause reason va
            | .wait s2 => s2
      | none => s1
  | _, _ => s

/-- A frame to which RESUME has been applied: STATE becomes RESUMING and its records are read back, and then they are taken. What
faults or waits is tried again (R250, R257). -/
def restart (s : State) (c f : BitVec 12) : State :=
  match s.col? c.toNat, frame? s c f with
  | some k, some x => match x.phase, x.slot with
    | .restarting, some n => match writeState s k n 3 with
      | .wait s1 => s1
      | .fault cause reason va s1 => areaFault s1 k c f cause reason va
      | .ok _ s1 => match readRecords s1 k n x.recs with
        | (.ok _ s2, recs) =>
          resumeMore (updFrame s2 c f (fun y => { y with phase := .resuming, recs := recs, areaFault := false })) c f
        | (.fault cause reason va s2, _) => areaFault s2 k c f cause reason va
        | (.wait s2, _) => s2
    | _, _ => s
  | _, _ => s

/-- What an action on a slot answers. -/
inductive ActRes where
  | done (s : State)
  | refused
  | wait (s : State)

/-- The frame that a slot of a colour holds, stopped: delivered, or on its way from the handler path to the host path (R254). -/
def frameInSlot (k : Colour) (n : Nat) : Option Frame :=
  (mapVals k.frames).find? (fun f => f.slot == some n && (f.phase == .stopped || (f.phase == .raised && f.toHost)))

/-- Apply RESUME (1) or KILL (2) to a slot of a bound colour (R256 to R258). -/
def actSlot (s : State) (c : BitVec 12) (slot act : Nat) : ActRes :=
  match s.col? c.toNat with
  | none => .refused
  | some k =>
    if (act ≠ 1 ∧ act ≠ 2) ∨ k.slots ≤ slot then .refused
    else match frameInSlot k slot, devRead s k.vf (slotVa k slot) 1 true with
      | none, _ => .refused
      | _, .wait s1 => .wait s1
      | _, .fault _ _ _ _ => .refused
      | some x, .ok bs s1 =>
        if bs ≠ [1] ∧ bs ≠ [2] then .refused
        else if act = 2 then .done (killFrame s1 c x.num true 3)
        else .done (restart (updFrame s1 c x.num (fun y => { y with phase := .restarting, areaFault := false })) c x.num)

/-- A write of TRAPRES (R256, Table 11.5). -/
def trapresWrite (s : State) (v : Nat) (w : W64) : State :=
  let p := s.part (s.vf v).part.toNat
  let idx := (w.extractLsb' 20 12).toNat
  let c : BitVec 12 := BitVec.ofNat 12 (p.tbase.toNat + idx)
  let own := decide (idx < p.block) && (match s.col? c.toNat with
    | some k => k.vf == v
    | none => false)
  let bad (s : State) : State := raise s v { Event.zero with ty := 7, status := 5, colidx := BitVec.ofNat 16 idx }
  if !own then bad s
  else match actSlot s c (w.extractLsb' 8 6).toNat (w.extractLsb' 0 2).toNat with
    | .done s1 => s1
    | .refused => bad s
    | .wait s1 => s1

/-- REPLAY_AREA_WRITE_RETRY (R250): the writes to the colour's replay area that faulted or wait are tried again, those of STATE first
and then that of the frame. -/
def execReplayAreaWriteRetry (colour frame : W64) (s : State) : Host.Outcome State Fault Refusal :=
  let c : BitVec 12 := colour.setWidth 12
  let f : BitVec 12 := frame.setWidth 12
  let s1 := match s.col? c.toNat with
    | some k => retryStates s c k.slotWrites
    | none => s
  .next (match frame? s1 c f with
    | some x => match x.phase with
      | .stopping => tryRaise s1 c f
      | .raised => deliver s1 c f
      | .restarting => restart s1 c f
      | .resuming => resumeMore s1 c f
      | _ => s1
    | none => s1)

/-- TRAPRES_RESUME (R256, R257). -/
def execTrapresResume (vf v : W64) (s : State) : Host.Outcome State Fault Refusal :=
  .next (barReq s (barNum vf) vf (fun s => trapresWrite s (barNum vf) v))

/-- TRAPRES_KILL (R256, R258). -/
def execTrapresKill (vf v : W64) (s : State) : Host.Outcome State Fault Refusal :=
  .next (barReq s (barNum vf) vf (fun s => trapresWrite s (barNum vf) v))

/-- The slot that a virtual address names among a colour's slots (R467). -/
def slotOfVa (k : Colour) (va : Nat) : Option Nat := (List.range k.slots).find? (fun n => slotVa k n == va)

/-- An RPLAY at the queue home (R467): the answer of its action. -/
def rplayAct (s : State) (r : Request) : ActRes :=
  match s.col? r.colour.toNat with
  | none => .refused
  | some me =>
    let p := s.part me.part
    let l1 := (n64 r.opa 1).toNat
    let idx := l1 % 2 ^ 12
    let c : BitVec 12 := BitVec.ofNat 12 (p.tbase.toNat + idx)
    if l1 / 2 ^ 18 ≠ 0 ∨ l1 / 2 ^ 12 % 2 ^ 4 ≠ 0 ∨ p.block ≤ idx then .refused
    else match s.col? c.toNat with
      | none => .refused
      | some k => match slotOfVa k (n64 r.opa 0).toNat with
        | none => .refused
        | some n => actSlot s c n (l1 / 2 ^ 16 % 4)

/-! ## The end of a frame (R36, R138, R209) -/

/-- A stake holds a complete operand set of a frame (R36): FRAMEEND, TASKEND and BAR do not count. -/
def holdsSet (st : StakeSt) (f : BitVec 12) : Bool :=
  let mine (o : OpSet) : Bool := match o.toks.head? with
    | some t => t.frame == f
    | none => false
  !endsFrame st.opc &&
    (if st.isMatch then st.ready.any mine
     else if st.opc = 5 then [st.pa, st.pb].any (fun p => match p.head with
       | some i => i.tok.frame == f
       | none => false)
     else
       let heads := (usedPorts st).map (fun p => (st.port p).head)
       !heads.isEmpty && heads.all Option.isSome && (match heads.head? with
         | some (some i) => i.tok.frame == f
         | _ => false))

/-- A router stage holds a token of a frame; what lies in the spill queue is looked at there. -/
def inNet (s : State) (c f : BitVec 12) : Bool :=
  (netOf s c).any (fun x => x.items.any (fun i => match i with
    | .tok t => t.frame == f && t.kind == 0
    | .beyond _ => true))

/-- A frame has quiesced (R36 step 1, R138, R209). -/
def quiesced (s : State) (k : Colour) (c f : BitVec 12) (x : Frame) : Bool :=
  x.phase == .ending && !inNet s c f && (reqsOf s c f).isEmpty && x.last.isNone &&
    !k.qfences.any (fun q => q.2.frame == f) && k.out.all (fun e => e.2.all (fun x => x.tok.frame != f)) &&
    (stakesOf s c).all (fun st => !holdsSet st f && !firingOpen s k c f st) &&
    k.tileList.all (fun t => !(s.tile t).cmds.any (fun m => m.colour == c && m.frame == f))

/-- FRAME_QUIESCED (R36 steps 1 to 3). -/
def execFrameQuiesced (colour frame : W64) (s : State) : Host.Outcome State Fault Refusal :=
  let c : BitVec 12 := colour.setWidth 12
  let f : BitVec 12 := frame.setWidth 12
  .next (match s.col? c.toNat, frame? s c f with
    | some k, some x =>
      if quiesced s k c f x && decide (k.retiring.length < 16) then
        updFrame (freeBanks (leaveBarriers s c f false) c f) c f (fun y => { y with phase := .purging, awaitTiles := k.tileList })
      else s
    | _, _ => s)

/-- Discard the spilled tokens of a frame (R36; log entry 22). -/
def purgeSpilled (s : State) (c f : BitVec 12) : State :=
  match s.col? c.toNat with
  | none => s
  | some k => k.spilled.foldl (fun s e =>
    match devRead s k.vf e.va 128 true with
    | .ok bs s1 =>
      if (spillToken bs 0).frame == f && !e.beyond then
        countPurged (s1.updCol c.toNat (fun k => { k with spilled := k.spilled.filter (fun x => x.seq != e.seq) })) c 1
      else s1
    | _ => s) s

/-- A purge sweep ends: the tokens go, the number becomes free, a killed frame that waits for the place in the retiring set takes
it, and a task that has ended joins (R36 steps 4 and 5, R37, R54). -/
def endPurge (s : State) (c f : BitVec 12) (x : Frame) : State :=
  let s1 := purgeSpilled (purgeFrame s c f) c f
  let s2 := s1.updCol c.toNat (fun k => { k with
    frames := mapDel k.frames f.toNat, out := k.out.filter (fun e => e.2.all (fun x => x.tok.frame != f)),
    marks := k.marks.filter (fun w => w.frame != f) })
  let s3 := (admitKilled s2 c).updClu x.home (fun z => { z with tickets := z.tickets.filter (fun t => !(t.colour == c && t.frame == f)) })
  if x.root && x.tend then endTask s3 c x.task else s3

/-- A read of the colour's spilled tokens that waits, with the state that it leaves: a purge sweep waits for it (R36). -/
def spillsWait (s : State) (k : Colour) : Option State :=
  k.spilled.findSome? (fun e => match devRead s k.vf e.va 128 true with
    | .wait s1 => some s1
    | _ => none)

/-- PURGE_SWEEP_DONE (R36 steps 4 and 5): every tile has acknowledged, nothing of the frame is under way, and the spilled tokens can be
looked at. -/
def execPurgeSweepDone (colour frame : W64) (s : State) : Host.Outcome State Fault Refusal :=
  let c : BitVec 12 := colour.setWidth 12
  let f : BitVec 12 := frame.setWidth 12
  .next (match s.col? c.toNat, frame? s c f with
    | some k, some x =>
      let busy := (reqsOf s c f).any (fun r => r.2.phase != .chan && !waitsOnBit s r.2) ||
        k.tileList.any (fun t => (s.tile t).cmds.any (fun m => m.colour == c && m.frame == f))
      if x.phase ≠ .purging || busy then s
      else match spillsWait s k with
      | some s1 => s1
      | none =>
        let chan := ((reqsOf s c f).filter (fun r => r.2.phase == .chan)).length
        let s1 := (reqsOf s c f).foldl (fun s r => leaveRing (dropAcks (s.delReq r.1) r.2) r.2) s
        endPurge (countPurged s1 c chan) c f x
    | _, _ => s)

/-! ## KGATE decrements (R418, R420) -/

/-- Put back the count of a KGATE, or stop the frame of the KDONE where it is 0. -/
def landDec (s : State) (c : BitVec 12) (d : KDec) : State :=
  match stake? s c d.gate with
  | none => s
  | some st =>
    if st.kn ≠ 0 then updStake s c d.gate (fun st => { st with kn := st.kn - 1 })
    else
      let r := { tokenRecord (wordOf s c d.lstake) d.tok d.lstake cILLOP false with rkind := 2, flags := 8 }
      haltFrame s c d.tok.frame cILLOP 0 0 d.lstake [r]

/-- KGATE_DECREMENT (R418, R420). -/
def execKgateDecrement (colour gate : W64) (s : State) : Host.Outcome State Fault Refusal :=
  let c : BitVec 12 := colour.setWidth 12
  .next (match takeFirst (fun d => d.tok.colour == c && d.gate == (gate.setWidth 16 : BitVec 16)) s.kdecs with
    | some (d, rest) => landDec { s with kdecs := rest } c d
    | none => s)

/-! ## Taking up a task (R51) -/

/-- The frame and colour whose trap record this is, by the slot address and the colour index that it carries. -/
def trapOf (s : State) (part : Nat) (r : W512) : Option (BitVec 12 × Colour × Frame × Nat) :=
  let c : BitVec 12 := BitVec.ofNat 12 ((s.part part).tbase.toNat + fld r 336 12)
  match s.col? c.toNat with
  | none => none
  | some k => match slotOfVa k (fld r 256 64) with
    | none => none
    | some n => (frameInSlot k n).map (fun x => (c, k, x, n))

/-- Discard a record that fails its checks: its job fails with TASKBAD, and a trap goes to the host path (R51, R254). -/
def discardRec (s : State) (k : Colour) (idx : Nat) (h : HeadRec) : State :=
  if isTrapRec (s.part k.part) idx h then
    let s1 := dropTrapRec (popRec s h) k.part idx h
    match trapOf s k.part h.rcd with
    | some (c, _, x, _) => deliver (updFrame s1 c x.num (fun y => { y with phase := .raised, toHost := true })) c x.num
    | none => s1
  else match failJob (popRec s h) k.vf (recJob h.rcd) 1 with
    | some s1 => s1
    | none => s

/-- TASK_TAKEUP (R40, R51, R55, R58). -/
def execTaskTakeup (colour : W64) (s : State) : Host.Outcome State Fault Refusal :=
  let c : BitVec 12 := colour.setWidth 12
  .next (match s.col? c.toNat with
    | none => s
    | some k =>
      let idx := colidx s k.lead.toNat
      if !mayStart s k then s
      else match nextRec s k idx with
        | none => s
        | some h =>
          if (s.vf k.vf).failed.contains (recJob h.rcd) && recJob h.rcd != 0 && !isTrapRec (s.part k.part) idx h then popRec s h
          else if recWeave h.rcd != k.weave then s
          else if recRsvd h.rcd || !entryOk s c (recEntry h.rcd) then discardRec s k idx h
          else
            let handler := isTrapRec (s.part k.part) idx h
            let s1 := startRoot s c k h handler
            if s1.nextReq = s.nextReq ∧ (s1.col? c.toNat).map (·.frames.length) = some k.frames.length then s1
            else dropTrapRec s1 k.part idx h)

end Sys2Proof.Machine
end

