-- ==== Sys2Proof/Machine/Requests.lean ====
section
/-! DEFINITION. What the requests of a frame touch, what holds them up, and how they end (R119, R131 to R136, R168, R173,
R174). -/

namespace Sys2Proof.Machine

/-! ## What holds a request up -/

/-- The wave-earlier accesses of its frame that have issued and not performed; a FENCE is no access (R174). -/
def earlierOpen (s : State) (r : Request) : List Request :=
  ((reqsOf s r.colour r.frame).map Prod.snd).filter (fun x =>
    !x.ctl && x.phase == .issued && decide (x.order < r.order) && x.opcode != 0x78)

/-- The wave-earlier accesses of its frame that have not performed: issued, or taken back into the replay queue of a stopped frame. -/
def earlierUndone (s : State) (r : Request) : List Request :=
  earlierOpen s r ++ (match frame? s r.colour r.frame with
    | some x => passedOver x r
    | none => [])

/-- An issued access may perform (R131, R174, R175): a release waits for every wave-earlier access, and at SY scope for the
acknowledgements; any other waits for those that touch its bytes, those in the replay queue among them (log entry 98). -/
def accessGate (s : State) (r : Request) : Bool :=
  let e := earlierUndone s r
  if r.isRelease then e.isEmpty && (r.common.scp != 2 || r.sy == 3) else e.all (fun x => !x.overlaps r)

/-! ## How a request ends -/

/-- A request halts its frame: it joins the replay queue with its fault (R134 to R136). -/
def haltReq (s : State) (id : Nat) (r : Request) (cause reason : BitVec 8) (faddr : Nat) : State :=
  let x := { advanceDesc r with cause := cause, reason := reason, faddr := BitVec.ofNat 64 faddr, acks := [] }
  haltFrame (dropAcks (s.delReq id) r) r.colour r.frame cause reason (BitVec.ofNat 64 faddr) r.lstake [requestRecord id x true]

/-- The lanes of a request's result (R119, R195, R422, R427, R463, R471, R477, R483). -/
def resultFmt (r : Request) : BitVec 3 :=
  match r.opcode with
  | 0x70 | 0x74 | 0x7A | 0x7B | 0x7C => r.common.ty.fmt
  | 0x90 => (tmEty r.tm).fmt
  | 0x76 | 0x77 | 0x82 => r.fa
  | _ => 0

/-- The request performs with a result for every result destination. -/
def performReq (s : State) (id : Nat) (r : Request) (data : W512) : State :=
  finishReq s id { r with phase := .performed } (reqOut s r data (resultFmt r))

/-- The message of a request's tag has come back. -/
def Request.untag (r : Request) (t : Nat) : Request := { r with tags := r.tags.erase t }

/-! ## Access to a place on the package (R146 to R149, R153, R162 to R164, Table 7.1) -/

/-- What an access to bytes on the package meets. -/
inductive PackRes where
  /-- The bytes read, with their errors; none for a write. -/
  | ok (bs : List RdByte) (s : State)
  /-- It waits: for a line, a lock, a memory controller. -/
  | wait
  /-- No range covers it, or its stack has failed: UE (R162, R341). -/
  | ue (s : State)

/-- A PRIVATE line of a cluster, fetched when it is absent (R153); `va` is its virtual address. -/
def privLine (s : State) (vf c va line : Nat) (pte : W64) : State :=
  if (l1Find s c line).isSome then s
  else grantLine s c line .e true (if pteHome pte = 2 then some (vf, va / 128 * 128) else none)

/-- A HOME 2 line that no pinned way can hold is counted (R149). -/
def countPin (s : State) (p line : Nat) : State :=
  s.updPart p (fun x => { x with
    pinovf := mapPut x.pinovf (lineDie s line) (countUp (mapGet x.pinovf (lineDie s line) 0) 1) })

/-- Read bytes of one line for a cluster; `va` is the address that the access names. -/
def packRead (s : State) (k : Colour) (c va pa n : Nat) (pte : W64) : PackRes :=
  if isScratch pa then
    match anchorOf k (pa / 2 ^ 19 % 512) with
    | some a => .ok (scrRd (s.tile a) (pa % 2 ^ 19) n) s
    | none => .wait
  else if hbmWaits s pa then .wait
  else if !hbmUsable s pa then .ue (countMiss s pa (dieOfClu c))
  else if effHome pte pa = 3 then (if rangeFree s pa n then .ok (homeRd s pa n) (noteUe s pa n) else .wait)
  else
    let line := pa / 128
    match l1Find s c line with
    | some l => .ok (lineRd l.data l.bad (pa % 128) n) s
    | none =>
      if locked s line then .wait
      else if pteHome pte = 2 && pinFull s c line then
        (if lineFree s line then .ok (cohRd s pa n) (countPin (noteUe s pa n) k.part line) else .wait)
      else if pteHome pte = 2 && !pinReady s c line then .wait
      else if pteCls pte = 1 then
        let s1 := privLine s k.vf c va line pte
        match l1Find s1 c line with
        | some l => .ok (lineRd l.data l.bad (pa % 128) n) s1
        | none => .wait
      else .wait

/-- Store into a line of an L1D, which moves to M (R150). -/
def l1Store (s : State) (c pa : Nat) (l : L1Line) (w : List WrByte) (tol : Bool) : State :=
  let r := lineWr l.data l.bad (pa % 128) w tol
  l1Upd (countPartial s l.line l.bad (pa % 128) w tol) c l.line (fun x => { x with data := r.1, bad := r.2, st := .m })

/-- Write bytes of one line for a cluster; `va` is the address that the access names. -/
def packWrite (s : State) (k : Colour) (c va pa : Nat) (w : List WrByte) (pte : W64) : PackRes :=
  if isScratch pa then
    match anchorOf k (pa / 2 ^ 19 % 512) with
    | some _ => .ok [] (scrWr s k (pa / 2 ^ 19 % 512) (pa % 2 ^ 19) w (pteTol pte))
    | none => .wait
  else if hbmWaits s pa then .wait
  else if !hbmUsable s pa then .ue (countMiss s pa (dieOfClu c))
  else if effHome pte pa = 3 then (if rangeFree s pa w.length then .ok [] (homeWr s pa w (pteTol pte)) else .wait)
  else
    let line := pa / 128
    match l1Find s c line with
    | some l => if l.st = .s || locked s line then .wait else .ok [] (l1Store s c pa l w (pteTol pte))
    | none =>
      if locked s line then .wait
      else if pteHome pte = 2 && pinFull s c line then
        (if lineFree s line then .ok [] (countPin (homeWr (recallLine s line) pa w (pteTol pte)) k.part line) else .wait)
      else if pteHome pte = 2 && !pinReady s c line then .wait
      else if pteCls pte = 1 then
        let s1 := privLine s k.vf c va line pte
        match l1Find s1 c line with
        | some l => .ok [] (l1Store s1 c pa l w (pteTol pte))
        | none => .wait
      else .wait

/-- The bytes that an access delivers: none where an error on a page without TOL stops it; a substitution is counted (R136,
R163). -/
def deliverBytes (s : State) (k : Colour) (ty : Ty) (pte : W64) (pa : Nat) (bs : List RdByte) : Option (List Byte × State) :=
  if !anyBad bs then some (bs.map Prod.fst, s)
  else if pteTol pte then some (substitute ty (pteSubn pte) pa bs, countTol s k.part)
  else none

/-- What sending a message to the host or a peer meets. -/
inductive SendRes where
  /-- Sent, with its tag. -/
  | sent (tag : Nat) (s : State)
  /-- It waits for a translation or for room. -/
  | wait (s : State)
  /-- The host's page request has failed (R279). -/
  | failed (s : State)

/-- Send a message for a request or a copy: a host address is translated first, a host write needs a place in the store, and a write
carries the epoch in which its issue counted it; one that found no room then is counted now (R175, R176, R279). -/
def sendRemote (s : State) (c : BitVec 12) (who : Waiting) (kind : MsgKind) (pa : Nat) (data : W512) (acks : List Bool) (poison : Bool := false) :
    SendRes :=
  let go (s : State) (pa : Nat) (page : Option Nat) : SendRes :=
    let send (s : State) (e : Option Bool) : SendRes :=
      let x := sendOut s c.toNat who kind pa data page e poison
      .sent x.2 x.1
    if !tagRoom s pa || (kind.writes && isHost pa && !storeRoom s) then .wait s
    else if !kind.writes then send s none
    else match acks with
      | e :: _ => send s (some e)
      | [] => if !ackRoom s c.toNat then .wait s else let u := ackUp s c.toNat; send u.1 u.2
  if isHost pa then
    match atsGet s (hostPage pa) kind.writes with
    | .ok x => go s (hostAt x pa) (some (hostPage pa))
    | .failed s1 => .failed s1
    | .wait s1 => .wait s1
  else go s pa none

end Sys2Proof.Machine
end

