-- ==== Sys2Proof/Machine/Buffer.lean ====
section
/-! DEFINITION. The wave store buffer: arrival, linking, fences and control requests (R126 to R140, R174 to R182, R196, R450 to
R459, R467, R480, R481). -/

namespace Sys2Proof.Machine

/-! ## Arrival (R126, R128, R135, R137, R138) -/

/-- R128's linkable: the request continues the open chain of its frame. -/
def linkable (x : Frame) (r : Request) : Bool :=
  !r.ctl && r.wave == x.cw && match x.last with
    | none => r.pred == seqNone
    | some l => r.pred == l || x.nxt == some r.own

/-- The reserved entries of a buffer that are taken (R126). -/
def reservedUse (s : State) (home : Nat) : Nat :=
  (s.reqs.filter (fun r => r.2.home == home && r.2.holdsEntry && r.2.resv)).length

/-- The translations that a request carries are there (R134): PREF is dropped rather than translated, and the rest that name
none carry none. -/
def Request.translated (r : Request) : Bool := r.opcode == 0x77 || r.cause != 0 || pagesDone r.pages

/-- Requests that a buffer has taken from its cluster port in this clk (R126). -/
def portTaken (s : State) (home : Nat) : Nat := if (s.clu home).portClk = s.clk then (s.clu home).portUse else 0

/-- A buffer takes a request from its cluster port. -/
def usePort (s : State) (home : Nat) : State :=
  s.updClu home (fun c => { c with portClk := s.clk, portUse := portTaken s home + 1 })

/-- A request is accepted into its buffer (R126): `resv` says into which entries. -/
def acceptReq (s : State) (id : Nat) (resv : Bool) : State :=
  { (s.updReq id (fun r => { r with phase := .held, resv := resv, order := s.nextReq, acc := s.nextReq })) with
    nextReq := s.nextReq + 1 }

/-- A buffer has an entry for a request: a general one, or a reserved one where the request is linkable now (R126). -/
def bufferTakes (s : State) (x : Frame) (r : Request) : Bool :=
  generalFree s r.home || (linkable x r && decide (reservedUse s r.home < 32))

/-- onArrival of R128 for a request of a frame that runs. -/
def arrive (s : State) (x : Frame) (id : Nat) (r : Request) : State :=
  if !bufferTakes s x r then s
  else if generalFree s r.home && !r.ctl && behind x r.wave r.own then haltReq s id r cILLOP 0 0
  else acceptReq s id (!generalFree s r.home)

/-- The oldest request on a stake's request channel. -/
def chanReq (s : State) (c : BitVec 12) (l : BitVec 16) : Option (Nat × Request) :=
  s.reqs.find? (fun r => r.2.colour == c && r.2.lstake == l && r.2.phase == .chan)

/-- A request reaches its buffer: what becomes of it depends on what its frame is doing. -/
def arriveReq (s : State) (c : BitVec 12) (id : Nat) (r : Request) : State :=
  match frame? s c r.frame with
  | none => countPurged (s.delReq id) c 1
  | some x =>
    if x.phase.gone then countPurged (s.delReq id) c 1
    else if !r.translated then s
    else if x.phase.halted then
      if x.slot.isSome then
        updFrame (s.delReq id) c r.frame (fun y => { y with recs := insertRecord y.cw (requestRecord id r false) y.recs })
      else if generalFree s r.home then acceptReq s id false else s
    else if x.phase = .resuming then resumeMore s c r.frame
    else arrive s x id { r with home := x.home }

/-- The extension of a request channel ends when its overflow is empty (R244). -/
def endReqExt (s : State) (c : BitVec 12) (l : BitVec 16) : State :=
  match stake? s c l with
  | some st =>
    let n := (s.reqs.filter (fun r => r.2.colour == c && r.2.lstake == l && r.2.phase == .chan)).length
    if st.reqExt && decide (n < 2) then
      (updStake s c l (fun st => { st with reqExt := false })).updCol c.toNat (fun k => { k with exts := k.exts - 1 })
    else s
  | none => s

/-- WSB_REQUEST_ARRIVAL (R126, R128, R130, R135, R137, R138, R244). -/
def execWsbRequestArrival (colour lstake : W64) (s : State) : Host.Outcome State Fault Refusal :=
  let c : BitVec 12 := colour.setWidth 12
  let l : BitVec 16 := lstake.setWidth 16
  .next (match chanReq s c l with
    | some (id, r) =>
      if portTaken s r.home < 4 then
        let t := arriveReq s c id r
        if (t.req? id).any (fun x => x.phase == .chan) then t else endReqExt (usePort (leaveRing t r) r.home) c l
      else s
    | none => s)

/-! ## What keeps a frame from linking (R131, R173, R178 to R181, R379) -/

/-- A FULL fence of the frame still holds its links. -/
def fenceHolds (s : State) (c : BitVec 12) (x : Frame) : Bool :=
  match x.hold with
  | none => false
  | some t => match (s.clu x.home).tickets.find? (fun y => y.tser == t && y.colour == c && y.frame == x.num) with
    | some y => !ticketMet s x y
    | none => false

/-- An issued request keeps its frame from linking: an acquire until it has performed, an MCAS until its result has returned, a
copy until it is accepted, a FENCE until it has a slot. -/
def blocksLinks (r : Request) : Bool :=
  !r.ctl && match r.phase with
    | .issued => r.isAcquire || [0x78, 0x7D, 0x80, 0x81].contains r.opcode
    | .performed => r.opcode == 0x7D
    | _ => false

/-- A frame may link: held requests belong to the recorded state of a cut that serves a save (R139). -/
def mayLink (s : State) (k : Colour) (c : BitVec 12) (x : Frame) : Bool :=
  (x.phase == .live || x.phase == .ending || x.phase == .resuming) && !cutStops k && !fenceHolds s c x &&
    (reqsOf s c x.num).all (fun r => !blocksLinks r.2)

/-! ## The fault that a request raises as it links (R134, R196, R423) -/

/-- The first byte of a request in a granule. -/
def firstByteIn (r : Request) (g : Nat) : Nat :=
  match r.cells.find? (fun c => decide (g ≤ c.va) && decide (c.va < g + 4096)) with
  | some c => c.va
  | none => g

/-- The request is an access of SZ bytes, with the ALIGN check of R423. -/
def Request.sized (r : Request) : Bool := [0x70, 0x71, 0x74, 0x75].contains r.opcode || r.isRmw

/-- An atomic to the host window that no AtomicOp serves (R190). -/
def notGtop (s : State) (r : Request) : Bool :=
  r.isRmw && (match pagePa r.pages (n64 r.opa 0).toNat with
    | some (pa, _) => isHost pa
    | none => false) &&
  (!s.host.atomEn || !(match r.opcode with
    | 0x7A => r.common.aop == 0 || r.common.aop == 6
    | 0x7C => true
    | 0x7E => r.common.aop == 0 && szBytes r.mem.sz * 8 == r.common.ty.width
    | _ => false))

/-- The fault that a linking request carries: cause, reason and address. -/
def linkFault (s : State) (r : Request) : Option (BitVec 8 × BitVec 8 × Nat) :=
  if r.opcode = 0x77 || r.supply then none
  else if r.cause ≠ 0 then some (r.cause, r.reason, r.faddr.toNat)
  else match pagesFault r.pages with
    | some (c, x, g) => some (c, x, firstByteIn r g)
    | none =>
      let a := (n64 r.opa 0).toNat
      if r.sized && a % szBytes r.mem.sz != 0 then some (cALIGN, 0, a)
      else if notGtop s r then some (cPERM, rNOTGTOP, a)
      else none

/-! ## Fences (R177 to R180) -/

/-- MASK and KIND of a FENCE. -/
def Request.fenceMask (r : Request) : Nat := (r.word.extractLsb' 0 8).toNat

/-- A FENCE covers an issued access of its frame (R178). -/
def fenceCovers (f x : Request) : Bool :=
  !x.ctl && x.phase == .issued && decide (x.order < f.order) && f.fenceMask.testBit x.mem.fc.toNat &&
    !([0x76, 0x77, 0x78, 0x82].contains x.opcode) &&
    (f.common.mdHi != 1 || [0x70, 0x72, 0x74, 0x90, 0x7A, 0x7B, 0x7C, 0x7D].contains x.opcode)

/-- A serial number that no ticket of a cluster's list holds. -/
def freshTser (ts : List Ticket) : Nat → BitVec 32 → BitVec 32
  | 0, t => t
  | n + 1, t => if ts.any (fun x => x.tser == t) then freshTser ts n (t + 1) else t

/-- The ticket's data (R177). -/
def ticketData (home : Nat) (t : BitVec 32) : W512 := BitVec.ofNat 512 (t.toNat + (home % 64) * 2 ^ 32)

/-- A FENCE takes a ticket slot and emits its ticket. -/
def grantFence (s : State) (id : Nat) (r : Request) : State :=
  let cl := s.clu r.home
  let t := freshTser cl.tickets 129 cl.nextTser
  let sy := r.common.scp == 2 && r.common.mdHi != 1
  let ep := match s.col? r.colour.toNat with
    | some k => k.ep
    | none => false
  let tk : Ticket :=
    { tser := t, colour := r.colour, frame := r.frame,
      covered := ((reqsOf s r.colour r.frame).filter (fun x => fenceCovers r x.2)).map Prod.fst,
      sy := if sy then 1 else 3, epoch := ep }
  let s1 := s.updClu r.home (fun c => { c with tickets := c.tickets ++ [tk], nextTser := t + 1 })
  let s2 := if r.common.mdHi = 3 then updFrame s1 r.colour r.frame (fun x => { x with hold := some t }) else s1
  performReq s2 id r (ticketData r.home t)

/-- A FENCE links: with no free slot it waits for one. -/
def linkFence (s : State) (id : Nat) (r : Request) : State :=
  let cl := s.clu r.home
  if cl.tickets.length < 128 && cl.fenceWait.isEmpty then grantFence s id r
  else (s.updReq id (fun _ => { r with phase := .issued })).updClu r.home (fun c => { c with fenceWait := c.fenceWait ++ [id] })

/-- FENCE_SLOT_GRANT (R180): the fence that has waited longest at the cluster takes a free slot. -/
def execFenceSlotGrant (s : State) : Host.Outcome State Fault Refusal :=
  let cl := s.clu s.cur.place
  .next (match cl.fenceWait with
    | [] => s
    | id :: rest =>
      if 128 ≤ cl.tickets.length then s
      else
        let s1 := s.updClu s.cur.place (fun c => { c with fenceWait := rest })
        match s1.req? id with
        | some r => grantFence s1 id r
        | none => s1)

/-! ## Forwarding (R132) -/

/-- A request touches the byte at an address. -/
def Request.touches (r : Request) (pa : Nat) : Bool := r.ranges.any (fun x => decide (x.1 ≤ pa) && decide (pa < x.1 + x.2))

/-- The youngest store among the list, oldest first, that covers a byte: its place in the order and the byte. -/
def forwardByte (sts : List Request) (pa : Nat) : Option (Nat × Byte) :=
  sts.foldl (fun b r => match r.ranges.head? with
    | some (lo, n) => if lo ≤ pa && pa < lo + n then some (r.order, r.opb.extractLsb' (8 * (pa - lo)) 8) else b
    | none => b) none

/-- Requests in the order in which they linked. -/
def byOrder (l : List Request) : List Request :=
  l.foldl (fun q r => q.takeWhile (fun x => x.order < r.order) ++ r :: q.dropWhile (fun x => x.order < r.order)) []

/-- The bytes that a linking LD takes from wave-earlier STs of its frame that still hold entries, when they cover all of its bytes
and no write of another kind that came after such an ST touches its byte (R131, R132). -/
def forwardData (s : State) (r : Request) : Option W512 :=
  match pagePa r.pages (n64 r.opa 0).toNat with
  | none => none
  | some (pa, pte) =>
    let mine := ((reqsOf s r.colour r.frame).map Prod.snd).filter (fun x =>
      !x.ctl && x.phase == .issued && x.overlaps r)
    let sts := byOrder (mine.filter (fun x => x.opcode == 0x71))
    let others := mine.filter (fun x => !([0x70, 0x71, 0x90].contains x.opcode))
    let byteAt (a : Nat) : Option Byte := match forwardByte sts a with
      | some (n, b) => if others.any (fun x => x.touches a && decide (n < x.order)) then none else some b
      | none => none
    let bs := (rangeFrom pa (szBytes r.mem.sz)).map byteAt
    if r.opcode = 0x70 && !r.isAcquire && effHome pte pa != 3 && bs.all Option.isSome then some (bytesData (bs.filterMap id))
    else none

/-! ## Linking (R128, R129) -/

/-- The writes to the host or a peer that a request makes, which ACKOUT counts from its issue (R175). -/
def Request.remoteWrites (r : Request) : Nat :=
  let far (a : Nat) : Bool := match pagePa r.pages a with
    | some (pa, _) => isRemote pa
    | none => false
  if r.opcode = 0x71 ∨ r.opcode = 0x91 then (r.cells.filter (fun c => far c.va)).length
  else if r.opcode = 0x73 then ((List.range (ldtNl r.opa)).filter (fun i => far (ldtAddr r.opa + 64 * i))).length
  else if r.isRmw && far (n64 r.opa 0).toNat then 1
  else 0

/-- The remote writes of a request count in ACKOUT from now, each while its epoch has room (R175). -/
def countWrites (s : State) (id : Nat) (r : Request) : State :=
  let x := ackUps s r.colour.toNat r.remoteWrites
  x.1.updReq id (fun _ => { r with acks := x.2 })

/-- Issue a linked request (R128): what leaves the ordering stage at once is done here. -/
def issueReq (s : State) (k : Colour) (id : Nat) (r0 : Request) : State :=
  let sy := r0.isRelease && r0.common.scp == 2 && r0.opcode != 0x78
  let r := { r0 with phase := .issued, order := s.nextReq, sy := if sy then 1 else 0, epoch := k.ep, done := 0 }
  let s1 := { s with nextReq := s.nextReq + 1 }
  if r.supply then performReq s1 id r r.data
  else match r.opcode with
    | 0x76 => performReq s1 id r r.opa
    | 0x77 =>
      let line (s : State) (p : PageRef) : State := match p.res with
        | .ok pa pte =>
          let a := (n64 r.opa 0).toNat
          (linesOf (pa + (max a p.va - p.va)) (min (a + szBytes r.mem.sz) (p.va + 4096) - max a p.va)).foldl
            (fun s l => fetchLine s k.vf r.home (p.va + (128 * l - pa)) (128 * l) pte) s
        | _ => s
      performReq (if r.pages.any (fun p => match p.res with | .bad _ _ => true | _ => false) then s1 else r.pages.foldl line s1)
        id r r.opa
    | 0x78 => linkFence s1 id r
    | 0x82 =>
      let qs := bitList 16 (fld r.opa 0 16)
      let q : QFence := { lstake := r.lstake, frame := r.frame, wave := r.wave, data := r.opa, fmt := r.fa, left := qs }
      (s1.delReq id).updCol r.colour.toNat (fun k => { k with
        qfences := mapPut k.qfences id q,
        copyq := qs.foldl (fun m n => let y := mapGet m n CopyQ.reset; mapPut m n { y with items := y.items ++ [.fence id] }) k.copyq })
    | _ => match forwardData s1 r with
      | some v => performReq s1 id r v
      | none =>
        if sy then s1.updReq id (fun _ => r) else countWrites s1 id r

/-- The chain values after a request has linked (R128). -/
def linkChain (x : Frame) (r : Request) : Frame :=
  if r.succ = seqNone then { x with cw := x.cw + 1, last := none, nxt := none }
  else { x with last := some r.own, nxt := if r.succ = seqUnknown then none else some r.succ }

/-- checkLinks of R129 for the only linkable request: its links disagree with the chain. -/
def badLink (x : Frame) (r : Request) : Bool :=
  match x.last with
  | none => false
  | some l =>
    (r.pred == l && match x.nxt with
      | some n => n != r.own
      | none => false) ||
    (x.nxt == some r.own && (r.pred == seqNone || (r.pred != seqUnknown && r.pred != l)))

/-- The frames that a buffer has linked in this clk (R128). -/
def linkedNow (s : State) (home : Nat) : List (BitVec 12 × BitVec 12) :=
  if (s.clu home).linkClk = s.clk then (s.clu home).linked else []

/-- The colour that a buffer served first in the last clk before this one in which it linked (R128). -/
def linkBase (s : State) (home : Nat) : BitVec 12 :=
  let x := s.clu home
  if x.linkClk = s.clk then x.linkPtr else match x.linked with
    | p :: _ => p.1
    | [] => x.linkPtr

/-- A buffer has linked a request of a frame. -/
def noteLink (s : State) (home : Nat) (c f : BitVec 12) : State :=
  s.updClu home (fun x => { x with linkClk := s.clk, linked := linkedNow s home ++ [(c, f)], linkPtr := linkBase s home })

/-- Link one request: it raises the fault that it carries, or issues. -/
def linkOne (s : State) (k : Colour) (c : BitVec 12) (id : Nat) (r : Request) (chain : Bool) : State :=
  match linkFault s r with
  | some (cause, reason, a) => haltReq s id r cause reason a
  | none =>
    let s1 := if chain then updFrame s c r.frame (fun x => linkChain x r) else s
    issueReq (noteLink s1 r.home c r.frame) k id r

/-- The held requests of a frame. -/
def heldOf (s : State) (c f : BitVec 12) : List (Nat × Request) :=
  (reqsOf s c f).filter (fun r => r.2.phase == .held && !r.2.ctl)

/-- The one of several linkable requests with the lowest OWN. -/
def lowestOwn : List (Nat × Request) → Option (Nat × Request)
  | [] => none
  | r :: rest => match lowestOwn rest with
    | none => some r
    | some x => if r.2.own.toNat ≤ x.2.own.toNat then some r else some x

/-- The one of several requests that the buffer took first. -/
def firstIssued : List (Nat × Request) → Option (Nat × Request)
  | [] => none
  | r :: rest => match firstIssued rest with
    | none => some r
    | some x => if r.2.order ≤ x.2.order then some r else some x

/-- A frame has a request that its buffer would link now: a replayed one that had issued, or a linkable one, with its
translations. -/
def linksNow (s : State) (k : Colour) (c : BitVec 12) (x : Frame) : Bool :=
  mayLink s k c x && (heldOf s c x.num).any (fun r => r.2.translated && (r.2.again || linkable x r.2))

/-- The frames that a buffer could link in this clk and has not. -/
def linkCandidates (s : State) (home : Nat) : List (BitVec 12 × Frame) :=
  s.cols.flatMap (fun k => (mapVals k.2.frames).filterMap (fun x =>
    let c : BitVec 12 := BitVec.ofNat 12 k.1
    if x.home == home && !(linkedNow s home).contains (c, x.num) && linksNow s k.2 c x then some (c, x) else none))

/-- The link order of R128: colours in turn from the one after the colour served first in the clk before, a second frame of a colour
only after one of each, and within a colour the oldest frame first. -/
def linkBefore (s : State) (home : Nat) (a b : BitVec 12 × Frame) : Bool :=
  let served (c : BitVec 12) : Nat := ((linkedNow s home).filter (fun p => p.1 == c)).length
  let turn (c : BitVec 12) : Nat := (c - linkBase s home - 1).toNat
  if served a.1 ≠ served b.1 then decide (served a.1 < served b.1)
  else if a.1 ≠ b.1 then decide (turn a.1 < turn b.1)
  else older a.2.seq b.2.seq

/-- It is the frame's turn at its buffer: fewer than four requests have linked in this clk, none of them the frame's, and no other
frame comes before it (R128). -/
def linkTurn (s : State) (c : BitVec 12) (x : Frame) : Bool :=
  decide ((linkedNow s x.home).length < 4) && !(linkedNow s x.home).contains (c, x.num) &&
    (linkCandidates s x.home).all (fun y => !linkBefore s x.home y (c, x))

/-- eachClk of R128 for one frame, when it is its turn: a replayed request that had issued before the halt issues again, then the
linkable one links. -/
def linkFrame (s : State) (c f : BitVec 12) : State :=
  match s.col? c.toNat, frame? s c f with
  | some k, some x =>
    if !mayLink s k c x || !linkTurn s c x then s
    else
      let hs := heldOf s c f
      match firstIssued (hs.filter (fun r => r.2.again)) with
      | some (id, r) => if r.translated then linkOne s k c id r false else s
      | none =>
        let ls := hs.filter (fun r => linkable x r.2)
        match ls, lowestOwn ls with
        | [(id, r)], _ =>
          if badLink x r then haltReq s id r cILLOP 0 0
          else if r.translated then linkOne s k c id r true
          else s
        | _, some (id, r) => haltReq s id r cILLOP 0 0
        | _, none => s
  | _, _ => s

/-- WSB_LINK (R128 to R134, R137, R173, R177, R178): a resuming frame first takes what it can of its replay queue. -/
def execWsbLink (colour frame : W64) (s : State) : Host.Outcome State Fault Refusal :=
  let c : BitVec 12 := colour.setWidth 12
  let f : BitVec 12 := frame.setWidth 12
  .next (linkFrame (resumeMore s c f) c f)

/-! ## The waits of R175 -/

/-- SY_RELEASE_DRAIN (R175): of a request, whose own writes off the package then count in the new epoch (log entry 112), or of the
ticket that an argument with bit 63 names by TSER, home, COLOUR and FRAME (R180). -/
def execSyReleaseDrain (req : W64) (s : State) : Host.Outcome State Fault Refusal :=
  .next (if req.getLsbD 63 then
    let home := (req.extractLsb' 32 6).toNat
    let mine (t : Ticket) : Bool := t.tser == (req.setWidth 32 : BitVec 32) && t.colour == (req.extractLsb' 38 12 : BitVec 12) &&
      t.frame == (req.extractLsb' 50 12 : BitVec 12)
    match (s.clu home).tickets.find? mine with
    | none => s
    | some t => match s.col? t.colour.toNat with
      | none => s
      | some k =>
        let r := syLook k t.sy t.epoch
        (s.updCol t.colour.toNat (fun k => { k with ep := r.2 })).updClu home (fun c => { c with
          tickets := updFirst mine (fun y => { y with sy := r.1 }) c.tickets })
  else match s.req? req.toNat with
    | none => s
    | some q => match s.col? q.colour.toNat with
      | none => s
      | some k =>
        if q.phase ≠ .issued then s
        else
          let r := syLook k q.sy q.epoch
          let s1 := (s.updCol q.colour.toNat (fun k => { k with ep := r.2 })).updReq req.toNat (fun q => { q with sy := r.1 })
          if q.sy ≠ 3 ∧ r.1 = 3 then countWrites s1 req.toNat { q with sy := 3 } else s1)

/-! ## Control requests (R450 to R459, R467, R480, R481) -/

/-- Every request of the frame that the buffer accepted earlier has performed (R450). -/
def ctlReady (s : State) (r : Request) : Bool :=
  (reqsOf s r.colour r.frame).all (fun x =>
    decide (r.acc ≤ x.2.acc) || x.2.phase == .chan || x.2.phase == .performed || x.2.opcode == 0x77)

/-- The N32 status of a control request. -/
def ctlStatus (s : State) (id : Nat) (r : Request) (n : Nat) : State := performReq s id r (BitVec.ofNat 512 n)

/-- JOBID of a frame's task. -/
def frameJob (s : State) (c f : BitVec 12) : BitVec 32 :=
  match frame? s c f with
  | some x => recJob x.task
  | none => 0

/-- TASKPUSH at the queue home (R52, R481). -/
def doTaskpush (s : State) (k : Colour) (id : Nat) (r : Request) : State :=
  match targetIdx (s.part k.part) (fld r.opb 0 12) with
  | none => haltReq s id r cSTRAY 0 0
  | some idx => match pushRecord s k.part idx (recWithJob r.opa (frameJob s r.colour r.frame)) with
    | .ok s1 => ctlStatus s1 id r 0
    | .full => ctlStatus s id r 1
    | .noQueue => ctlStatus s id r 2
    | .wait => s

/-- TASKJOIN at the counter's home (R480): a join that waits stays held. -/
def doTaskjoin (s : State) (k : Colour) (id : Nat) (r : Request) : State :=
  match taskJoin s k.vf k.part (n64 r.opa 0).toNat with
  | .done n s1 => ctlStatus s1 id r n
  | .fault cause reason va s1 => haltReq s1 id r cause reason va
  | .wait s1 => s1

/-- QPUSH at the queue home (R457). -/
def doQpush (s : State) (id : Nat) (r : Request) : State :=
  let d := userDesc s r.colour r.qsel
  if d.waits s d.tail then s
  else if d.log = 0 then haltReq s id r cILLOP 0 0
  else if d.full then ctlStatus s id r 1
  else match waitingPops s r.colour r.qsel with
    | (pid, p) :: _ =>
      let s1 := setTail (setHead s d (d.head + 1)) d (d.tail + 1)
      ctlStatus (finishReq s1 pid { p with waiting := false, phase := .performed } (popOut s1 p r.opa)) id r 0
    | [] => ctlStatus (setTail (physWr s (d.slot d.tail) (dataBytes r.opa 64)) d (d.tail + 1)) id r 0

/-- QPOP at the queue home (R458). -/
def doQpop (s : State) (id : Nat) (r : Request) : State :=
  let d := userDesc s r.colour r.qsel
  if d.waits s d.head then s
  else if d.log = 0 then haltReq s id r cILLOP 0 0
  else if d.count ≠ 0 then
    let v : W512 := BitVec.ofNat 512 (cohNat s (d.slot d.head) 64)
    let s1 := setHead s d (d.head + 1)
    finishReq s1 id { r with phase := .performed } (popOut s1 r v)
  else if r.common.d1.isResult then
    finishReq s id { r with phase := .performed }
      [{ d := 1, tok := mkToken 1 0 r.colour r.frame r.wave (tileOfStake s r.colour r.lstake) }]
  else { (s.updReq id (fun r => { r with waiting := true, phase := .issued, order := s.nextReq })) with nextReq := s.nextReq + 1 }

/-- RPLAY at the queue home (R467). -/
def doRplay (s : State) (id : Nat) (r : Request) : State :=
  match rplayAct s r with
  | .done s1 => ctlStatus s1 id r 0
  | .refused => ctlStatus s id r 1
  | .wait s1 => s1

/-- A control request at its unit. -/
def doControl (s : State) (k : Colour) (id : Nat) (r : Request) : State :=
  match r.opcode with
  | 0x10 => doTaskpush s k id r
  | 0x11 => doTaskjoin s k id r
  | 0x13 => doQpop s id r
  | 0x14 => doQpush s id r
  | _ => doRplay s id r

/-- CONTROL_REQUEST_SEND (R450, R451): a QPOP is sent on at once, the others once every earlier request has performed; one with
SUPPLY retires at the buffer (R257). -/
def execControlRequestSend (req : W64) (s : State) : Host.Outcome State Fault Refusal :=
  let id := req.toNat
  .next (match s.req? id with
    | none => s
    | some r => match s.col? r.colour.toNat, frame? s r.colour r.frame with
      | some k, some x =>
        if !r.ctl || r.phase != .held || !(x.phase == .live || x.phase == .ending || x.phase == .resuming) || cutStops k then s
        else if r.opcode != 0x13 && !ctlReady s r then s
        else if r.supply then performReq s id r r.data
        else doControl s k id r
      | _, _ => s)

end Sys2Proof.Machine
end

