-- ==== Sys2Proof/Machine/Perform.lean ====
section
/-! DEFINITION. Where issued accesses perform (R136, R146 to R149, R167, R168, R184, R188 to R196, R422 to R428, R463, R471 to
R477, R483, R488). -/

namespace Sys2Proof.Machine

/-! ## Plain accesses and tensor maps -/

/-- The elements of a request that have performed, a bit for each (TMLD, TMST) or one bit. -/
def Request.cellOpen (r : Request) (i : Nat) : Bool := !r.done.testBit i

/-- The parts of a request that messages outside the package will still answer. -/
def awaited (s : State) (id : Nat) : List Nat :=
  (s.host.out ++ s.wick.out).filterMap (fun o => match o.who with
    | .req i off => if i = id && !o.recorded then some off else none
    | _ => none)

/-- The elements that have neither performed nor been sent: their numbers. -/
def openCells (s : State) (id : Nat) (r : Request) : List (Nat × Cell) :=
  let sent := awaited s id
  (r.cells.zipIdx.map (fun c => (c.2, c.1))).filter (fun c => r.cellOpen c.1 && !(sent.contains c.1 && !r.tags.isEmpty))

/-- One element has performed: the request performs with its last. -/
def cellDone (s : State) (id : Nat) (r : Request) (i : Nat) : State :=
  let r1 := { r with done := r.done ||| 2 ^ i }
  if (List.range r.cells.length).all (fun j => !r1.cellOpen j) then
    performReq s id { r1 with done := 0 } r1.data
  else s.updReq id (fun _ => r1)

/-- The type that keys the substitution of a load (R163, R484). -/
def Request.subTy (r : Request) : Ty := if r.isTm then tmEty r.tm else r.common.ty

/-- Put the bytes of an element into the data of a load. -/
def Request.put (r : Request) (bit : Nat) (bs : List Byte) : Request :=
  { r with data := r.data ||| (bytesData bs <<< bit) }

/-- The bytes that an element stores. -/
def Request.bytesOf (r : Request) (c : Cell) : List Byte :=
  natBytes c.n ((if r.isTm then r.opc else r.opb).toNat >>> c.bit)

/-- The request stores. -/
def Request.stores (r : Request) : Bool := r.opcode == 0x71 || r.opcode == 0x91

/-- Send a part of a request off the package. -/
def sendPart (s : State) (id : Nat) (r : Request) (off : Nat) (kind : MsgKind) (pa : Nat) (data : W512) (va : Nat) : State :=
  match sendRemote s r.colour (.req id off) kind pa data r.acks with
  | .sent t s1 => s1.updReq id (fun q => { q with tags := q.tags ++ [t], acks := if kind.writes then q.acks.tail else q.acks })
  | .wait s1 => s1
  | .failed s1 => haltReq s1 id r cPGFLT rHOSTPF va

/-- The byte mask of a message of `n` bytes. -/
def fullMask (n : Nat) : W64 := BitVec.ofNat 64 (2 ^ n - 1)

/-- Perform one element of an LD, ST, TMLD or TMST. -/
def performCell (s : State) (k : Colour) (id : Nat) (r : Request) (i : Nat) (c : Cell) : State :=
  match pagePa r.pages c.va with
  | none => s
  | some (pa, pte) =>
    if isRemote pa then
      sendPart s id r i (if r.stores then .write c.n (fullMask c.n) else .read c.n) pa
        (if r.stores then bytesData (r.bytesOf c) else 0) c.va
    else if r.stores then
      match packWrite s k r.home c.va pa (wrAll (r.bytesOf c)) pte with
      | .ok _ s1 => cellDone s1 id r i
      | .wait => s
      | .ue s1 => haltReq s1 id r cUE 0 c.va
    else match packRead s k r.home c.va pa c.n pte with
      | .ok bs s1 => match deliverBytes s1 k r.subTy pte pa bs with
        | some (b, s2) => cellDone s2 id (r.put c.bit b) i
        | none => haltReq s1 id r cUE 0 c.va
      | .wait => s
      | .ue s1 => haltReq s1 id r cUE 0 c.va

/-- An element that performs next: with several left, a free choice (R484: in no promised order; log entry 2). -/
def pickCell (s : State) (l : List (Nat × Cell)) : Option (Nat × Cell) × State :=
  match l with
  | [] => (none, s)
  | [c] => (some c, s)
  | c :: _ =>
    let w := s.drawWord
    (some (l.getD (w.1.toNat % l.length) c), w.2)

/-- ACCESS_PERFORM (R131 to R133, R136, R167, R168, R173, R174, R422, R471, R483, R488): an LD, ST, TMLD or TMST performs, or
sends its part off the package; a request whose results could not leave tries again. -/
def execAccessPerform (req : W64) (s : State) : Host.Outcome State Fault Refusal :=
  let id := req.toNat
  .next (match s.req? id with
    | none => s
    | some r =>
      if r.phase = .performed then finishReq s id r r.out
      else match s.col? r.colour.toNat with
        | none => s
        | some k =>
          if r.phase ≠ .issued || !([0x70, 0x71, 0x90, 0x91].contains r.opcode) || !accessGate s r then s
          else if r.cells.isEmpty then performReq s id r 0
          else match pickCell s (openCells s id r) with
            | (some (i, c), s1) => performCell s1 k id r i c
            | (none, s1) => s1)

/-! ## Scratch full/empty order (R184) -/

/-- FULL_EMPTY_PERFORM (R184, R424, R473). -/
def execFullEmptyPerform (req : W64) (s : State) : Host.Outcome State Fault Refusal :=
  let id := req.toNat
  .next (match s.req? id with
    | none => s
    | some r => match s.col? r.colour.toNat, r.cells.head? with
      | some k, some c => match pagePa r.pages c.va with
        | none => s
        | some (pa, pte) =>
          if r.phase ≠ .issued || !r.isFe || !accessGate s r || bitWaits s k r || !isScratch pa then s
          else
            let lt := (scratchLine pa).1
            let line := (scratchLine pa).2
            if r.opcode = 0x75 then
              performReq (scrFill (scrWr s k lt (pa % 2 ^ 19) (wrAll (r.bytesOf c)) (pteTol pte)) k lt [line] true) id r 0
            else match packRead s k r.home c.va pa c.n pte with
              | .ok bs s1 => match deliverBytes s1 k r.common.ty pte pa bs with
                | some (b, s2) => performReq (scrFill s2 k lt [line] false) id r (bytesData b)
                | none => haltReq s1 id r cUE 0 c.va
              | _ => s
      | _, _ => s)

/-! ## LDT and STT (R427, R477) -/

/-- The source byte of an LDT at a byte of its range, when it lies in the scratch that the request fills. -/
def ownScratch (r : Request) (va : Nat) : Option Nat :=
  match pagePa r.pages va with
  | some (pa, _) => if isScratch pa && pa / 2 ^ 19 % 512 == r.lstake.toNat / 128 then some (pa % 2 ^ 19) else none
  | none => none

/-- The source bytes of an LDT as they stand, where they lie in its own scratch; empty when none does. -/
def ldtSnap (s : State) (k : Colour) (r : Request) : List Byte :=
  let a := ldtAddr r.opa
  let t := match anchorOf k (r.lstake.toNat / 128) with
    | some x => s.tile x
    | none => Tile.reset
  if r.pages.any (fun p => (ownScratch r p.va).isSome) then
    (List.range (64 * ldtNl r.opa)).map (fun i => match ownScratch r (a + i) with
      | some off => scrGet t off
      | none => 0)
  else []

/-- Choose for each byte of a line between what now lies at its source and what stood there before the request, where the
request itself has written the source (R427; log entry 2). -/
def ldtChoose (s : State) (r : Request) (i : Nat) : List Byte → Nat → List Byte × State
  | [], _ => ([], s)
  | b :: rest, j =>
    let off := (ownScratch r (ldtAddr r.opa + 64 * i + j)).getD 0
    let mine := (ownScratch r (ldtAddr r.opa + 64 * i + j)).isSome &&
      decide (64 * ldtLine r.opa ≤ off) && decide (off < 64 * (ldtLine r.opa + i))
    if mine then
      let d := s.drawBit
      let x := ldtChoose d.2 r i rest (j + 1)
      ((if d.1 then b else r.snap.getD (64 * i + j) 0) :: x.1, x.2)
    else
      let x := ldtChoose s r i rest (j + 1)
      (b :: x.1, x.2)

/-- A line of an LDT has been read. -/
def ldtGot (s : State) (id : Nat) (r : Request) (bs : List Byte) : State :=
  let x := ldtChoose s r r.done bs 0
  x.2.updReq id (fun _ => { r with data := bytesData x.1, lineRd := true })

/-- Read the current line of an LDT. -/
def ldtRead (s : State) (k : Colour) (id : Nat) (r0 : Request) : State :=
  let r := if r0.done = 0 then { r0 with snap := ldtSnap s k r0 } else r0
  let va := ldtAddr r.opa + 64 * r.done
  match pagePa r.pages va with
  | none => s
  | some (pa, pte) =>
    if isRemote pa then (if r.tags.isEmpty then sendPart s id r r.done (.read 64) pa 0 va else s)
    else match packRead s k r.home va pa 64 pte with
      | .ok bs s1 => match deliverBytes s1 k r.common.ty pte pa bs with
        | some (b, s2) => ldtGot s2 id r b
        | none => haltReq s1 id r cUE 0 va
      | .wait => s
      | .ue s1 => haltReq s1 id r cUE 0 va

/-- Write the line that has been read into the scratch of the LDT's logical tile. -/
def ldtWrite (s : State) (k : Colour) (id : Nat) (r : Request) : State :=
  let lt := r.lstake.toNat / 128
  let line := ldtLine r.opa + r.done
  if bitWaits s k r then s
  else
    let s1 := scrWr s k lt (64 * line) (wrAll (dataBytes r.data 64)) false
    let s2 := if ldtFe r.opa then scrFill s1 k lt [line] true else s1
    if r.done + 1 = ldtNl r.opa then
      performReq s2 id { r with done := 0, lineRd := false } (BitVec.ofNat 512 (ldtNl r.opa))
    else s2.updReq id (fun q => { q with done := r.done + 1, lineRd := false })

/-- LDT_LINE_WRITE (R427, R428). -/
def execLdtLineWrite (req : W64) (s : State) : Host.Outcome State Fault Refusal :=
  let id := req.toNat
  .next (match s.req? id with
    | none => s
    | some r => match s.col? r.colour.toNat with
      | none => s
      | some k =>
        if r.phase ≠ .issued || r.opcode != 0x72 || !accessGate s r then s
        else if r.lineRd then ldtWrite s k id r else ldtRead s k id r)

/-- An STT has sent its last line and every write has been acknowledged. -/
def sttEnd (s : State) (id : Nat) (r : Request) : State :=
  if r.done = ldtNl r.opa && r.tags.isEmpty then
    performReq s id { r with done := 0 } (BitVec.ofNat 512 (ldtNl r.opa))
  else s.updReq id (fun _ => r)

/-- Read the current scratch line of an STT. -/
def sttRead (s : State) (k : Colour) (id : Nat) (r : Request) : State :=
  let lt := r.lstake.toNat / 128
  let line := ldtLine r.opa + r.done
  if bitWaits s k r || (ldtFe r.opa && !lineFull s k lt line) then s
  else match anchorOf k lt with
    | none => s
    | some a =>
      let bs := scrRd (s.tile a) (64 * line) 64
      if anyBad bs then haltReq s id r cUE 0 (scratchPa lt (64 * line))
      else
        let s1 := if ldtFe r.opa then scrFill s k lt [line] false else s
        s1.updReq id (fun q => { q with data := bytesData (bs.map Prod.fst), lineRd := true })

/-- Store the line that has been read. -/
def sttWrite (s : State) (k : Colour) (id : Nat) (r : Request) : State :=
  let va := ldtAddr r.opa + 64 * r.done
  let next (r : Request) : Request := { r with done := r.done + 1, lineRd := false }
  match pagePa r.pages va with
  | none => s
  | some (pa, pte) =>
    if isRemote pa then
      match sendRemote s r.colour (.req id r.done) (.write 64 (fullMask 64)) pa r.data r.acks with
      | .sent t s1 => s1.updReq id (fun _ => next { r with tags := r.tags ++ [t], acks := r.acks.tail })
      | .wait s1 => s1
      | .failed s1 => haltReq s1 id r cPGFLT rHOSTPF va
    else match packWrite s k r.home va pa (wrAll (dataBytes r.data 64)) pte with
      | .ok _ s1 => sttEnd s1 id (next r)
      | .wait => s
      | .ue s1 => haltReq s1 id r cUE 0 va

/-- STT_LINE_WRITE (R477). -/
def execSttLineWrite (req : W64) (s : State) : Host.Outcome State Fault Refusal :=
  let id := req.toNat
  .next (match s.req? id with
    | none => s
    | some r => match s.col? r.colour.toNat with
      | none => s
      | some k =>
        if r.phase ≠ .issued || r.opcode != 0x73 || !accessGate s r || r.done = ldtNl r.opa then s
        else if r.lineRd then sttWrite s k id r else sttRead s k id r)

/-! ## Atomics and reductions (R188 to R196) -/

/-- One lane of an atomic: the new value and the flags (R193, R194). -/
def rmwLane (opc : Nat) (t : Ty) (aop old x y : Nat) : Nat × Flags :=
  if opc = 0x7C then (if old = x then y else old, 0)
  else if t.isFloat then
    match aop with
    | 0 => finish FpEnv.memory t (addF FpEnv.memory (decodeIn FpEnv.memory t old) (decodeIn FpEnv.memory t x))
    | 4 => minmaxLane false t FpEnv.memory old x
    | 5 => minmaxLane true t FpEnv.memory old x
    | _ => (x, 0)
  else
    (match aop with
      | 0 => (old + x) % 2 ^ t.width
      | 1 => old &&& x
      | 2 => old ||| x
      | 3 => old ^^^ x
      | 4 => laneMin t old x
      | 5 => laneMax t old x
      | _ => x, 0)

/-- The read-modify-write of `n` bytes: the new bytes and the result with its status lane (R193, R195). -/
def rmwBytes (opc : Nat) (t : Ty) (aop n : Nat) (old : List Byte) (x y : W512) : List Byte × W512 :=
  let lanes := (List.range (8 * n / t.width)).map (fun i =>
    let o := lane (bytesData old) t.width i
    (o, rmwLane opc t aop o (lane x t.width i) (lane y t.width i)))
  let fl := lanes.foldl (fun (f : Flags) l => f ||| l.2.2) 0
  let wrote := lanes.all (fun l => l.1 == lane x t.width 0) && opc == 0x7C
  let status := if opc = 0x7B then fl.toNat else if wrote then 1 else 0
  (natBytes n (lanesNat t.width (lanes.map (fun l => l.2.1))),
    if opc = 0x7E ∨ opc = 0x7F then 0 else setFld (ofLanes t.width (lanes.map Prod.fst)) 480 32 status)

/-- The operands of an atomic on their way off the package: a CAS carries its expected value below its new value. -/
def rmwOperand (r : Request) : W512 :=
  if r.opcode = 0x7C then (r.opb &&& BitVec.ofNat 512 (2 ^ 64 - 1)) ||| (r.opc <<< 64) else r.opb

/-- An atomic or reduction at its home directory and unit: at a HOME 0 or 2 line the directory clears the line first (R189). -/
def rmwTurn (id pa : Nat) (pte : W64) : DirReq := .rmw id (effHome pte pa != 3)

/-- An atomic performs at its unit: in HBM4 once its turn at the line has come, which its arrival gives it (R189). -/
def rmwAt (s : State) (k : Colour) (id : Nat) (r : Request) (va pa : Nat) (pte : W64) : State :=
  let n := szBytes r.mem.sz
  let go (s : State) (bs : List RdByte) (put : State → List Byte → State) : State :=
    match deliverBytes s k r.common.ty pte pa bs with
    | none => haltReq s id r cUE 0 va
    | some (old, s1) =>
      let x := rmwBytes r.opcode r.common.ty r.common.aop n old r.opb r.opc
      performReq (put s1 x.1) id r x.2
  if isScratch pa then
    match packRead s k r.home va pa n pte with
    | .ok bs s1 => go s1 bs (fun s b => scrWr s k (pa / 2 ^ 19 % 512) (pa % 2 ^ 19) (wrAll b) (pteTol pte))
    | _ => s
  else if hbmWaits s pa then s
  else if !hbmUsable s pa then haltReq (countMiss s pa (dieOfClu r.home)) id r cUE 0 va
  else if !lineMine s (pa / 128) (rmwTurn id pa pte) then s
  else dirDone (go (noteUe s pa n) (homeRd s pa n) (fun s b => homeWr s pa (wrAll b) (pteTol pte))) (pa / 128) (rmwTurn id pa pte)

/-- ATOMIC_RMW (R188 to R196, R371, R388, R406, R463): an atomic or a reduction performs at its unit, or is sent off the
package. -/
def execAtomicRmw (req : W64) (s : State) : Host.Outcome State Fault Refusal :=
  let id := req.toNat
  .next (match s.req? id with
    | none => s
    | some r => match s.col? r.colour.toNat, pagePa r.pages (n64 r.opa 0).toNat with
      | some k, some (pa, pte) =>
        let va := (n64 r.opa 0).toNat
        if r.phase ≠ .issued || !r.isRmw || !accessGate s r then s
        else if isRemote pa then
          (if r.tags.isEmpty then
            sendPart s id r 0 (.atomic (BitVec.ofNat 8 r.opcode) r.common.ty r.common.aop (szBytes r.mem.sz)) pa (rmwOperand r) va
          else s)
        else rmwAt s k id r va pa pte
      | _, _ => s)

/-! ## Answers from outside the package -/

/-- The DATA of an atomic whose old value comes from the host or a peer (R195): a CAS wrote where its expected value stood. -/
def rmwAnswer (r : Request) (data : W512) : W512 :=
  let n := 8 * szBytes r.mem.sz
  let old := data &&& BitVec.ofNat 512 (2 ^ n - 1)
  match r.opcode with
  | 0x7A => old
  | 0x7C => if old = r.opb &&& BitVec.ofNat 512 (2 ^ n - 1) then setFld old 480 32 1 else old
  | 0x7B => data
  | _ => 0

/-- The answer to a part of a request: the cause and reason where it refuses (R190, R301). -/
def answerReq (s : State) (id off tag : Nat) (data : W512) (bad : Option (BitVec 8 × BitVec 8)) : State :=
  match s.req? id with
  | none => s
  | some q =>
    let r := q.untag tag
    let c := r.cells.getD off { bit := 0, va := (n64 r.opa 0).toNat, n := szBytes r.mem.sz }
    let va := if r.isLine then ldtAddr r.opa + 64 * off else c.va
    match bad with
    | some (cause, reason) => haltReq s id r cause reason va
    | none => match r.opcode with
      | 0x72 => ldtGot s id r (dataBytes data 64)
      | 0x73 => sttEnd s id r
      | 0x7D => s.updReq id (fun _ => r)
      | _ =>
        if r.isRmw then performReq s id r (rmwAnswer r data)
        else if r.stores then cellDone s id r off
        else cellDone s id (r.put c.bit (dataBytes data c.n)) off

end Sys2Proof.Machine
end

