-- ==== Sys2Proof/Machine/Walk.lean ====
section
/-! DEFINITION. Miss slots, walks and reclassification (R155 to R157, R165, R166), and the translations that the copy and solder
engines take. -/

namespace Sys2Proof.Machine

/-! ## Waiters -/

/-- The cluster whose TLB and miss slots serve a request: that of the tile that fired it (R165). -/
def Request.tclu (r : Request) : Nat := cluOfTile r.ptile

/-- A request waits for a granule; PREF asks for no walk. -/
def Request.waitsFor (r : Request) (va : Nat) : Bool :=
  (r.phase == .chan || r.phase == .held) && r.opcode != 0x77 &&
    r.pages.any (fun p => p.va == va && (p.res == .todo || p.res == .walking))

/-- The VF of a request's colour. -/
def vfOfReq (s : State) (r : Request) : Option Nat := (s.col? r.colour.toNat).map (·.vf)

/-- The requests that wait for a granule in the clusters that a test accepts: their colours, requesting clusters and needs, by
request number. -/
def waiters (s : State) (inClu : Nat → Bool) (va : Nat) : List (Colour × Nat × Need) :=
  s.reqs.filterMap (fun x =>
    if inClu x.2.tclu && x.2.waitsFor va then
      match s.col? x.2.colour.toNat, x.2.pages.find? (fun p => p.va == va) with
      | some k, some p => some (k, x.2.home, p.need)
      | _, _ => none
    else none)

/-! ## Miss slots and the walks of a die (R165, R166) -/

/-- The miss slot of a granule of a VF. -/
def missFind (s : State) (c vf va : Nat) : Option Miss := (s.clu c).miss.find? (fun m => m.vf == vf && m.va == va)

/-- Take a miss slot; the requests that wait for its granule join it. -/
def missAdd (s : State) (c : Nat) (m : Miss) : State :=
  let s1 := s.updClu c (fun x => { x with miss := x.miss ++ [m] })
  { s1 with reqs := s1.reqs.map (fun r =>
      if r.2.tclu == c && r.2.waitsFor m.va && vfOfReq s r.2 == some m.vf then
        (r.1, { r.2 with pages := r.2.pages.map (fun p => if p.va = m.va && p.res == .todo then { p with res := .walking } else p) })
      else r) }

/-- The walk of a granule in a die's walk unit. -/
def walkFind (s : State) (d vf va : Nat) : Option Walk := (s.die d).walks.find? (fun w => w.vf == vf && w.va == va)

/-- Change a walk of a die. -/
def walkSet (s : State) (d : Nat) (w : Walk) : State :=
  s.updDie d (fun x => { x with walks := updFirst (fun y => y.vf == w.vf && y.va == w.va) (fun _ => w) x.walks })

/-- A walk that has still to read the tables. -/
def Walk.begin (vf va home : Nat) : Walk := { vf := vf, va := va, home := home, st := .going, size := 12, pteAt := 0 }

/-- A miss slot asks for its walk: slots of the die's clusters share one, 64 go on at once and the rest wait in FIFO order (R166). -/
def walkAsk (s : State) (d vf va home : Nat) : State :=
  let x := s.die d
  if (walkFind s d vf va).isSome || x.walkq.any (fun q => q.1 == vf && q.2.1 == va) then s
  else if x.walks.length < 64 then s.updDie d (fun x => { x with walks := x.walks ++ [Walk.begin vf va home] })
  else s.updDie d (fun x => { x with walkq := x.walkq ++ [(vf, va, home)] })

/-- A walk has ended: every slot of the die that shared it is free, and the walk that has waited longest begins. -/
def walkEnd (s : State) (d vf va : Nat) : State :=
  let s1 : State := { s with clus := s.clus.map (fun c =>
    if dieOfClu c.1 = d then (c.1, { c.2 with miss := c.2.miss.filter (fun m => !(m.vf == vf && m.va == va)) }) else c) }
  s1.updDie d (fun x =>
    let left := x.walks.filter (fun w => !(w.vf == vf && w.va == va))
    match x.walkq with
    | q :: rest => { x with walks := left ++ [Walk.begin q.1 q.2.1 q.2.2], walkq := rest }
    | [] => { x with walks := left })

/-! ## PAGE_WALK (R142 to R145, R155, R165) -/

/-- What a walk with a leaf leaves, on behalf of a requesting cluster (R155, R157): a page that is cached is classified once the access
has passed the checks of R145; a page that has to be reclassified first leaves nothing. The walk waits where the entry's home line
is not free. -/
def walkLeaf (s : State) (c nlt : Nat) (need : Need) (va : Nat) (p : W64) (size at_ : Nat) : Option (Option (Nat × W64) × State) :=
  let pa := leafPa p size va
  let h := effHome p pa
  if !(h == 0 || h == 2) || (permFault nlt need p pa).isSome then some (some (pa, p), s)
  else match pteCls p with
    | 0 => if !pteFree s at_ then none else
        let q := pteClassify p 1 c
        some (if need.isRmw then none else some (pa, q), pteWrite s at_ q)
    | 1 => some (if pteOwner p = c && !need.isRmw then some (pa, p) else none, s)
    | 2 => some (some (pa, p), s)
    | _ => if !pteFree s at_ then none else
        let q := pteClassify p 2 (pteOwner p)
        some (some (pa, q), pteWrite s at_ q)

/-- A walk reads the tables on behalf of the first request that waits for it; one for which nothing waits any more ends. -/
def walkRun (s : State) (d : Nat) (w : Walk) : State :=
  match (waiters s (fun c => dieOfClu c == d) w.va).find? (fun x => x.1.vf == w.vf) with
  | none => walkEnd s d w.vf w.va
  | some (k, home, need) =>
    match walkVia s d w.vf w.va with
    | .wait => s
    | .fault a b => walkSet s d { w with st := .bad a b }
    | .ue a => walkSet (countMiss s a (dieOfClu home)) d { w with st := .bad cUE 0 }
    | .leaf p size at_ => match walkLeaf s home k.nlt need w.va p size at_ with
      | none => s
      | some (res, s1) =>
        let st := match res with
          | some (pa, q) => .done pa q false
          | none => .reclass
        walkSet (keepTrail s1 d w.vf w.va) d { w with home := home, st := st, size := size, pteAt := at_ }

/-- PAGE_WALK (R142 to R145, R155 to R157, R165, R166): a granule that a request of a cluster waits for takes a miss slot and a walk of
its die, and the walk reads the tables. -/
def execPageWalk (cluster va : W64) (s : State) : Host.Outcome State Fault Refusal :=
  let c := cluster.toNat
  let g := va.toNat / 4096 * 4096
  let d := dieOfClu c
  let run (s : State) (vf : Nat) : State := match walkFind s d vf g with
    | some w => if w.st = .going then walkRun s d w else s
    | none => s
  .next (match waiters s (· == c) g with
    | [] => s
    | (k, home, _) :: _ =>
      if (missFind s c k.vf g).isSome then run s k.vf
      else if 64 ≤ (s.clu c).miss.length || 1024 ≤ (s.die d).walkq.length then s
      else run (walkAsk (missAdd s c { vf := k.vf, va := g }) d k.vf g home) k.vf)

/-! ## WALK_COMPLETE (R166) -/

/-- What a completed walk says of one granule of a request: BADHOME of R148 and the access's own permission come before an XPART of
reclassification (R145). -/
def satisfy (s : State) (k : Colour) (home : Nat) (w : Walk) (x : PageRef) : PageRef :=
  if x.res != .todo && x.res != .walking then x
  else match w.st with
    | .bad a b => if x.va = w.va then { x with res := .bad a b } else x
    | .done pa p xp =>
      let lo := w.va - w.va % 2 ^ w.size
      if x.va < lo ∨ lo + 2 ^ w.size ≤ x.va then x
      else
        let a := pa - w.va % 2 ^ w.size + (x.va - lo)
        match permFault k.nlt x.need p a with
        | some (e, f) => { x with res := .bad e f }
        | none =>
          if !classOk p a home x.need then (if xp && pteOwner p != home then { x with res := .bad cPERM rXPART } else { x with res := .todo })
          else if xpart s k.part p a then { x with res := .bad cPERM rXPART }
          else { x with res := .ok a p }
    | _ => x

/-- A completed walk satisfies or faults every request of the die's clusters that waits for its page. -/
def satisfyAll (s : State) (d : Nat) (w : Walk) : State :=
  let go (r : Request) : Request :=
    match s.col? r.colour.toNat with
    | some k =>
      if dieOfClu r.tclu == d && k.vf == w.vf && (r.phase == .chan || r.phase == .held) && r.opcode != 0x77 then
        { r with pages := r.pages.map (satisfy s k r.home w) } else r
    | none => r
  { s with reqs := s.reqs.map (fun r => (r.1, go r.2)) }

/-- The translation enters the TLBs of the clusters whose slots shared the walk, and the micro-TLBs of the tiles whose requests waited
for it. -/
def fillTlbs (s : State) (d : Nat) (w : Walk) (p : W64) : State :=
  let t : Tlb := { vf := w.vf, va := w.va - w.va % 2 ^ w.size, size := w.size, pte := p }
  let tiles := (s.reqs.filter (fun r => dieOfClu r.2.tclu == d && r.2.waitsFor w.va && vfOfReq s r.2 == some w.vf)).map (fun r => r.2.ptile)
  let s1 : State := { s with clus := s.clus.map (fun c =>
    if dieOfClu c.1 == d && (missFind s c.1 w.vf w.va).isSome then (c.1, { c.2 with tlb := cluTlbAdd c.2.tlb t }) else c) }
  (tiles.foldl setIns []).foldl (fun s n => s.updTile n (fun x => { x with utlb := tlbAdd x.utlb t 64 })) s1

/-- The walk of a granule that a cluster's slot shares, when it stands as a test says. -/
def slotWalk (s : State) (c g : Nat) (p : WalkSt → Bool) : Option Walk :=
  (s.clu c).miss.findSome? (fun m => if m.va = g then (walkFind s (dieOfClu c) m.vf g).filter (fun w => p w.st) else none)

/-- WALK_COMPLETE (R166). -/
def execWalkComplete (cluster va : W64) (s : State) : Host.Outcome State Fault Refusal :=
  let c := cluster.toNat
  let d := dieOfClu c
  .next (match slotWalk s c (va.toNat / 4096 * 4096) (fun st => st != .going && st != .reclass) with
    | none => s
    | some w =>
      let s1 := match w.st with
        | .done _ p false => fillTlbs s d w p
        | _ => s
      walkEnd (satisfyAll s1 d w) d w.vf w.va)

/-! ## RECLASSIFY_REQUEST (R156, R157) -/

/-- RECLASSIFY_REQUEST (R156, R157): the owner's issued accesses have completed, it flushes, and the entry becomes SHARED. A page that
another walk has made SHARED is walked again. -/
def execReclassifyRequest (cluster va : W64) (s : State) : Host.Outcome State Fault Refusal :=
  let c := cluster.toNat
  let d := dieOfClu c
  .next (match slotWalk s c (va.toNat / 4096 * 4096) (· == .reclass) with
    | none => s
    | some w => match walkVia s d w.vf w.va with
      | .wait => s
      | .fault a b => walkSet s d { w with st := .bad a b }
      | .ue a => walkSet (countMiss s a (dieOfClu w.home)) d { w with st := .bad cUE 0 }
      | .leaf p size at_ =>
        let pa := leafPa p size w.va
        if pteCls p != 1 then walkSet s d { w with st := .going }
        else match sharePage s (partOfClu s w.home) w.vf w.va p size at_ with
          | .xpart => walkSet s d { w with st := .done pa p true, size := size, pteAt := at_ }
          | .wait => s
          | .ok s1 => walkSet s1 d { w with st := .done pa (pteClassify p 2 (pteOwner p)) false, size := size, pteAt := at_ })

/-! ## The engines' own translations (R155, R378) -/

/-- How an engine's translation ends. -/
inductive EngXlat where
  | ok (pa : Nat) (pte : W64) (s : State)
  | bad (cause reason : BitVec 8) (s : State)
  | wait (s : State)

/-- Translate a granule for an engine of a cluster: by the cluster TLB, or by a walk that classifies a page for that cluster or
reclassifies it. -/
def engXlat (s : State) (k : Colour) (c va : Nat) (need : Need) : EngXlat :=
  match tlbSays s k (tlbFind (s.clu c).tlb k.vf va) c va need with
  | .ok pa pte => .ok pa pte s
  | .bad a b => .bad a b s
  | _ => match walkVia s (dieOfClu c) k.vf va with
    | .wait => .wait s
    | .fault a b => .bad a b s
    | .ue a => .bad cUE 0 (countMiss s a (dieOfClu c))
    | .leaf p size at_ =>
      let keep (s : State) (q : W64) : State :=
        (keepTrail s (dieOfClu c) k.vf va).updClu c (fun x => { x with
          tlb := cluTlbAdd x.tlb { vf := k.vf, va := va - va % 2 ^ size, size := size, pte := q } })
      let fin (s : State) (pa : Nat) (q : W64) : EngXlat :=
        match accessFault s k.part k.nlt need q pa with
        | some (a, b) => .bad a b (keep s q)
        | none => .ok pa q (keep s q)
      match walkLeaf s c k.nlt need va p size at_ with
      | none => .wait s
      | some (some (pa, q), s1) => fin s1 pa q
      | some (none, s1) =>
        let q := if pteCls p = 1 then p else pteClassify p 1 c
        match sharePage s1 (partOfClu s c) k.vf va q size at_ with
        | .xpart => .bad cPERM rXPART s1
        | .wait => .wait s1
        | .ok s2 => fin s2 (leafPa p size va) (pteClassify q 2 (pteOwner q))

/-- Translate granules in order; a fault names the granule that met it. -/
def engPages (s : State) (k : Colour) (c : Nat) (need : Need) : List Nat → (List PageRef × Option (BitVec 8 × BitVec 8 × Nat) × Bool) × State
  | [] => (([], none, false), s)
  | g :: rest => match engXlat s k c g need with
    | .bad a b s1 => (([], some (a, b, g), false), s1)
    | .wait s1 => (([], none, true), s1)
    | .ok pa pte s1 =>
      let x := engPages s1 k c need rest
      (({ va := g, need := need, res := .ok pa pte } :: x.1.1, x.1.2.1, x.1.2.2), x.2)

/-- What a read by an engine meets. -/
inductive EngRes where
  /-- The bytes read, with their errors. -/
  | ok (bs : List RdByte) (s : State)
  /-- It waits. -/
  | wait (s : State)
  /-- UE, or the refusal of the host or a peer. -/
  | bad (cause reason : BitVec 8) (s : State)

/-- Read bytes on behalf of an engine of a colour, at an address off the package by its own messages. `mine` says that it has its turn at
every line that is not free (R201). -/
def engRead (s : State) (k : Colour) (c unit va pa n : Nat) (pte : W64) (mine : Bool) : EngRes :=
  let far (r : DevRes) : EngRes := match r with
    | .ok bs s1 => .ok (bs.map (fun b => (b, false))) s1
    | .wait s1 => .wait s1
    | .fault a b _ s1 => .bad a b s1
  if isHost pa then
    match atsGet s (hostPage pa) false with
    | .ok x => far (outsideRead s unit va (hostAt x pa) n (some (hostPage pa)))
    | .failed s1 => .bad cPGFLT rHOSTPF s1
    | .wait s1 => .wait s1
  else if isPeer pa then far (outsideRead s unit va pa n none)
  else if isScratch pa then
    match packRead s k c va pa n pte with
    | .ok bs s1 => .ok bs s1
    | .wait => .wait s
    | .ue s1 => .bad cUE 0 s1
  else if hbmWaits s pa then .wait s
  else if !hbmUsable s pa then .bad cUE 0 (countMiss s pa (dieOfClu c))
  else if !mine && !rangeFree s pa n then .wait s
  else .ok (if effHome pte pa = 3 then homeRd s pa n else cohRd s pa n) (noteUe s pa n)

/-- An engine can write bytes on the package now. -/
def engCanWrite (s : State) (pa n : Nat) : Bool := isScratch pa || (!hbmWaits s pa && (!hbmUsable s pa || rangeFree s pa n))

/-- Write bytes on the package on behalf of an engine, at lines that are free or whose turn it has. -/
def engWrite (s : State) (k : Colour) (c pa : Nat) (bs : List Byte) (pte : W64) : State :=
  if isScratch pa then scrWr s k (pa / 2 ^ 19 % 512) (pa % 2 ^ 19) (wrAll bs) (pteTol pte)
  else if !hbmUsable s pa then countMiss s pa (dieOfClu c)
  else homeWr (if effHome pte pa = 3 then s else recallRange s pa bs.length) pa (wrAll bs) (pteTol pte)

end Sys2Proof.Machine
end

