-- ==== Sys2Proof/Machine/Coherence.lean ====
section
/-! DEFINITION. Messages between the L1Ds and the home directories (R150 to R154). -/

namespace Sys2Proof.Machine

/-- A request of a cluster needs a line of a SHARED page in its L1D: `store` asks for stores. -/
def wantsLine (store : Bool) (c line : Nat) (r : Request) : Bool :=
  r.home == c && r.phase == .issued &&
    (if store then [0x71, 0x73, 0x91].contains r.opcode else [0x70, 0x72, 0x90].contains r.opcode) &&
    r.ranges.any (fun x => overlaps x.1 x.2 (128 * line) 128) &&
    r.pages.any (fun p => match p.res with
      | .ok pa pte => pa / 4096 == line / 32 && pteCls pte == 2 && (effHome pte pa == 0 || effHome pte pa == 2) &&
          decide (p.need == (if store then .store else .load))
      | _ => false)

/-- The mapping of a HOME 2 page through which a request of a cluster wants a line: the VF and the line's virtual address (R149). -/
def wantsPin (s : State) (store : Bool) (c line : Nat) : Option (Nat × Nat) :=
  s.reqs.findSome? (fun r => if wantsLine store c line r.2 then
    r.2.pages.findSome? (fun p => match p.res with
      | .ok pa pte => if pa / 4096 = line / 32 ∧ pteHome pte = 2 then
          (vfOfReq s r.2).map (fun v => (v, p.va + 128 * (line % 32))) else none
      | _ => none)
    else none)

/-- The directory takes a request of a cluster for a line: its entry has room, the line belongs to the cluster's partition (R154),
and one of a HOME 2 page has a pinned way (R149). -/
def dirTakes (s : State) (c line : Nat) (pin : Option (Nat × Nat)) : Bool :=
  dirRoom s line && hbmUsable s (128 * line) && (pin.isNone || pinReady s c line) &&
    match ownerPart s (128 * line), partOfClu s c with
    | some (p, _), some q => p == q
    | _, _ => false

/-- GETS (R151, R152): for a load that misses. -/
def execGets (cluster line : W64) (s : State) : Host.Outcome State Fault Refusal :=
  let c := cluster.toNat
  let l := line.toNat
  let pin := wantsPin s false c l
  .next (if (l1Find s c l).isNone && s.reqs.any (fun r => wantsLine false c l r.2) && dirTakes s c l pin then
    dirRequest s l (.gets c pin) else s)

/-- GETX (R151, R152): for a store to a line that the cluster does not hold in M or E. -/
def execGetx (cluster line : W64) (s : State) : Host.Outcome State Fault Refusal :=
  let c := cluster.toNat
  let l := line.toNat
  let has := match l1Find s c l with
    | some x => x.st != .s
    | none => false
  let pin := wantsPin s true c l
  .next (if !has && s.reqs.any (fun r => wantsLine true c l r.2) && dirTakes s c l pin then dirRequest s l (.getx c pin) else s)

/-- PUTX (R150, R151): a cluster evicts a line that it owns; a dirty one is written back, and a stale message is dropped. -/
def execPutx (cluster line : W64) (s : State) : Host.Outcome State Fault Refusal :=
  let c := cluster.toNat
  .next (match l1Find s c line.toNat with
    | some l => if l.st = .s || locked s line.toNat then s else l1Evict s c line.toNat
    | none => s)

/-- DIRECTORY_RMW (R151, R189): an issued atomic or reduction to HBM4 arrives at the home of its line, where it waits behind those that
came before; the line is cleared to I for one of HOME 0 or 2. -/
def execDirectoryRmw (req : W64) (s : State) : Host.Outcome State Fault Refusal :=
  let id := req.toNat
  .next (match s.req? id with
    | none => s
    | some r => match pagePa r.pages (n64 r.opa 0).toNat with
      | none => s
      | some (pa, pte) =>
        if r.phase = .issued && r.isRmw && isHbm pa && hbmUsable s pa && accessGate s r then dirRequest s (pa / 128) (rmwTurn id pa pte)
        else s)

/-- DIRECTORY_EVICTION (R151): an entry that is neither busy nor waited for, and whose line is not locked (R201). -/
def execDirectoryEviction (line : W64) (s : State) : Host.Outcome State Fault Refusal :=
  .next (match dirFind s line.toNat with
    | some e => if e.busy.isNone && e.queue.isEmpty && !locked s line.toNat then dirRequest s line.toNat .evict else s
    | none => s)

/-- PROBE (R151, R152): a cluster answers. -/
def execProbe (cluster line : W64) (s : State) : Host.Outcome State Fault Refusal :=
  .next (match dirFind s line.toNat with
    | some e => if e.busy.isSome && e.probes.contains cluster.toNat then probeAnswer s cluster.toNat line.toNat e else s
    | none => s)

/-- PROBE_ACK (R152): the last answer has reached a busy entry; one that is ready for an access that has gone serves what waits. -/
def execProbeAck (line : W64) (s : State) : Host.Outcome State Fault Refusal :=
  .next (match dirFind s line.toNat with
    | some e => match e.busy with
      | some r =>
        if e.got then (if r.alive s then s else dirDone s line.toNat r)
        else if e.probes.isEmpty then dirFinish s line.toNat e r else s
      | none => s
    | none => s)

end Sys2Proof.Machine
end

