-- ==== Sys2Proof/Machine/Solder.lean ====
section
/-! DEFINITION. The solder engines: MCAS, its checks, locks and result (R198 to R206). -/

namespace Sys2Proof.Machine

/-! ## The parameter block (Tables 8.5, 8.6) -/

/-- Reason codes of MCASATTR (Table 8.7). -/
def mBLOCK : BitVec 8 := 1
/-- HEADER. -/
def mHEADER : BitVec 8 := 2
/-- ALIGN. -/
def mALIGN : BitVec 8 := 3
/-- HOME. -/
def mHOME : BitVec 8 := 4
/-- DUP. -/
def mDUP : BitVec 8 := 5
/-- XPART. -/
def mXPART : BitVec 8 := 6
/-- OVERLAP. -/
def mOVERLAP : BitVec 8 := 7

/-- Entries of a block. -/
structure McasEnt where
  /-- ADDR. -/
  addr : Nat
  /-- EXP. -/
  exp : W64
  /-- NEW. -/
  new : W64
  deriving DecidableEq, Repr

/-- Entry `i` of a block's bytes. -/
def mcasEnt (bs : List Byte) (i : Nat) : McasEnt :=
  let f (at_ : Nat) : Nat := leNat ((bs.drop (16 + 32 * i + at_)).take 8)
  { addr := f 0, exp := BitVec.ofNat 64 (f 8), new := BitVec.ofNat 64 (f 16) }

/-- Check 3 of R199 on the header's low 64 bits. -/
def mcasHeaderBad (h : Nat) : Bool :=
  decide (h % 256 < 2) || decide (8 < h % 256) || h / 256 % 4 == 3 || h / 1024 % 4 != 3 || h / 4096 != 0

/-- Where a target lies. -/
structure McasTgt where
  /-- Its entry. -/
  ent : McasEnt
  /-- Its physical address. -/
  pa : Nat
  /-- Its leaf entry. -/
  pte : W64
  /-- log2 of its page. -/
  size : Nat
  /-- Address of the leaf entry. -/
  pteAt : Nat
  deriving DecidableEq, Repr

/-- Check 6 of R199 for one entry: the fault, or its translation; none while the walk waits. -/
def mcasXlat (s : State) (k : Colour) (e : McasEnt) : Option (Except (BitVec 8 × BitVec 8 × Nat) McasTgt) :=
  match walk s k.vf e.addr with
  | .wait => none
  | .fault a b => some (.error (a, b, e.addr))
  | .ue _ => some (.error (cUE, 0, e.addr))
  | .leaf p size at_ =>
    let pa := leafPa p size e.addr
    if isScratch pa && decide (k.nlt ≤ pa / 2 ^ 19 % 512) then some (.error (cPGFLT, rBADHOME, e.addr))
    else match permReason .atomic p with
      | some r => some (.error (cPERM, r, e.addr))
      | none => some (.ok { ent := e, pa := pa, pte := p, size := size, pteAt := at_ })

/-- Check 6 for the entries in order. -/
def mcasXlats (s : State) (k : Colour) : List McasEnt → Option (Except (BitVec 8 × BitVec 8 × Nat) (List McasTgt))
  | [] => some (.ok [])
  | e :: rest => match mcasXlat s k e with
    | none => none
    | some (.error x) => some (.error x)
    | some (.ok t) => match mcasXlats s k rest with
      | some (.ok ts) => some (.ok (t :: ts))
      | r => r

/-- The target shares its physical address with a later one. -/
def hasDup : List McasTgt → Option McasTgt
  | [] => none
  | t :: rest => if rest.any (fun x => x.pa == t.pa) then some t else hasDup rest

/-- Checks 7 to 10 of R199: the reason and the address that fails. -/
def mcasAttr (s : State) (k : Colour) (bpa n : Nat) (ts : List McasTgt) : Option (BitVec 8 × Nat) :=
  match ts.find? (fun t => !(effHome t.pte t.pa == 0 || effHome t.pte t.pa == 2)) with
  | some t => some (mHOME, t.ent.addr)
  | none => match hasDup ts with
    | some t => some (mDUP, t.ent.addr)
    | none => match ts.find? (fun t => xpart s k.part t.pte t.pa) with
      | some t => some (mXPART, t.ent.addr)
      | none => (ts.find? (fun t => overlaps t.pa 8 bpa n)).map (fun t => (mOVERLAP, t.ent.addr))

/-- Make the pages of the targets SHARED before the first lock is asked for, as R156 says with cluster `c` (R157, R199): PERM XPART where
an owner lies in another partition; none while an entry waits. -/
def mcasShare (s : State) (k : Colour) (c : Nat) : List McasTgt → Option (Except (BitVec 8 × BitVec 8 × Nat) State)
  | [] => some (.ok s)
  | t :: rest => match walk s k.vf t.ent.addr with
    | .leaf p size at_ =>
      if pteCls p = 2 then mcasShare s k c rest
      else if pteCls p = 1 then
        match sharePage s (partOfClu s c) k.vf t.ent.addr p size at_ with
        | .xpart => some (.error (cPERM, rXPART, t.ent.addr))
        | .wait => none
        | .ok s1 => mcasShare s1 k c rest
      else if !pteFree s at_ then none
      else mcasShare (pteWrite s at_ (pteClassify p 2 (if pteCls p = 0 then c else pteOwner p))) k c rest
    | .fault a b => some (.error (a, b, t.ent.addr))
    | _ => none

/-- A rising list of the lines of physical addresses. -/
def linesOfPas (pas : List Nat) : List Nat := (pas.map (· / 128)).foldl setIns []

/-- A solder slot of a cluster that is free (R205). -/
def freeSolder (cl : Cluster) : Option Nat := (List.range 4).find? (fun n => (mapGet? cl.solder n).isNone)

/-- Every check has passed: the engine takes the MCAS. -/
def mcasStart (s : State) (k : Colour) (id : Nat) (r : Request) (slot scope : Nat) (ts : List McasTgt) : State :=
  let pas := ts.map (·.pa)
  let run : McasRun :=
    { req := id, count := ts.length, pas := pas, exps := ts.map (·.ent.exp), news := ts.map (·.ent.new), ptes := ts.map (·.pte),
      todo := linesOfPas pas, asked := none, held := [], performed := false, obs := [], mm := 0, ue := false, toWrite := [],
      toAck := [], start := 0, last := 0, scope := BitVec.ofNat 2 scope, withdrawn := false, wrote := 0 }
  (s.updReq id (fun q => { q with sy := if scope = 2 then 1 else 3, epoch := k.ep, data := 0, lineRd := false })).updClu r.home (fun c =>
    { c with solder := mapPut c.solder slot run })

/-- The walk of a target met a table that no range covers, or that has failed: it is counted on the engine's die (R162). -/
def countWalks (s : State) (k : Colour) (c : Nat) (es : List McasEnt) : State :=
  es.foldl (fun s e => match walk s k.vf e.addr with
    | .ue a => countMiss s a (dieOfClu c)
    | _ => s) s

/-- Checks 5 to 10 of R199 on the entries of a block, and the start of the MCAS. -/
def mcasEntries (s : State) (k : Colour) (id : Nat) (r : Request) (slot scope pa : Nat) (es : List McasEnt) : State :=
  let attr (s : State) (x : BitVec 8) (a : Nat) : State := haltReq s id r cMCASATTR x a
  match es.find? (fun e => e.addr % 8 != 0) with
  | some e => attr s mALIGN e.addr
  | none => match mcasXlats s k es with
    | none => s
    | some (.error (a, b, va)) => haltReq (if a = cUE then countWalks s k r.home (es.filter (fun e => e.addr == va)) else s) id r a b va
    | some (.ok ts) => match mcasAttr s k pa (16 + 32 * es.length) ts with
      | some (x, va) => attr s x va
      | none => match mcasShare s k r.home ts with
        | none => s
        | some (.error (a, b, va)) => haltReq s id r a b va
        | some (.ok s1) => mcasStart s1 k id r slot scope ts

/-- The number of a solder engine as a unit that reads off the package, for one request. -/
def mcasUnit (id : Nat) : Nat := 131072 + id

/-- The engine reads the 16-byte header of the block: check 3 of R199 follows. -/
def mcasHeader (s : State) (k : Colour) (id : Nat) (r : Request) (blk pa : Nat) (pte : W64) : State :=
  match engRead s k r.home (mcasUnit id) blk pa 16 pte false with
  | .wait s1 => s1
  | .bad a b s1 => haltReq (outsideDrop s1 (mcasUnit id) pa 16) id r a b blk
  | .ok hb s1 => match deliverBytes s1 k .x pte pa hb with
    | none => haltReq s1 id r cUE 0 blk
    | some (h, s1) =>
      let s2 := outsideDrop s1 (mcasUnit id) pa 16
      let w := leNat (h.take 8)
      if mcasHeaderBad w then haltReq s2 id r cMCASATTR mHEADER blk
      else if 4096 < blk % 4096 + (16 + 32 * (w % 256)) then haltReq s2 id r cMCASATTR mBLOCK blk
      else s2.updReq id (fun q => { q with data := BitVec.ofNat 512 w, lineRd := true })

/-- The checks of R199 with the block's page translated: the header is read first, then the whole block. -/
def mcasBlock (s : State) (k : Colour) (id : Nat) (r : Request) (slot blk pa : Nat) (pte : W64) : State :=
  let s0 := if r.lineRd then s else mcasHeader s k id r blk pa pte
  match s0.req? id with
  | none => s0
  | some q =>
    if !q.lineRd then s0
    else
      let w := q.data.toNat
      let n := 16 + 32 * (w % 256)
      match engRead s0 k r.home (mcasUnit id) blk pa n pte false with
      | .wait s1 => s1
      | .bad a b s1 => haltReq (outsideDrop s1 (mcasUnit id) pa n) id q a b blk
      | .ok bb s1 => match deliverBytes (outsideDrop s1 (mcasUnit id) pa n) k .x pte pa bb with
        | none => haltReq s1 id q cUE 0 blk
        | some (bs, s2) => mcasEntries s2 k id q slot (w / 256 % 4) pa ((List.range (w % 256)).map (mcasEnt bs))

/-- The request runs in a solder slot already. -/
def inSolder (cl : Cluster) (id : Nat) : Bool := cl.solder.any (fun x => x.2.req == id)

/-- MCAS_CHECKS (R199, R205). -/
def execMcasChecks (req : W64) (s : State) : Host.Outcome State Fault Refusal :=
  let id := req.toNat
  .next (match s.req? id with
    | none => s
    | some r => match s.col? r.colour.toNat, freeSolder (s.clu r.home) with
      | some k, some slot =>
        let blk := (n64 r.opa 0).toNat
        if r.opcode != 0x7D || r.phase ≠ .issued || inSolder (s.clu r.home) id then s
        else if (frame? s r.colour r.frame).any (·.phase.gone) then s.delReq id
        else if cutStops k || !(earlierOpen s r).isEmpty then s
        else if blk % 16 ≠ 0 then haltReq s id r cMCASATTR mBLOCK blk
        else match engXlat s k r.home (blk / 4096 * 4096) .block with
          | .bad a b s1 => haltReq s1 id r a b blk
          | .wait s1 => s1
          | .ok pa pte s1 => mcasBlock s1 k id r slot blk (pa + blk % 4096) pte
      | _, _ => s)

/-! ## Locks (R200 to R203) -/

/-- An MCAS that runs at a cluster. -/
def mcasRun? (s : State) (c slot : Nat) : Option McasRun := mapGet? (s.clu c).solder slot

/-- Change an MCAS that runs. -/
def updMcas (s : State) (c slot : Nat) (f : McasRun → McasRun) : State :=
  s.updClu c (fun x => { x with solder := mapUpd x.solder slot f })

/-- The frame of an MCAS has been killed, or a cut withdraws it before it holds every lock (R203). -/
def mcasLeaves (s : State) (r : Request) : Bool :=
  match s.col? r.colour.toNat, frame? s r.colour r.frame with
  | some k, some x => x.phase.gone || cutStops k
  | _, _ => true

/-- LOCK_REQUEST (R200 to R203): the next line's request reaches its home; at SY scope the wait of R175 comes first. An MCAS that leaves
asks for no more. -/
def execLockRequest (cluster slot : W64) (s : State) : Host.Outcome State Fault Refusal :=
  let c := cluster.toNat
  let n := slot.toNat
  .next (match mcasRun? s c n with
    | none => s
    | some m => match m.todo, s.req? m.req with
      | line :: rest, some r =>
        if m.asked.isSome || m.withdrawn || m.ue || r.sy != 3 || mcasLeaves s r then s
        else
          let first := m.held.isEmpty
          dirRequest (updMcas s c n (fun m => { m with
            todo := rest, asked := some line, start := if first then s.clk else m.start })) line (.lock c n)
      | _, _ => s)

/-- The line is locked for an engine. -/
def lockedFor (s : State) (line c slot : Nat) : Bool :=
  (s.die (lineDie s line)).locks.any (fun k => k.line == line && k.cluster == c && k.slot == slot)

/-- A line of targets came with an error on a page without TOL, or from a place that no range covers (R206). -/
def mcasLineBad (s : State) (m : McasRun) (line : Nat) : Bool :=
  !hbmUsable s (128 * line) ||
    ((m.pas.zip m.ptes).any (fun t => t.1 / 128 == line && !pteTol t.2) && (homeLine s line).2 != 0)

/-- The word of a target as the engine observes it (R164, R200). -/
def mcasWord (s : State) (pa : Nat) (pte : W64) : W64 :=
  BitVec.ofNat 64 (leNat (substitute .x (pteSubn pte) pa (homeRd s pa 8)))

/-- Every lock is held: the MCAS performs (R200). -/
def mcasPerform (s : State) (c slot : Nat) (m : McasRun) : State :=
  let tgts := m.pas.zip m.ptes
  let obs := tgts.map (fun t => mcasWord s t.1 t.2)
  let subs := (tgts.filter (fun t => pteTol t.2 && anyBad (homeRd s t.1 8))).length
  let mm := ((obs.zip m.exps).zipIdx).foldl (fun (b : BitVec 8) x => if x.1.1 = x.1.2 then b else b ||| (1#8 <<< x.2)) 0
  let s1 := tgts.foldl (fun s t => noteUe s t.1 8) s
  updMcas ((List.range subs).foldl (fun s _ => countTol s (cluPart s c)) s1) c slot (fun m =>
    { m with performed := true, obs := obs, mm := mm, toWrite := m.held })

/-- LOCK_GRANT (R200, R203, R206): the line has been locked for the engine; an MCAS that leaves takes no lock more. -/
def execLockGrant (cluster slot : W64) (s : State) : Host.Outcome State Fault Refusal :=
  let c := cluster.toNat
  let n := slot.toNat
  .next (match mcasRun? s c n with
    | none => s
    | some m => match m.asked with
      | none => s
      | some line =>
        if m.withdrawn || !lockedFor s line c n || (s.req? m.req).any (mcasLeaves s) then s
        else
          let m1 := { m with asked := none, held := m.held ++ [line], last := s.clk }
          if mcasLineBad s m line then
            updMcas (countMiss s (128 * line) (dieOfClu c)) c n (fun _ => { m1 with ue := true, todo := [], toWrite := m1.held })
          else
            let s1 := updMcas s c n (fun _ => m1)
            if m1.todo.isEmpty then mcasPerform s1 c n m1 else s1)

/-- Write the new words of a line. -/
def mcasWrite (s : State) (m : McasRun) (line : Nat) : State :=
  ((m.pas.zip (m.news.zip m.ptes))).foldl (fun s t =>
    if t.1 / 128 = line then homeWr s t.1 (wrAll (natBytes 8 t.2.1.toNat)) (pteTol t.2.2) else s) s

/-- WRITE_AND_UNLOCK (R200, R201): the home writes when every compare succeeded, and unlocks. -/
def execWriteAndUnlock (cluster slot line : W64) (s : State) : Host.Outcome State Fault Refusal :=
  let c := cluster.toNat
  let n := slot.toNat
  let l := line.toNat
  .next (match mcasRun? s c n with
    | none => s
    | some m =>
      if !m.toWrite.contains l then s
      else
        let s1 := if m.performed && m.mm == 0 && !m.ue then mcasWrite s m l else s
        updMcas (unlockLine s1 l c n) c n (fun m => { m with
          toWrite := m.toWrite.filter (· != l), held := m.held.filter (· != l), toAck := m.toAck ++ [l] }))

/-- WAITCLK: clk from the first lock request to the last grant, saturating (Table 8.5). -/
def McasRun.waitClk (m : McasRun) : Nat := min (m.last - m.start) (2 ^ 32 - 1)

/-- The bytes of the block's header that the engine writes: STATUS, MISMASK, zeros and WAITCLK. -/
def McasRun.headBytes (m : McasRun) : List Byte :=
  [if m.mm = 0 then 1 else 2, m.mm, 0, 0] ++ natBytes 4 m.waitClk

/-- The result token (R204). -/
def McasRun.result (m : McasRun) : W512 :=
  BitVec.ofNat 512 ((if m.mm = 0 then 1 else 0) + m.mm.toNat * 2 ^ 8 + m.waitClk * 2 ^ 32)

/-- The writes of an engine to its parameter block: address in the block and bytes. -/
def McasRun.blockWrites (m : McasRun) : List (Nat × List Byte) :=
  if m.ue then [(8, [3])]
  else (m.obs.zipIdx.map (fun o => (16 + 32 * o.2 + 24, natBytes 8 o.1.toNat))) ++ [(8, m.headBytes)]

/-- How the writes to a parameter block stand. -/
inductive BlockPut where
  /-- They have all performed. -/
  | done (s : State)
  /-- Some have still to be made or acknowledged. -/
  | wait (s : State)
  /-- The host has refused a page (R279). -/
  | bad (cause reason : BitVec 8) (s : State)

/-- Write the parameter block with plain stores (R200): one off the package by messages, each acknowledged before the result. -/
def mcasPut (s : State) (k : Colour) (c slot : Nat) (r : Request) (m : McasRun) : BlockPut :=
  let blk := (n64 r.opa 0).toNat
  match engXlat s k r.home (blk / 4096 * 4096) .block with
  | .bad _ _ s1 => .done s1
  | .wait s1 => .wait s1
  | .ok pa pte s1 =>
    let base := pa + blk % 4096
    if isRemote base then
      match m.blockWrites.drop m.wrote with
      | [] => if r.tags.isEmpty then .done s1 else .wait s1
      | w :: _ => match sendRemote s1 r.colour (.req m.req m.wrote) (.write w.2.length (fullMask w.2.length)) (base + w.1)
          (bytesData w.2) [] with
        | .wait s2 => .wait s2
        | .failed s2 => .bad cPGFLT rHOSTPF s2
        | .sent t s2 => .wait (updMcas (s2.updReq m.req (fun q => { q with tags := q.tags ++ [t] })) c slot (fun m =>
            { m with wrote := m.wrote + 1 }))
    else if engCanWrite s1 base (16 + 32 * m.count) then
      .done (m.blockWrites.foldl (fun s w => engWrite s k r.home (base + w.1) w.2 pte) s1)
    else .wait s1

/-- UNLOCK_ACK (R200, R204, R206): with the last acknowledgement the block is written and the result leaves. A refusal of the host as the
block is written halts the frame at the MCAS (log entry 101). -/
def execUnlockAck (cluster slot : W64) (s : State) : Host.Outcome State Fault Refusal :=
  let c := cluster.toNat
  let n := slot.toNat
  let done (s : State) : State := s.updClu c (fun x => { x with solder := mapDel x.solder n })
  .next (match mcasRun? s c n with
    | none => s
    | some m =>
      if m.withdrawn || !(m.performed || m.ue) || !m.toWrite.isEmpty then s
      else match s.req? m.req with
        | none => done s
        | some r => match s.col? r.colour.toNat with
          | none => done s
          | some k => match mcasPut s k c n r m with
            | .wait s1 => s1
            | .bad a b s1 => haltReq (done s1) m.req r a b (n64 r.opa 0).toNat
            | .done s1 =>
              if m.ue then haltReq (done s1) m.req r cUE 0 (n64 r.opa 0).toNat
              else performReq (done s1) m.req r m.result)

/-- A lock request is withdrawn from the queue of its home. -/
def dirWithdraw (s : State) (line c slot : Nat) : State :=
  match dirFind s line with
  | some e => dirPut s { e with queue := e.queue.filter (fun q => q != .lock c slot) }
  | none => s

/-- LOCK_WITHDRAWAL (R203): one lock is released, or the queued request withdrawn; after the last the MCAS is recorded in the
cut, or discarded after a kill. -/
def execLockWithdrawal (cluster slot : W64) (s : State) : Host.Outcome State Fault Refusal :=
  let c := cluster.toNat
  let n := slot.toNat
  .next (match mcasRun? s c n with
    | none => s
    | some m => match s.req? m.req with
      | none => s.updClu c (fun x => { x with solder := mapDel x.solder n })
      | some r =>
        if m.performed || m.ue || !(m.withdrawn || mcasLeaves s r) then s
        else match m.held with
          | l :: rest => unlockLine (updMcas s c n (fun m => { m with withdrawn := true, held := rest })) l c n
          | [] => match m.asked with
            | some l =>
              let s1 := updMcas s c n (fun m => { m with withdrawn := true, asked := none })
              if (dirFind s l).bind (·.busy) = some (.lock c n) then updMcas s c n (fun m => { m with withdrawn := true })
              else if lockedFor s l c n then unlockLine s1 l c n
              else dirWithdraw s1 l c n
            | none =>
              let s1 := s.updClu c (fun x => { x with solder := mapDel x.solder n })
              match frame? s r.colour r.frame with
              | some x => if x.phase.gone then s1.delReq m.req else s1
              | none => s1.delReq m.req)

end Sys2Proof.Machine
end

