-- ==== Sys2Proof/Machine/Copy.lean ====
section
/-! DEFINITION. The copy engines: commands, pieces and QFENCE (R181 to R183, R377 to R381, R455). -/

namespace Sys2Proof.Machine

/-! ## Accepting a command (R181, R378, R379) -/

/-- The buffer waits for every wave-earlier store, atomic and reduction of the frame (R181). -/
def copyWaits (s : State) (r : Request) : Bool :=
  (earlierOpen s r).any (fun x => !([0x70, 0x72, 0x74, 0x90].contains x.opcode))

/-- A copy queue of a colour. -/
def copyQ (k : Colour) (n : Nat) : CopyQ := mapGet k.copyq n CopyQ.reset

/-- Commands that a queue holds. -/
def CopyQ.commands (q : CopyQ) : Nat := (q.items.filter (fun i => match i with | .cmd _ => true | .fence _ => false)).length

/-- Change a copy queue. -/
def updCopyQ (s : State) (c : BitVec 12) (n : Nat) (f : CopyQ → CopyQ) : State :=
  s.updCol c.toNat (fun k => { k with copyq := mapPut k.copyq n (f (copyQ k n)) })

/-- The command takes its place and its number, which its destinations receive (R379). -/
def copyAccept (s : State) (id : Nat) (r : Request) (n : Nat) (ps : List PageRef) (k : Colour) : State :=
  let q := copyQ k n
  let cmd : CopyCmd :=
    { num := q.accepted, frame := r.frame, ty := r.common.ty, wp := r.opcode == 0x81, src := cpySrc r.opa, dst := cpyDst r.opa,
      len := cpyLen r.opa, off := 0, acked := 0, pages := ps, data := none, snap := [], tags := [],
      part := 0, acks := [] }
  performReq (updCopyQ s r.colour n (fun q => { q with accepted := q.accepted + 1, items := q.items ++ [.cmd cmd] })) id r
    (BitVec.ofNat 512 (q.accepted.toNat + n * 2 ^ 32))

/-- COPY_COMMAND_ACCEPT (R181, R378, R379): the queue home translates both ranges and accepts the command. -/
def execCopyCommandAccept (req : W64) (s : State) : Host.Outcome State Fault Refusal :=
  let id := req.toNat
  .next (match s.req? id with
    | none => s
    | some r => match s.col? r.colour.toNat with
      | none => s
      | some k =>
        let n := cpyQueue r.opa
        let c := queueHome s r.colour
        if !(r.opcode == 0x80 || r.opcode == 0x81) || r.phase ≠ .issued || cutStops k || copyWaits s r ||
            decide (64 ≤ (copyQ k n).commands) then s
        else
          let first (a g : Nat) : Nat := max a g
          match engPages s k c .load (granules (cpySrc r.opa) (cpyLen r.opa)) with
          | ((_, some (a, b, g), _), s1) => haltReq s1 id r a b (first (cpySrc r.opa) g)
          | ((_, none, true), s1) => s1
          | ((ps, none, false), s1) => match engPages s1 k c .store (granules (cpyDst r.opa) (cpyLen r.opa)) with
            | ((_, some (a, b, g), _), s2) => haltReq s2 id r a b (first (cpyDst r.opa) g)
            | ((_, none, true), s2) => s2
            | ((qs, none, false), s2) => copyAccept s2 id r n (ps ++ qs) k)

/-! ## Pieces (R380, R381) -/

/-- The translations of one side of a command. -/
def CopyCmd.side (c : CopyCmd) (store : Bool) : List PageRef := c.pages.filter (fun p => p.need == (if store then .store else .load))

/-- The physical parts of a virtual range with their leaf entries, in order. -/
def entryParts (ps : List PageRef) (a n : Nat) : List (Nat × Nat × W64) :=
  ps.filterMap (fun p => match p.res with
    | .ok pa pte => if overlaps a n p.va 4096 then
        some (pa + (max a p.va - p.va), min (a + n) (p.va + 4096) - max a p.va, pte) else none
    | _ => none)

/-- Bytes of the current piece. -/
def CopyCmd.size (c : CopyCmd) : Nat := min 64 (c.len - c.off)

/-- The source and the destination of a command share a byte. -/
def CopyCmd.selfOverlap (c : CopyCmd) : Bool :=
  (physParts (c.side false) c.src c.len).any (fun x => (physParts (c.side true) c.dst c.len).any (fun y => overlaps x.1 x.2 y.1 y.2))

/-- The number of a copy queue as a unit that reads off the package. -/
def copyUnit (col : BitVec 12) (n : Nat) : Nat := 16384 + 16 * col.toNat + n

/-- The lines of HBM4 that parts lie in, rising: where a copy waits for a solder lock (R201). -/
def partLines (ps : List (Nat × Nat × W64)) : List Nat :=
  (ps.flatMap (fun p => if isHbm p.1 then linesOf p.1 p.2.1 else [])).foldl setIns []

/-- Read the parts of a piece in order, for a command of type TY: errors on TOL pages are substituted by it (R163). A part that no range
covers, or whose read the host or a peer has refused, counts as in error (log entry 103). -/
def copyReadParts (s : State) (k : Colour) (c unit : Nat) (ty : Ty) : List (Nat × Nat × W64) → Option (List (Byte × Bool)) × State
  | [] => (some [], s)
  | (pa, n, pte) :: rest =>
    let got (bs : List RdByte) (s : State) : List (Byte × Bool) × State :=
      match deliverBytes s k ty pte pa bs with
      | some (vs, s1) => (vs.map (fun b => (b, false)), s1)
      | none => (bs, s)
    let here : Option (List (Byte × Bool)) × State := match engRead s k c unit pa pa n pte true with
      | .ok bs s1 => let x := got bs s1; (some x.1, x.2)
      | .wait s1 => (none, s1)
      | .bad _ _ s1 => if isRemote pa then let x := got (List.replicate n (0, true)) s1; (some x.1, x.2)
          else (some (List.replicate n (0, true)), s1)
    match here with
    | (none, s1) => (none, s1)
    | (some bs, s1) => match copyReadParts s1 k c unit ty rest with
      | (none, s2) => (none, s2)
      | (some cs, s2) => (some (bs ++ cs), s2)

/-- Read bytes of a command's source: the copy first has its turn at every line (R201), and waits on a stack that is not ready. -/
def copyRead (s : State) (k : Colour) (c : Nat) (col : BitVec 12) (n : Nat) (cmd : CopyCmd) (off len : Nat) :
    Option (List (Byte × Bool)) × State :=
  let ps := entryParts (cmd.side false) (cmd.src + off) len
  let turn := enterLines s (.piece col.toNat n) (partLines ps)
  if !turn.1 then (none, turn.2)
  else
    let x := copyReadParts turn.2 k c (copyUnit col n) cmd.ty ps
    let s1 := leaveLines x.2 (.piece col.toNat n) (partLines ps)
    if x.1.isNone then (none, s1)
    else (x.1, ps.foldl (fun s p => outsideDrop s (copyUnit col n) p.1 p.2.1) s1)

/-- A byte of the source, by its place in the range, has been written by an earlier piece of the command. -/
def CopyCmd.wrote (c : CopyCmd) (i : Nat) : Bool :=
  match pagePa (c.side false) (c.src + i) with
  | some (pa, _) => (physParts (c.side true) c.dst c.off).any (fun y => overlaps pa 1 y.1 y.2)
  | none => false

/-- Choose for each byte between the source as it stands and as it stood before the command, where an earlier piece has written
it (R380; log entry 2). -/
def copyChoose (s : State) (c : CopyCmd) : List (Byte × Bool) → Nat → List (Byte × Bool) × State
  | [], _ => ([], s)
  | b :: rest, i =>
    if c.wrote i then
      let d := s.drawBit
      let x := copyChoose d.2 c rest (i + 1)
      ((if d.1 then b else (c.snap.getD i 0, false)) :: x.1, x.2)
    else
      let x := copyChoose s c rest (i + 1)
      (b :: x.1, x.2)

/-- The current command of a queue with one of its fields changed. -/
def updHeadCmd (s : State) (col : BitVec 12) (n : Nat) (f : CopyCmd → CopyCmd) : State :=
  updCopyQ s col n (fun q => { q with items := match q.items with
    | .cmd c :: rest => .cmd (f c) :: rest
    | l => l })

/-- Mark the granule of a physical address poisoned (R164, R380). -/
def poisonAt (s : State) (k : Colour) (pa : Nat) : State :=
  if isScratch pa then
    match anchorOf k (pa / 2 ^ 19 % 512) with
    | some a => s.updTile a (fun t => { t with bad := setIns t.bad (pa % 2 ^ 19 / 32) })
    | none => s
  else match sliceFind s (pa / 128) with
    | some _ => sliceUpd s (pa / 128) (fun l => { l with bad := l.bad ||| (1#4 <<< (pa % 128 / 32)) })
    | none => hbmSetBad s pa true

/-- The part of a piece at which its writing stands, with the bytes before it in the piece. -/
def partAt (done : Nat) : List (Nat × Nat × W64) → Nat → Option ((Nat × Nat × W64) × Nat)
  | [], _ => none
  | p :: rest, before => if done ≤ before then some (p, before) else partAt done rest (before + p.2.1)

/-- The current part of a piece has been written or sent. -/
def partDone (s : State) (col : BitVec 12) (n : Nat) (m : Nat) : State :=
  updHeadCmd s col n (fun x => { x with part := x.part + m, acks := [] })

/-- Write a part off the package: it counts in ACKOUT from here on, and waits for its translation and for room (R175, R279). A page that
the host has refused leaves the part unwritten (log entry 103). -/
def copySend (s : State) (col : BitVec 12) (n : Nat) (cmd : CopyCmd) (pa m : Nat) (bs : List (Byte × Bool)) : State :=
  let bad := bs.any (·.2)
  let out := (bs.zipIdx).map (fun b => if b.1.2 then Config.poisonByte (pa + b.2) else b.1.1)
  if cmd.acks.isEmpty && !ackRoom s col.toNat then s
  else
    let u := if cmd.acks.isEmpty then ackUps s col.toNat 1 else (s, cmd.acks)
    match sendRemote u.1 col (.copy col n cmd.num true cmd.off) (.write m (fullMask m)) pa (bytesData out) u.2 bad with
    | .sent t s1 => partDone (updHeadCmd s1 col n (fun x => { x with tags := x.tags ++ [t] })) col n m
    | .wait s1 => updHeadCmd s1 col n (fun x => { x with acks := u.2 })
    | .failed s1 => partDone (u.2.foldl (fun s e => ackDown s col.toNat (some e)) s1) col n m

/-- Write a part on the package, once it has its turn at its lines (R201); errors go with it (R164, R380). -/
def copyPut (s : State) (k : Colour) (c : Nat) (col : BitVec 12) (n : Nat) (p : Nat × Nat × W64) (bs : List (Byte × Bool)) : State :=
  if isHbm p.1 && hbmWaits s p.1 then s
  else
    let turn := enterLines s (.piece col.toNat n) (partLines [p])
    if !turn.1 then turn.2
    else
      let s1 := engWrite turn.2 k c p.1 (bs.map Prod.fst) p.2.2
      let s2 := (bs.zipIdx).foldl (fun s b => if b.1.2 then poisonAt s k (p.1 + b.2) else s) s1
      partDone (leaveLines s2 (.piece col.toNat n) (partLines [p])) col n p.2.1

/-- The first byte of the destination that is not known to have performed: a piece off the package counts once it is
acknowledged. -/
def copyAcked (s : State) (col : BitVec 12) (n : Nat) (cmd : CopyCmd) : Nat :=
  (s.host.out ++ s.wick.out).foldl (fun m o => match o.who with
    | .copy c q num true off => if c = col ∧ q = n ∧ num = cmd.num then min m off else m
    | _ => m) cmd.off

/-- The command at the head of a queue has performed its last piece: DONE passes it (R183). -/
def copyEnd (s : State) (col : BitVec 12) (n : Nat) : State :=
  match s.col? col.toNat with
  | none => s
  | some k => match (copyQ k n).items with
    | .cmd c :: rest =>
      let a := copyAcked s col n c
      if c.off = c.len && c.tags.isEmpty then updCopyQ s col n (fun q => { q with done := q.done + 1, items := rest })
      else updHeadCmd s col n (fun c => { c with acked := a })
    | _ => s

/-- Take the next step of the command at the head of a queue: read its piece, or write the part of it that comes next. -/
def copyStep (s : State) (k : Colour) (col : BitVec 12) (n : Nat) (c : CopyCmd) : State :=
  let home := queueHome s col
  if c.off = c.len then copyEnd s col n
  else match c.data with
    | none =>
      let take (s : State) (c : CopyCmd) : State := match copyRead s k home col n c c.off c.size with
        | (none, s1) => s1
        | (some bs, s1) =>
          let x := copyChoose s1 c bs c.off
          updHeadCmd x.2 col n (fun _ => { c with data := some x.1, acks := [] })
      if c.off = 0 && c.selfOverlap && c.snap.isEmpty then
        match copyRead s k home col n c 0 c.len with
        | (none, s1) => s1
        | (some all, s1) => updHeadCmd s1 col n (fun _ => { c with snap := all.map Prod.fst })
      else take s c
    | some bs =>
      match partAt c.part (entryParts (c.side true) (c.dst + c.off) c.size) 0 with
      | none => copyEnd (updHeadCmd s col n (fun x => { x with data := none, off := x.off + c.size, part := 0 })) col n
      | some (p, before) =>
        let here := (bs.drop before).take p.2.1
        if isRemote p.1 then copySend s col n c p.1 p.2.1 here else copyPut s k home col n p here

/-- COPY_PIECE (at a cut a command stops at the end of its piece, R261; R163, R181, R183, R380, R381): the piece is read by one step and
written by a later one. -/
def execCopyPiece (colour queue : W64) (s : State) : Host.Outcome State Fault Refusal :=
  let col : BitVec 12 := colour.setWidth 12
  let n := queue.toNat
  .next (match s.col? col.toNat with
    | none => s
    | some k => match (copyQ k n).items with
      | .cmd c :: _ => if cutStops k && c.data.isNone && decide (c.off < c.len) then s else copyStep s k col n c
      | _ => s)

/-- An acknowledgement of a piece off the package. -/
def copyAnswer (s : State) (col : BitVec 12) (n : Nat) (num : BitVec 32) (tag : Nat) : State :=
  match s.col? col.toNat with
  | none => s
  | some k => match (copyQ k n).items with
    | .cmd c :: _ => if c.num = num then copyEnd (updHeadCmd s col n (fun x => { x with tags := x.tags.erase tag })) col n else s
    | _ => s

/-! ## QFENCE (R182, R455) -/

/-- The QFENCE at the head of a queue has passed it. -/
def passFence (s : State) (col : BitVec 12) (idx n : Nat) : State :=
  match s.col? col.toNat with
  | none => s
  | some k => match (copyQ k n).items with
    | .fence i :: rest => if i = idx then
        (updCopyQ s col n (fun q => { q with items := rest })).updCol col.toNat (fun k => { k with
          qfences := mapUpd k.qfences idx (fun f => { f with left := f.left.filter (· != n) }) })
      else s
    | _ => s

/-- QFENCE_RELEASE (R182, R455): earlier commands of every named queue have performed, acknowledgements included. -/
def execQfenceRelease (colour idx : W64) (s : State) : Host.Outcome State Fault Refusal :=
  let col : BitVec 12 := colour.setWidth 12
  let i := idx.toNat
  .next (match (s.col? col.toNat).bind (fun k => if cutStops k then none else mapGet? k.qfences i) with
    | none => s
    | some q =>
      let s1 := q.left.foldl (fun s n => passFence s col i n) s
      match (s1.col? col.toNat).bind (fun k => mapGet? k.qfences i) with
      | none => s1
      | some q1 =>
        if !q1.left.isEmpty then s1
        else unitReturn (s1.updCol col.toNat (fun k => { k with qfences := mapDel k.qfences i })) col q.lstake
          (resultOut (Common.ofWord (wordOf s1 col q.lstake))
            (mkToken q.data q.fmt col q.frame q.wave (tileOfStake s1 col q.lstake))))

end Sys2Proof.Machine
end

