-- ==== Sys2Proof/Machine/Tokens.lean ====
section
/-! DEFINITION. Tokens at ports: arrival, the matching store, spilling and re-injection, misfits, strays, and the loading and
flipping of banks (R36, R62 to R67, R70, R74 to R78, R81, R86, R87, R241, R242, R247). -/

namespace Sys2Proof.Machine

/-! ## Channels that a step names (log entry 1) -/

/-- The kind of producer in bits [19:18] of a source argument. -/
def srcKindOf (n : BitVec 2) : SrcKind :=
  match n.toNat with
  | 0 => .stake
  | 1 => .unit
  | 2 => .task
  | _ => .spill

/-- The channel that a step's colour, source and destination name. -/
def argKey (colour src dst : W64) : ChanKey :=
  { colour := colour.setWidth 12, kind := srcKindOf (src.extractLsb' 18 2), lsrc := src.extractLsb' 2 16,
    dfield := src.extractLsb' 0 2, ldst := dst.extractLsb' 2 16, port := dst.extractLsb' 0 2 }

/-- The spill engine's channel into a port (R84). -/
def spillKey (c : BitVec 12) (l : BitVec 16) (p : BitVec 2) : ChanKey :=
  { colour := c, kind := .spill, lsrc := 0, dfield := 0, ldst := l, port := p }

/-- What becomes of a token that asks to be taken. -/
inductive Accept where
  /-- It has been taken. -/
  | done (s : State)
  /-- It stays where it is. -/
  | stay

/-! ## Spilling (R74, R76, R78) -/

/-- A token is written to the colour's spill queue; a write that faults is reported and waits with the engine (R76). -/
def spillTok (s : State) (c : BitVec 12) (k : Colour) (tile : Nat) (key : ChanKey) (t : Token) : Accept :=
  if spillStuck s k tile then .stay
  else match spillWrite s c key t tile false with
    | .ok _ s1 => .done s1
    | .wait _ => .stay
    | .fault cause reason va s1 =>
      .done ((areaFaultEvent s1 c k.vf cause reason va).updCol c.toNat
        (fun k => { k with spillFault := k.spillFault ++ [{ key := key, tok := t, misfit := false }], retry := s1.clk }))

/-- The stake may be sent a spilled token: it has entered the round of a cut in flight, and no cut serves a save. -/
def takesSpill (k : Colour) (st : StakeSt) : Bool :=
  !cutStops k && match k.cut with
    | some _ => st.round != k.round
    | none => true

/-- A spilled token of the colour is on its way back to the tile. -/
def spillFlies (s : State) (c : BitVec 12) (tile : Nat) : Bool :=
  (netOf s c).any (fun x => x.key.kind == .spill && !x.items.isEmpty && tileOfStake s c x.key.ldst == tile)

/-- Nothing but a row keeps the engine from sending a spilled token: its stake may be sent it, and its channel has room. -/
def spillOpen (s : State) (c : BitVec 12) (k : Colour) (e : SpillEnt) : Bool :=
  (match stake? s c e.key.ldst with
    | some st => takesSpill k st
    | none => true) && chanRoom s (spillKey c e.key.ldst e.key.port)

/-- A spilled token is taking the row that is free at its tile: the engine sends it as soon as there is one, and what arrives in between
waits for it (R77). -/
def spillReturns (s : State) (c : BitVec 12) (k : Colour) (tile : Nat) : Bool :=
  k.running && rowFree s tile k c && (spillFlies s c tile ||
    (k.spilled.find? (fun e => !e.beyond && tileOfStake s c e.key.ldst == tile)).any (spillOpen s c k))

/-- Look a token up at its tile (R74): a re-injected one waits for its row, any other is spilled where it gets none. -/
def lookupTok (s : State) (c : BitVec 12) (tile : Nat) (st : StakeSt) (key : ChanKey) (t : Token) : Accept :=
  match s.col? c.toNat with
  | none => .stay
  | some k =>
    let again := key.kind == .spill
    match matchLookup s c k tile st t (!again && (spilledFor s c k tile || spillStuck s k tile)) with
    | some s1 => .done s1
    | none => if again || spillReturns s c k tile then .stay else spillTok s c k tile key t

/-- A header reaches a consumer's MATCH port: it is latched, or its frame stops (R66, R67, R70). -/
def latchTok (s : State) (c : BitVec 12) (tile : Nat) (st : StakeSt) (t : Token) : State :=
  if t.ok && hdrOk t.data then updStake s c st.lstake (fun x =>
    setLatch x t.port.toNat { pair := x.pairKey c t.frame, hdr := t.data, count := 0, sent := false })
  else refuseHeader s c tile st t

/-- Some token of a channel still waits at a MATCH port for its lookup. -/
def Port.waitsLookup (p : Port) (key : ChanKey) : Bool := p.buf.any (fun i => i.key == key && i.tok.kind != 1 && !i.misfit)

/-- A token asks its port to take it (R62, R63, R66, R67, R71, R74, R81). -/
def acceptTok (s : State) (c : BitVec 12) (tile : Nat) (st : StakeSt) (key : ChanKey) (t : Token) : Accept :=
  let p := t.port.toNat
  let put (misfit : Bool) : Accept :=
    if st.portReady p then .done (settleHead (updStake s c st.lstake (fun x => x.setPort p { x.port p with
        buf := (x.port p).buf ++ [{ key := key, tok := t, misfit := misfit }] })) c st.lstake)
    else .stay
  if isMisfit st t then put true
  else if (st.port p).bounded key then put false
  else if st.isMatch then
    if (st.port p).waitsLookup key then put false
    else if st.latches p && t.fmt == 7 then .done (latchTok s c tile st t)
    else lookupTok s c tile st key t
  else match s.col? c.toNat with
    | some k => if key.kind != .spill && spilledAt s c k st.lstake t.port then .stay else put false
    | none => .stay

/-! ## Tokens that wait at a tile -/

/-- Look up one token that waits at a MATCH port. -/
def presentItem (s : State) (c : BitVec 12) (l : BitVec 16) (i : PItem) : Option State :=
  match findStake s c l with
  | none => none
  | some (tile, _, st) =>
    let p := i.tok.port.toNat
    let s1 := updStake s c l (fun x => x.setPort p ((x.port p).remove i))
    if st.latches p && i.tok.fmt == 7 then some (latchTok s1 c tile st i.tok)
    else match lookupTok s1 c tile st i.key i.tok with
      | .done s2 => some s2
      | .stay => none

/-- Look up, in arrival order, the tokens that wait at the MATCH ports of a stake and that nothing holds (R81). -/
def presentHeld (s : State) (c : BitVec 12) (l : BitVec 16) : State :=
  match stake? s c l with
  | none => s
  | some st =>
    if !st.isMatch then s else
    let items := [0, 1, 2, 3].flatMap (fun p => (freeItems [] (st.port p).buf).filter (fun i => !i.misfit))
    (items.foldl (fun (acc : State × List ChanKey) i =>
      if acc.2.contains i.key then acc
      else match presentItem acc.1 c l i with
        | some s1 => (s1, acc.2)
        | none => (acc.1, i.key :: acc.2)) (s, [])).1

/-- Present to their ports, in arrival order, the tokens that waited at a tile for its flip (R87). -/
def presentEarly (s : State) (tile : Nat) : State :=
  ((s.tile tile).early.foldl (fun (acc : State × List (BitVec 16 × BitVec 2)) i =>
    let c := i.tok.colour
    let open_ : Bool := match acc.1.col? c.toNat with
      | some k => !k.unflipped.contains tile
      | none => false
    if !open_ || acc.2.contains (i.tok.lstake, i.tok.port) then acc
    else match stake? acc.1 c i.tok.lstake with
      | none => acc
      | some st =>
        let s1 := acc.1.updTile tile (fun x => { x with early := x.early.erase i })
        match acceptTok s1 c tile st i.key i.tok with
        | .done s2 => (match s2.col? c.toNat with
            | some k => rowBits s2 k i.tok.lstake c
            | none => s2, acc.2)
        | .stay => (acc.1, (i.tok.lstake, i.tok.port) :: acc.2)) (s, [])).1

/-! ## Arrival -/

/-- The frame is in the colour's retiring set (R36). -/
def Colour.purging (k : Colour) (f : BitVec 12) : Bool :=
  match mapGet? k.frames f.toNat with
  | some x => x.phase == .purging
  | none => false

/-- The weave of a colour is in neither bank of a tile (R241). -/
def weaveAbsent (s : State) (c : BitVec 12) (k : Colour) (tile : Nat) : Bool := k.loadReq || ((s.tile tile).bankOf c).isNone

/-- A token of an absent weave is spilled and counted, and the weave is asked for (R241). -/
def spillAbsent (s : State) (c : BitVec 12) (k : Colour) (tile : Nat) (key : ChanKey) (t : Token) : Accept :=
  match spillTok s c k tile key t with
  | .stay => .stay
  | .done s1 => .done ((s1.updTile tile (fun x => { x with cfgmiss := countUp x.cfgmiss 1 })).updCol c.toNat (fun k =>
      { k with loadReq := true }))

/-- A token of an incoming weave takes a row until the flip, or is spilled (R87). -/
def waitFlip (s : State) (c : BitVec 12) (k : Colour) (tile : Nat) (key : ChanKey) (t : Token) : Accept :=
  if rowFree s tile k c && !spilledFor s c k tile && !spillStuck s k tile then
    .done (rowBits (s.updTile tile (fun x => { x with early := x.early ++ [{ key := key, tok := t, misfit := false }] })) k t.lstake c)
  else spillTok s c k tile key t

/-- The tile is the first unit to read what a token carries beside its CHK: KIND 3 or a parity error is handled there (R70). -/
def Token.mangled (t : Token) : Bool := t.kind == 3 || t.parityErr

/-- A token of the channel waits at the tile since before its flip: what follows it on the channel stays behind it (R73, R87). -/
def Tile.keepsEarly (t : Tile) (key : ChanKey) : Bool := t.early.any (fun i => i.key == key)

/-- The token at the head of a channel reaches its tile. -/
def arriveTok (s : State) (key : ChanKey) : State :=
  let c := key.colour
  match chanPop s key with
  | none => s
  | some (t, s1) =>
    if t.kind = 1 then s
    else match s1.col? c.toNat with
      | none => s
      | some k =>
        let tile := tileOfStake s1 c key.ldst
        let go (a : Accept) : State := match a with
          | .done s2 => s2
          | .stay => s
        if !(s.part k.part).hasColour c.toNat then s
        else if k.purging t.frame then countPurged s1 c 1
        else if t.mangled then corruptTok s1 c tile (wordOf s1 c key.ldst) key.ldst t
        else if weaveAbsent s1 c k tile then go (spillAbsent s1 c k tile key t)
        else if k.unflipped.contains tile then go (waitFlip s1 c k tile key t)
        else if (s1.tile tile).keepsEarly key then s
        else match stake? s1 c key.ldst with
          | none => s
          | some st => go (acceptTok s1 c tile st key t)

/-- What waits at the destination of a channel is presented first. -/
def settleTile (s : State) (key : ChanKey) : State :=
  presentHeld (presentEarly s (tileOfStake s key.colour key.ldst)) key.colour key.ldst

/-- TOKEN_ARRIVAL (R36, R62, R63, R66, R67, R70 to R74, R76 to R78, R81, R87, R241). -/
def execTokenArrival (colour src dst : W64) (s : State) : Host.Outcome State Fault Refusal :=
  .next (arriveTok (settleTile s (argKey colour src dst)) (argKey colour src dst))

/-! ## Spill queues -/

/-- Try the writes that have faulted again, in order. -/
def retrySpills (s : State) (c : BitVec 12) : List PItem → State
  | [] => s
  | i :: rest =>
    let s1 := match spillWrite s c i.key i.tok (tileOfStake s c i.key.ldst) false with
      | .ok _ s1 => s1.updCol c.toNat (fun k => { k with spillFault := k.spillFault.erase i })
      | .fault _ _ _ s1 => s1
      | .wait s1 => s1
    retrySpills s1 c rest

/-- The oldest token of a channel that lies beyond its capacity and has not been written to the spill queue. -/
def firstOver (items : List ChanItem) (cap : Nat) : Option (Nat × Token) :=
  items.zipIdx.findSome? (fun x => match x.1 with
    | .tok t => if cap ≤ x.2 then some (x.2, t) else none
    | .beyond _ => none)

/-- The overflow writes of an extended channel are made again, in channel order; the fuel is the number of its entries. A fault is
reported once (R76, R244). -/
def retryOverflow : Nat → State → ChanKey → State
  | 0, s, _ => s
  | n + 1, s, key =>
    let items := chanItems s key
    let tell (s : State) : State := s.updCol key.colour.toNat (fun k => { k with
      ovf := k.ovf.map (fun x => if x.1 == key then (key, true) else x) })
    match firstOver items (chanCap s key), s.col? key.colour.toNat with
    | some (i, t), some k => match spillWrite s key.colour key t (tileOfStake s key.colour key.ldst) true with
      | .ok _ s1 => retryOverflow n (chanSet s1 key (items.set i (.beyond k.spillNext)) true) key
      | .wait _ => s
      | .fault cause reason va s1 =>
        if k.ovf.contains (key, true) then s1 else tell (areaFaultEvent s1 key.colour k.vf cause reason va)
    | _, _ => s.updCol key.colour.toNat (fun k => { k with ovf := k.ovf.filter (·.1 != key) })

/-- SPILL_WRITE_RETRY (R76): the spec bounds the time between two tries, so a try may come at any time. -/
def execSpillWriteRetry (colour : W64) (s : State) : Host.Outcome State Fault Refusal :=
  let c : BitVec 12 := colour.setWidth 12
  .next (match s.col? c.toNat with
    | some k => if k.spillFault.isEmpty && k.ovf.isEmpty then s
      else (k.ovf.foldl (fun s x => retryOverflow ((chanItems s x.1).length + 1) s x.1) (retrySpills s c k.spillFault)).updCol c.toNat
        (fun k => { k with retry := s.clk })
    | none => s)

/-- The spilled token that is sent next: the oldest of its tile, where a row is free and no older one is still on its way, so
that none overtakes another (R77). -/
def nextSpill (s : State) (c : BitVec 12) (k : Colour) : List Nat → List SpillEnt → Option SpillEnt
  | _, [] => none
  | seen, e :: rest =>
    let tile := tileOfStake s c e.key.ldst
    if e.beyond then nextSpill s c k seen rest
    else if seen.contains tile then nextSpill s c k seen rest
    else
      if rowFree s tile k c && !spillFlies s c tile && spillOpen s c k e then some e
      else nextSpill s c k (tile :: seen) rest

/-- SPILL_REINJECT (R77, R78, R239): the token goes to the stake's slot of this moment. -/
def execSpillReinject (colour : W64) (s : State) : Host.Outcome State Fault Refusal :=
  let c : BitVec 12 := colour.setWidth 12
  .next (match s.col? c.toNat with
    | none => s
    | some k =>
      if !k.running then s
      else match nextSpill s c k [] k.spilled with
        | none => s
        | some e => match spillRead s c e.seq with
          | some (t, s1) => chanPush s1 (spillKey c e.key.ldst e.key.port) t
          | none => s)

/-! ## Misfits and strays -/

/-- A misfit leaves its port in a firing slot of the tile: by the stake's misfit route, or by a trap where it has none (R64). -/
def forwardMisfit (s : State) (c : BitVec 12) (tile : Nat) (st : StakeSt) (p : Nat) (i : PItem) : State :=
  let s1 := settleHead (putStake (useSlot s tile none) c (st.setPort p ((st.port p).remove i))) c st.lstake
  match misfitRoute st with
  | none => haltFrame s1 c i.tok.frame cILLOP 0 0 st.lstake [tokenRecord st.word i.tok st.lstake cILLOP false]
  | some d =>
    let key := destKey c .stake st.lstake d.1 d.2
    if chanRoom s key then chanPush s1 key { i.tok.to d.2 with src := tile } else s

/-- MISFIT_FORWARD (R57, R64, R344). -/
def execMisfitForward (colour lstake port : W64) (s : State) : Host.Outcome State Fault Refusal :=
  let c : BitVec 12 := colour.setWidth 12
  .next (match s.col? c.toNat, findStake s c (lstake.setWidth 16) with
    | some k, some (tile, _, st) =>
      let p := port.toNat
      match misfitNext k st tile p with
      | none => s
      | some i =>
        if k.running && !cutHolds k st && issueOpen s && slotFree s (fireAt tile c k st (OpSet.empty.put p i.tok)) then
          forwardMisfit s c tile st p i
        else s
    | _, _ => s)

/-- The token at the head of a channel is a stray: its colour is foreign or unbound, or its slot is empty (R242, R247). -/
def isStray (s : State) (key : ChanKey) (t : Token) : Bool :=
  match s.col? key.colour.toNat with
  | none => true
  | some k =>
    let tile := tileOfStake s key.colour key.ldst
    !(s.part k.part).hasColour key.colour.toNat ||
      (!k.purging t.frame && !weaveAbsent s key.colour k tile && !k.unflipped.contains tile && (stake? s key.colour key.ldst).isNone)

/-- STRAY_REJECT (R29, R242, R247). -/
def execStrayReject (colour src dst : W64) (s : State) : Host.Outcome State Fault Refusal :=
  let key := argKey colour src dst
  .next (match chanPop s key with
    | none => s
    | some (t, s1) => if t.kind != 1 && isStray s1 key t then strayAt s1 (tileOfStake s1 key.colour key.ldst) t else s)

/-- STRAY_RETURN (R242): the source tile, at the step's place, stops the sending frame. -/
def execStrayReturn (s : State) : Host.Outcome State Fault Refusal :=
  .next (match takeFirst (fun t => t.src == s.cur.place) s.strays with
    | none => s
    | some (t, rest) =>
      haltFrame { s with strays := rest } t.colour t.frame cSTRAY 0 0 t.lstake
        [tokenRecord (wordOf s t.colour t.lstake) t t.lstake cSTRAY false])

/-! ## Loading and flipping banks -/

/-- The VF that owns a colour holds its partition, or none does (R232, R241). -/
def holdsPart (s : State) (v : Nat) : Bool :=
  (s.vf v).holds || !s.vfs.any (fun x => x.2.holds && x.2.part == (s.vf v).part)

/-- WEAVE_LOAD (R241, R511): an absent weave is loaded into shadow banks. -/
def execWeaveLoad (colour : W64) (s : State) : Host.Outcome State Fault Refusal :=
  let c : BitVec 12 := colour.setWidth 12
  .next (match s.col? c.toNat with
    | none => s
    | some k =>
      if !k.loadReq || !holdsPart s k.vf then s
      else match weave? s k.vf k.weave with
        | some w => install s c w
        | none => s)

/-- UPSETT_ARRIVAL at the tile that is the step's place: the upsett token that follows the configuration data there arrives, and
the banks flip (R39, R86, R87). -/
def execUpsettArrival (s : State) : Host.Outcome State Fault Refusal :=
  let t := s.cur.place
  .next (match (s.tile t).upsett with
    | none => s
    | some u => match s.col? u.colour.toNat with
      | some k =>
        if u.kind = 2 && (s.tile t).shadow.colour = some u.colour && k.unflipped.contains t then presentEarly (flipTile s t) t else s
      | none => s)

end Sys2Proof.Machine
end

