-- ==== Sys2Proof/Machine/Rounds.lean ====
section
/-! DEFINITION. Wale markers, rounds and cuts, the migration of stakes (R79 to R85, R224, R238 to R240, R259 to R261, R431,
R432). -/

namespace Sys2Proof.Machine

/-! ## The channels of a weave -/

/-- Opcodes whose results return through a cluster unit or a stream sequencer (R83): BAR, the control requests, MARK, RPLAY, the
memory class but for FWAIT, TMLD, TMST and the matrix class. -/
def byUnit (opc : Nat) : Bool :=
  [0x0E, 0x10, 0x11, 0x13, 0x14, 0xA7, 0xA8, 0x90, 0x91].contains opc || (0x98 ≤ opc && opc ≤ 0x9C) ||
    (0x70 ≤ opc && opc ≤ 0x82 && opc != 0x79)

/-- The producer of a back-edge: WAVEADV or RETAG (R82). -/
def isBackEdge (opc : Nat) : Bool := opc == 0x08 || opc == 0x0B

/-- The channel of a destination field of a stake: results of a unit travel on its return channel, misfits on the stake's own. -/
def outKey (c : BitVec 12) (st : StakeSt) (d : Nat × Dest) : ChanKey :=
  destKey c (if byUnit st.opc && !d.2.q then .unit else .stake) st.lstake d.1 d.2

/-- Forward input channels of a stake (R80, R82, R84): from every producer that is no back-edge, and the task-start path into an
entry. -/
def forwardInputs (s : State) (c : BitVec 12) (st : StakeSt) : List ChanKey :=
  (stakesOf s c).flatMap (fun p =>
    if isBackEdge p.opc then [] else ((allDests p.common).filter (fun d => d.2.lstake == st.lstake)).map (outKey c p)) ++
    (if st.entry then [taskKey c st.lstake] else [])

/-- The boundary record of a channel lies in the stake's port (R79). -/
def marked (st : StakeSt) (key : ChanKey) : Bool := (st.port key.port.toNat).bounded key

/-! ## Arrival of a marker (R79, R81, R82) -/

/-- A marker reaches its port: it leaves a boundary record; one of an earlier round, on a back-edge, is absorbed. -/
def markerAt (s : State) (c : BitVec 12) (key : ChanKey) (t : Token) : State :=
  match stake? s c key.ldst with
  | none => s
  | some st =>
    if st.round.toNat ≠ t.data.toNat then s
    else updStake s c key.ldst (fun x =>
      let p := x.port key.port.toNat
      x.setPort key.port.toNat { p with buf := p.buf ++ [{ key := key, tok := t, misfit := false }] })

/-- The marker at the head of a channel reaches its tile, behind what the channel brought before its flip (R73); one that fails its
checks is handled as every token is (R70; log entry 97). -/
def arriveMarker (s : State) (key : ChanKey) : State :=
  match chanPop s key with
  | none => s
  | some (t, s1) =>
    let tile := tileOfStake s1 key.colour key.ldst
    if t.kind ≠ 1 || (s1.tile tile).keepsEarly key then s
    else if t.ok then markerAt s1 key.colour key t
    else corruptTok s1 key.colour tile (wordOf s1 key.colour key.ldst) key.ldst t

/-- WALE_MARKER_ARRIVAL (R70, R73, R79, R81, R82). -/
def execWaleMarkerArrival (colour src dst : W64) (s : State) : Host.Outcome State Fault Refusal :=
  .next (arriveMarker (settleTile s (argKey colour src dst)) (argKey colour src dst))

/-! ## Entering a round (R80) -/

/-- An EVENT firing of the stake whose record has not been written. -/
def eventPending (s : State) (k : Colour) (c : BitVec 12) (l : BitVec 16) : Bool :=
  ((s.vf k.vf).q.evbuf ++ (s.vf k.vf).q.pend).any (fun e => match e.emit with
    | some (m, t) => m == l && t.colour == c
    | none => false)

/-- The stake may enter the round that the marker in flight leads to; its markers find room (R72, R80). -/
def mayEnter (s : State) (c : BitVec 12) (k : Colour) (st : StakeSt) : Bool :=
  k.inflight && st.round == k.round && st.out.isEmpty && !eventPending s k c st.lstake &&
    (forwardInputs s c st).all (marked st) &&
    !(netOf s c).any (fun x => x.key.kind == .spill && x.key.ldst == st.lstake && !x.items.isEmpty) &&
    ((allDests st.common).map (outKey c st)).all (fun key => key.kind == .unit || chanRoom s key)

/-- A port without boundary records. -/
def Port.unbound (p : Port) : Port := { p with buf := p.buf.filter (fun i => i.tok.kind != 1) }

/-- A stake without boundary records. -/
def StakeSt.unbound (st : StakeSt) : StakeSt :=
  { st with pa := st.pa.unbound, pb := st.pb.unbound, pc := st.pc.unbound, pt := st.pt.unbound }

/-- Results of the MARKs that joined the round (R431): an N32 token with the new round for each destination. -/
def markResults (s : State) (c : BitVec 12) (k : Colour) (w : BitVec 16) : List (BitVec 16 × List Emission) :=
  (k.marks.map (fun m => (m.lstake, resultOut (Common.ofWord (wordOf s c m.lstake))
    (mkToken (w.setWidth 512) 0 c m.frame m.wave (tileOfStake s c m.lstake))))).filter (fun e => !e.2.isEmpty)

/-- Every stake has entered: ROUND advances, INFL clears, and the MARKs have their results (R84, R431, R432). -/
def finishRound (s : State) (c : BitVec 12) : State :=
  match s.col? c.toNat with
  | none => s
  | some k =>
    let w := k.round + 1
    s.updCol c.toNat (fun k => { k with
      round := w, out := k.out ++ markResults s c k w, marks := [], wdFrom := s.clk,
      cut := match k.cut with
        | some x => if x.why = .round then none else some { x with whole := true }
        | none => none })

/-- The round is complete once no stake is left behind. -/
def checkRound (s : State) (c : BitVec 12) : State :=
  match s.col? c.toNat with
  | some k => if k.inflight && (stakesOf s c).all (fun st => st.round != k.round) then finishRound s c else s
  | none => s

/-- The stake enters the round: it records its state, sends its markers, and what it held is presented (R80, R81). -/
def enterRound (s : State) (c : BitVec 12) (k : Colour) (st : StakeSt) : State :=
  let keys := (allDests st.common).map (outKey c st)
  let tile := tileOfStake s c st.lstake
  let s1 := (keys.filter (fun key => key.kind != .unit)).foldl (fun s key =>
    chanPush s key { mkMarker c k.round tile with lstake := key.ldst, port := key.port }) s
  let s2 := updStake s1 c st.lstake (fun x => { x.unbound with
    round := x.round + 1, fresh := true,
    unitMark := if keys.any (fun key => key.kind == .unit) then some (k.round, s.nextReq) else none })
  checkRound (presentHeld (settleHead s2 c st.lstake) c st.lstake) c

/-- ROUND_ENTRY (R80 to R82, R84, R139, R203, R224, R366, R428, R432, R459, R512). -/
def execRoundEntry (colour lstake : W64) (s : State) : Host.Outcome State Fault Refusal :=
  let c : BitVec 12 := colour.setWidth 12
  .next (match s.col? c.toNat, stake? s c (lstake.setWidth 16) with
    | some k, some st => if mayEnter s c k st then enterRound s c k st else s
    | _, _ => s)

/-! ## Injection (R84) -/

/-- Inject marker w into the task-start path of every entry; the spill engine sends nothing to a stake that has not entered. -/
def injectMarker (s : State) (c : BitVec 12) (k : Colour) (why : CutWhy) : State :=
  let keys := ((stakesOf s c).filter (·.entry)).map (fun st => taskKey c st.lstake)
  if keys.all (chanRoom s) then
    let s1 := keys.foldl (fun s key =>
      chanPush s key { mkMarker c k.round (tileOfStake s c key.ldst) with lstake := key.ldst, port := key.port }) s
    checkRound (s1.updCol c.toNat (fun k => { k with
      cut := some { why := why, start := s.clk, forced := false, whole := false }, want := none })) c
  else s

/-- A pre-emption of a colour is asked for: task starts stop (step 1 of R259). -/
def preempt (s : State) (c : BitVec 12) (why : CutWhy) : State :=
  s.updCol c.toNat (fun k => { k with noStart := true, want := if k.want.isSome then k.want else some why })

/-- MARKER_INJECTION (R84, R259, R431): for a pre-emption, else for the MARKs that wait; while a round is in flight a pre-emption
waits for its end. -/
def execMarkerInjection (colour : W64) (s : State) : Host.Outcome State Fault Refusal :=
  let c : BitVec 12 := colour.setWidth 12
  .next (match s.col? c.toNat with
    | none => s
    | some k => match k.cut, k.want with
      | none, some why =>
        if k.loadReq then s.updCol c.toNat (fun k => { k with
          cut := some { why := why, start := s.clk, forced := false, whole := true }, want := none })
        else if k.unflipped.isEmpty then injectMarker s c k why else s
      | none, none => if !k.marks.isEmpty && k.running then injectMarker s c k .round else s
      | some _, _ => s)

/-! ## Units (R83, R224, R261) -/

/-- The request reaches a host or peer window: a cut records it and does not await it (R83, R512). -/
def Request.remote (r : Request) : Bool :=
  r.opcode != 0x7D && (!r.tags.isEmpty || r.pages.any (fun p => match p.res with
    | .ok pa _ => isRemote pa
    | _ => false))

/-- An MCAS holds every lock, or has gone past them. -/
def mcasWhole (s : State) (id home : Nat) : Bool :=
  (s.clu home).solder.any (fun x => x.2.req == id && (x.2.performed || x.2.ue))

/-- An issued request that a save withdraws to the held state (R135, R203, R261, R459; log entry 23): it waits on a bit, on an
order behind another, on acknowledgements, for a ticket slot, for its copy queue, or for its locks. -/
def withdrawn (s : State) (k : Colour) (id : Nat) (r : Request) : Bool :=
  r.waiting || bitWaits s k r || !accessGate s r || r.sy == 1 || r.sy == 2 || [0x78, 0x80, 0x81].contains r.opcode ||
    (r.opcode == 0x7D && !mcasWhole s r.home id)

/-- A unit awaits a request before it forwards the marker (R83, R139, R261). -/
def awaitedReq (s : State) (k : Colour) (id : Nat) (r : Request) : Bool :=
  match r.phase with
  | .chan => !cutStops k
  | .held => false
  | .issued => !r.remote && !r.waiting && !(cutStops k && withdrawn s k id r)
  | .performed => true

/-- The unit has not yet returned the results of what it received ahead of the marker (R83); a MARK's come behind it (R432). -/
def unitBusy (s : State) (c : BitVec 12) (k : Colour) (st : StakeSt) (n : Nat) : Bool :=
  (st.opc != 0xA7 && k.out.any (fun e => e.1 == st.lstake)) ||
  s.reqs.any (fun r => r.2.colour == c && r.2.lstake == st.lstake && decide (r.1 < n) && awaitedReq s k r.1 r.2) ||
    (s.tile (tileOfStake s c st.lstake)).cmds.any (fun m => m.colour == c && m.lstake == st.lstake && m.started)

/-- A unit forwards the marker on its return channels (R83). -/
def forwardMarker (s : State) (c : BitVec 12) (st : StakeSt) (w : BitVec 16) : State :=
  let keys := ((allDests st.common).map (outKey c st)).filter (fun key => key.kind == .unit)
  if keys.all (chanRoom s) then
    updStake (keys.foldl (fun s key =>
      chanPush s key { mkMarker c w (tileOfStake s c st.lstake) with lstake := key.ldst, port := key.port }) s) c st.lstake
      (fun x => { x with unitMark := none })
  else s

/-- UNIT_MARKER_FORWARD (R83, R224, R364, R432): a result of a barrier or a round that has waited for its channels leaves, and the
marker follows once every result ahead of it has left. -/
def execUnitMarkerForward (colour lstake : W64) (s : State) : Host.Outcome State Fault Refusal :=
  let c : BitVec 12 := colour.setWidth 12
  let s1 := releaseResult s c (lstake.setWidth 16)
  .next (match s1.col? c.toNat, stake? s1 c (lstake.setWidth 16) with
    | some k, some st => match st.unitMark with
      | some (w, n) => if unitBusy s1 c k st n then s1 else forwardMarker s1 c st w
      | none => s1
    | _, _ => s1)

/-! ## Forced cuts (R260, R261) -/

/-- Local work of a colour that a save awaits has ended. -/
def drained (s : State) (c : BitVec 12) (k : Colour) : Bool :=
  !s.reqs.any (fun r => r.2.colour == c && awaitedReq s k r.1 r.2) && !s.kdecs.any (fun d => d.tok.colour == c) &&
    !s.strays.any (fun t => t.colour == c) &&
    k.tileList.all (fun t => !(s.tile t).cmds.any (fun m => m.colour == c && m.started))

/-- Write tokens of a channel to the spill queue as channel state, oldest first, while it takes them. -/
def spillChan (s : State) (c : BitVec 12) : Nat → ChanKey → State
  | 0, _ => s
  | n + 1, key =>
    match chanPop s key, s.col? c.toNat with
    | some (t, s1), some k =>
      if t.kind = 1 then spillChan s1 c n key
      else match spillTok s1 c k (tileOfStake s1 c key.ldst) key t with
        | .done s2 => spillChan s2 c n key
        | .stay => s
    | _, _ => s

/-- Entries of a port that a boundary record holds (R81). -/
def heldItems (p : Port) : List PItem :=
  (p.buf.filter (fun i => i.tok.kind != 1)).filter (fun i => !(freeItems [] p.buf).contains i)

/-- Write what stands behind the markers of a stake to the spill queue. -/
def spillHeld (s : State) (c : BitVec 12) (l : BitVec 16) : State :=
  match stake? s c l with
  | none => s
  | some st => ([st.pa, st.pb, st.pc, st.pt].flatMap heldItems).foldl (fun s i =>
    match s.col? c.toNat with
    | none => s
    | some k =>
      let p := i.tok.port.toNat
      match spillTok (updStake s c l (fun x => x.setPort p ((x.port p).remove i))) c k (tileOfStake s c l) i.key i.tok with
      | .done s1 => s1
      | .stay => s) s

/-- What a begun firing has still to emit enters its channels, group by group, while they take it (R12, R31, R72, R260); the fuel is
the number of its tokens. -/
def emitRest (s : State) (c : BitVec 12) : Nat → BitVec 16 → State
  | 0, _ => s
  | n + 1, l => match stake? s c l with
    | none => s
    | some st =>
      let x := releaseGroup s c .stake l st.common st.out
      emitRest (updStake x.1 c l (fun y => { y with out := x.2 })) c n l

/-- EVENT firings whose records wait to be written emit, and the records stay in the buffer. -/
def emitEvents (s : State) (c : BitVec 12) (v : Nat) : State :=
  let mine (e : Event) : Bool := match e.emit with
    | some (_, t) => t.colour == c
    | none => false
  let sent (e : Event) : Event := if mine e then { e with emit := none } else e
  let s1 := s.updVf v (fun f => { f with q := { f.q with evbuf := f.q.evbuf.map sent } })
  ((s.vf v).q.evbuf.filter mine).foldl (fun s e => match e.emit with
    | some (l, t) => updStake s c l (fun st => { st with out := st.out ++ (resultDests st.common).map (fun d => { d := d.1, tok := t }) })
    | none => s) s1

/-- One step of a forced cut: the channel state goes to the spill queue, of each channel first what stands behind a marker at its
port; with every begun firing emitted and the local drain over, every stake is in the new round (R260). -/
def forceCut (s : State) (c : BitVec 12) (k : Colour) : State :=
  let s0 := emitEvents (s.updCol c.toNat (fun k => { k with cut := k.cut.map (fun x => { x with forced := true }) })) c k.vf
  let s1 := k.lstakes.foldl (fun s l => spillHeld s c l) s0
  let s2 := (netOf s1 c).foldl (fun s x => spillChan s c (x.items.length + 1) x.key) s1
  let s3 := (stakesOf s2 c).foldl (fun s st => emitRest s c st.out.length st.lstake) s2
  let s4 := (netOf s3 c).foldl (fun s x => spillChan s c (x.items.length + 1) x.key) s3
  match s4.col? c.toNat with
  | none => s4
  | some k4 =>
    if drained s4 c k4 && (stakesOf s4 c).all (fun st => st.out.isEmpty) then
      finishRound (updStakes s4 c (fun st => { st.unbound with round := k4.round + 1, unitMark := none })) c
    else s4

/-- FORCED_CUT (R81, R260, R261): 12 µs after the injection, of a round that serves a pre-emption or that one waits for; the steps of
a cut that local requests hold up continue it. -/
def execForcedCut (colour : W64) (s : State) : Host.Outcome State Fault Refusal :=
  let c : BitVec 12 := colour.setWidth 12
  .next (match s.col? c.toNat with
    | some k => match k.cut with
      | some x => if (x.why != .round || k.want.isSome) && !x.whole && decide (x.start + usClk 12 ≤ s.clk) then forceCut s c k else s
      | none => s
    | none => s)

/-! ## Migration (R238 to R240) -/

/-- MIGRATION_ROUND (R238). -/
def execMigrationRound (colour : W64) (s : State) : Host.Outcome State Fault Refusal :=
  let c : BitVec 12 := colour.setWidth 12
  .next (match s.col? c.toNat with
    | none => s
    | some k =>
      let due := match k.mig with
        | none => true
        | some (_, t) => decide (t + 65536 ≤ s.clk)
      if (s.part k.part).migen && due && k.cut.isNone && k.want.isNone && k.running then
        let s1 := injectMarker s c k .round
        match s1.col? c.toNat with
        | some k1 => if k1.cut.isSome || k1.round != k.round then
            s1.updCol c.toNat (fun x => { x with mig := some (k.round + 1, s.clk), moves := 0 }) else s
        | none => s
      else s)

/-- A stake may move to a slot (R238): the round is a migration round that it has entered and not fired in, and the tile has the
rows and the operand-buffer entries for it (R14). -/
def mayMove (s : State) (c : BitVec 12) (k : Colour) (st : StakeSt) (frm tile slot : Nat) : Bool :=
  let b := (s.tile tile).active
  let rows := ((s.tile frm).rows.filter (fun t => t.colour == c && t.lstake == st.lstake)).length +
    ((s.tile frm).early.filter (fun i => i.tok.colour == c && i.tok.lstake == st.lstake)).length
  st.fresh && (match k.mig with
    | some (w, _) => w == st.round
    | none => false) &&
    decide (k.moves < (s.part k.part).migmax.toNat) && !cutStops k && k.running && !st.fix && !(0x98 ≤ st.opc && st.opc ≤ 0x9C) &&
    b.colour == some c && decide (slot < 128) && (mapGet? b.slots slot).isNone && decide (tile < 2048) &&
    (tile == frm || decide ((s.tile tile).rowsOf c + rows ≤ k.quota.toNat) &&
      decide ((s.tile tile).poolGiven + st.depths ≤ 1024) && decide ((s.tile tile).rows.length + (s.tile tile).early.length + rows ≤ 4096))

/-- No router stage holds a token for the stake, nothing else of it is on its way, and it has not fired in this clk (step 2 of
Table 10.7). -/
def moveDrained (s : State) (c : BitVec 12) (frm : Nat) (st : StakeSt) : Bool :=
  (netOf s c).all (fun x => x.key.ldst != st.lstake || x.items.isEmpty) && st.out.isEmpty &&
    !(slotsUsed s frm).contains (some st.lstake)

/-- Steps 3 and 4 of Table 10.7: the stake goes with its rows and with the tokens that wait for it since before a flip (R87, R239). -/
def moveStake (s : State) (c : BitVec 12) (st : StakeSt) (frm fslot tile slot : Nat) : State :=
  let mine (t : Token) : Bool := t.colour == c && t.lstake == st.lstake
  let rows := (s.tile frm).rows.filter mine
  let early := (s.tile frm).early.filter (fun i => mine i.tok)
  let s1 := s.updTile frm (fun t => { t.updBank c (fun b => { b with slots := mapDel b.slots fslot }) with
    rows := t.rows.filter (fun r => !mine r), early := t.early.filter (fun i => !mine i.tok) })
  let s2 := s1.updTile tile (fun t => { t.updBank c (fun b => { b with slots := mapPut b.slots slot { st with fresh := false } }) with
    rows := t.rows ++ rows, early := t.early ++ early })
  s2.updCol c.toNat (fun k => { k with
    smap := mapUpd k.smap st.lstake.toNat (fun e => { e with ptile := tile, pslot := slot }), moves := k.moves + 1 })

/-- STAKE_MOVE (R239, R240): a stake is held, drained, copied to its new slot and remapped. -/
def execStakeMove (colour lstake tile slot : W64) (s : State) : Host.Outcome State Fault Refusal :=
  let c : BitVec 12 := colour.setWidth 12
  .next (match s.col? c.toNat, findStake s c (lstake.setWidth 16) with
    | some k, some (frm, fslot, st) =>
      if mayMove s c k st frm tile.toNat slot.toNat && moveDrained s c frm st then moveStake s c st frm fslot tile.toNat slot.toNat
      else s
    | _, _ => s)

end Sys2Proof.Machine
end

