-- ==== Sys2Proof/Machine/Clock.lean ====
section
/-! DEFINITION. The passing of time and the deadlock watchdog (R19, R140, R243 to R245, R248, R459). -/

namespace Sys2Proof.Machine

/-! ## Waiting and full edges (R243) -/

/-- A request of the colour has issued and not returned; one that waits on a bit, on a queue or on a lock queue is not outstanding
(R140, R243, R459). -/
def reqOutstanding (s : State) (k : Colour) (r : Request) : Bool :=
  match r.phase with
  | .chan | .held => false
  | .issued => !r.waiting && !bitWaits s k r
  | .performed => true

/-- The colour is waiting (R243). -/
def colWaiting (s : State) (c : BitVec 12) (k : Colour) : Bool :=
  s.reqs.any (fun r => r.2.colour == c && reqOutstanding s k r.2) ||
    k.copyq.any (fun q => q.2.items.any (fun i => match i with
      | .cmd _ => true
      | .fence _ => false)) ||
    !k.spillFault.isEmpty || !k.ovf.isEmpty || (netOf s c).any (fun x => x.key.kind == .spill && !x.items.isEmpty) ||
    k.tileList.any (fun t => (s.tile t).cmds.any (fun m => m.colour == c && m.started && !m.performed)) ||
    k.frames.any (fun f => f.2.phase.halted || f.2.phase == .resuming)

/-- What a full edge can be extended as (R244). -/
inductive EdgeWhat where
  /-- A router stage or the FIFO stage behind it, by its channel. -/
  | chan (key : ChanKey)
  /-- The request channel of a stake. -/
  | req
  /-- An edge that is never extended. -/
  | never
  deriving DecidableEq, Repr

/-- A full edge: its stake and port, its capacity and what it can be extended as. -/
structure Edge where
  /-- The stake. -/
  lstake : BitVec 16
  /-- The port. -/
  port : BitVec 2
  /-- Its capacity. -/
  cap : Nat
  /-- Stages between it and its consumer. -/
  near : Nat
  /-- What it is. -/
  what : EdgeWhat
  deriving DecidableEq, Repr

/-- An edge that is never extended. -/
def fixedEdge (l : BitVec 16) (p : BitVec 2) (cap : Nat) : Edge := { lstake := l, port := p, cap := cap, near := 0, what := .never }

/-- The edge of a channel. -/
def chanEdge (s : State) (key : ChanKey) (cap near : Nat) : Edge :=
  { lstake := key.ldst, port := key.port, cap := cap, near := near, what := if chanExt s key then .never else .chan key }

/-- A FIFO port at capacity: a full stage nearest its consumer, named by the channel that filled it (R71, R243). -/
def portEdges (s : State) (st : StakeSt) : List Edge :=
  if st.isMatch then [] else
  (usedPorts st).filterMap (fun p =>
    if st.portReady p then none
    else match ((st.port p).buf.filter (fun i => i.tok.kind != 1 && i.key.dfield != 3)).getLast? with
      | some i => some (chanEdge s i.key (st.depth p) 0)
      | none => some (fixedEdge st.lstake (BitVec.ofNat 2 p) (st.depth p)))

/-- The head of a channel stalls under R78: at a MATCH port it completes no set and finds neither a row nor a spill queue that takes
it. -/
def stalls (s : State) (k : Colour) (key : ChanKey) : Bool :=
  match stake? s key.colour key.ldst, chanHead s key with
  | some st, some t =>
    let tile := tileOfStake s key.colour key.ldst
    t.kind != 1 && st.isMatch && (completes (s.tile tile) st t).isNone && (k.spillFull || spillStuck s k tile) &&
      (!rowFree s tile k key.colour || spilledFor s key.colour k tile)
  | _, _ => false

/-- The port of a channel takes nothing from it now (R71, R78). -/
def portRefuses (s : State) (k : Colour) (key : ChanKey) : Bool :=
  stalls s k key || (match stake? s key.colour key.ldst with
    | some st => !st.isMatch && !st.portReady key.port.toNat
    | none => false)

/-- Full skid buffers whose downstream stage is not ready: the last one of a channel, where its port takes nothing (R71, R243). -/
def chanEdges (s : State) (c : BitVec 12) (k : Colour) : List Edge :=
  (netOf s c).filterMap (fun x =>
    if 2 ≤ x.items.length && portRefuses s k x.key then some (chanEdge s x.key 2 1) else none)

/-- Request channels refused under R126. -/
def reqEdges (s : State) (c : BitVec 12) : List Edge :=
  (stakesOf s c).filterMap (fun st => match chanReq s c st.lstake with
    | some (_, r) =>
      if (match frame? s c r.frame with
        | some x => bufferTakes s x r
        | none => true) then none
      else some { lstake := st.lstake, port := 0, cap := 2, near := 0, what := if st.reqExt then .never else .req }
    | none => none)

/-- A firing is blocked under R34 or R207: it would begin but for a frame number, a table entry, or the owner of its bank. -/
def blockedFire (s : State) (f : Fire) : Bool :=
  match f.st.opc with
  | 0x09 => destsReady s f && !framenewReady s f
  | 0x98 | 0x9C => cmdRoom s f && !bankOpen f.st.bank s f
  | _ => false

/-- Stakes blocked under R34 or R207. -/
def blockedEdges (s : State) (c : BitVec 12) (k : Colour) : List Edge :=
  (stakesOf s c).filterMap (fun st =>
    let tile := tileOfStake s c st.lstake
    match opsOf k st tile with
    | some o => if blockedFire s (fireAt tile c k st o) then some (fixedEdge st.lstake 0 0) else none
    | none => none)

/-- Full matrix command queues. -/
def queueEdges (s : State) (k : Colour) : List Edge :=
  k.tileList.filterMap (fun t =>
    let waits := (s.tile t).cmds.filter (fun m => !m.performed)
    if 32 ≤ waits.length then waits.head?.map (fun m => fixedEdge m.lstake 0 32) else none)

/-- Matching-store edges: at each tile the oldest spilled token, where it waits for a row (R77, R243). -/
def rowEdges (s : State) (c : BitVec 12) (k : Colour) : List Edge :=
  let own (e : SpillEnt) : Nat := tileOfStake s c e.key.ldst
  k.tileList.filterMap (fun t => match k.spilled.find? (fun e => !e.beyond && own e == t) with
    | some e => if rowFree s t k c then none else some (fixedEdge e.key.ldst e.key.port 0)
    | none => none)

/-- Stalls under R78. -/
def stallEdges (s : State) (c : BitVec 12) (k : Colour) : List Edge :=
  (netOf s c).filterMap (fun x => if stalls s k x.key then some (fixedEdge x.key.ldst x.key.port 0) else none)

/-- The full edges of a colour. -/
def fullEdges (s : State) (c : BitVec 12) (k : Colour) : List Edge :=
  (stakesOf s c).flatMap (portEdges s) ++ chanEdges s c k ++ reqEdges s c ++ blockedEdges s c k ++ queueEdges s k ++
    rowEdges s c k ++ stallEdges s c k

/-- The colour is silent in this clk: it is not waiting and has a full edge (R243). -/
def isSilent (s : State) (c : BitVec 12) (k : Colour) : Bool := !colWaiting s c k && !(fullEdges s c k).isEmpty

/-! ## Time -/

/-- Time passes for one colour: silence goes on counting, is paused by a cut or by inactive tiles, or starts again. -/
def tickCol (s : State) (n : Nat) (c : Nat) (k : Colour) : Colour :=
  if !k.running || k.cut.isSome then { k with wdFrom := k.wdFrom + n }
  else if isSilent s (BitVec.ofNat 12 c) k then k
  else { k with wdFrom := s.clk + n }

/-- A die after `n` clk: errors corrected meanwhile are counted, however many there were (R349; log entry 107). -/
def tickDie (s : State) (n : Nat) (d : Nat) (x : Die) : Die :=
  let e (kind : Nat) : Nat := Config.corrected kind d s.clk n
  { x with hbmCorr := countUp x.hbmCorr (e 0), slCorr := countUp x.slCorr (e 1), retries := countUp x.retries (e 2) }

/-- Time passes: `n` clk. -/
def tick (s : State) (n : Nat) : State :=
  { s with
    clk := s.clk + n
    cols := s.cols.map (fun k => (k.1, tickCol s n k.1 k.2))
    dies := (List.range 4).map (fun d => (d, tickDie s n d (s.die d)))
    tiles := s.tiles.map (fun t => (t.1, { t.2 with scrCorr := countUp t.2.scrCorr (Config.corrected 3 t.1 s.clk n) })) }

/-! ## Expiry (R244, R245, R248) -/

/-- The edge that is extended: the smallest capacity, then the stage nearest its consumer, then the lowest stake, then the lowest
port (R244). -/
def Edge.before (a b : Edge) : Bool :=
  if a.cap ≠ b.cap then decide (a.cap < b.cap)
  else if a.near ≠ b.near then decide (a.near < b.near)
  else if a.lstake ≠ b.lstake then decide (a.lstake.toNat < b.lstake.toNat)
  else decide (a.port.toNat < b.port.toNat)

/-- The first of a list of edges in that order. -/
def firstEdge : List Edge → Option Edge
  | [] => none
  | e :: rest => match firstEdge rest with
    | none => some e
    | some x => if x.before e then some x else some e

/-- Extend an edge. -/
def extendEdge (s : State) (c : BitVec 12) (e : Edge) : State :=
  match e.what with
  | .chan key => chanSet s key (chanItems s key) true
  | .req => updStake s c e.lstake (fun st => { st with reqExt := true })
  | .never => s

/-- The DEADLK event (R245, R248). -/
def deadlkEvent (s : State) (c : BitVec 12) (e : Edge) : Event :=
  { Event.zero with
    ty := 5
    colidx := BitVec.ofNat 16 (colidx s c.toNat)
    cause := cDEADLK
    info := BitVec.ofNat 64 (e.lstake.toNat + e.port.toNat * 2 ^ 16) }

/-- The count of silence starts again. -/
def countAfresh (s : State) (c : BitVec 12) (ext posted : Bool) : State :=
  s.updCol c.toNat (fun k => { k with wdFrom := s.clk, wdExt := ext, wdPosted := posted })

/-- WDOG silent clk have passed for a colour: an edge is extended, or the colour takes DEADLK. -/
def watchdog (s : State) (c : BitVec 12) (k : Colour) : State :=
  let es := fullEdges s c k
  match firstEdge (es.filter (fun e => e.what != .never)) with
  | some e =>
    if !k.wdExt && decide (k.exts < 16) then
      (countAfresh (extendEdge s c e) c true k.wdPosted).updCol c.toNat (fun k => { k with exts := k.exts + 1 })
    else post s es
  | none => post s es
where
  /-- DEADLK is posted once until a firing follows (R248). -/
  post (s : State) (es : List Edge) : State :=
    if k.wdPosted then countAfresh s c false true
    else match firstEdge es with
      | some e => countAfresh (raise s k.vf (deadlkEvent s c e)) c false true
      | none => s

/-- WATCHDOG_EXPIRY (R140, R243 to R245, R248, R459). -/
def execWatchdogExpiry (colour : W64) (s : State) : Host.Outcome State Fault Refusal :=
  let c : BitVec 12 := colour.setWidth 12
  .next (match s.col? c.toNat with
    | some k =>
      if k.running && k.cut.isNone && isSilent s c k && decide (k.wdFrom + 2 ^ (s.part k.part).wdlog.toNat ≤ s.clk) then watchdog s c k
      else s
    | none => s)

end Sys2Proof.Machine
end

