-- ==== Sys2Proof/Machine/Crypto.lean ====
section
/-! DEFINITION. The signatures of images, reports and certificates: SHA-384 and ECDSA on the 384-bit Brainpool curve with random
parameters (R328, R346, R348). The spec names the algorithms; their constants and steps are those of FIPS 180-4, FIPS 186-5 and RFC
5639 (log entry 104). -/

namespace Sys2Proof.Machine

/-! ## SHA-384 -/

/-- The round constants: the first 64 bits of the fractional parts of the cube roots of the first 80 primes. -/
def shaK : List W64 :=
  [0x428a2f98d728ae22, 0x7137449123ef65cd, 0xb5c0fbcfec4d3b2f, 0xe9b5dba58189dbbc,
   0x3956c25bf348b538, 0x59f111f1b605d019, 0x923f82a4af194f9b, 0xab1c5ed5da6d8118,
   0xd807aa98a3030242, 0x12835b0145706fbe, 0x243185be4ee4b28c, 0x550c7dc3d5ffb4e2,
   0x72be5d74f27b896f, 0x80deb1fe3b1696b1, 0x9bdc06a725c71235, 0xc19bf174cf692694,
   0xe49b69c19ef14ad2, 0xefbe4786384f25e3, 0x0fc19dc68b8cd5b5, 0x240ca1cc77ac9c65] ++
  [0x2de92c6f592b0275, 0x4a7484aa6ea6e483, 0x5cb0a9dcbd41fbd4, 0x76f988da831153b5,
   0x983e5152ee66dfab, 0xa831c66d2db43210, 0xb00327c898fb213f, 0xbf597fc7beef0ee4,
   0xc6e00bf33da88fc2, 0xd5a79147930aa725, 0x06ca6351e003826f, 0x142929670a0e6e70,
   0x27b70a8546d22ffc, 0x2e1b21385c26c926, 0x4d2c6dfc5ac42aed, 0x53380d139d95b3df,
   0x650a73548baf63de, 0x766a0abb3c77b2a8, 0x81c2c92e47edaee6, 0x92722c851482353b] ++
  [0xa2bfe8a14cf10364, 0xa81a664bbc423001, 0xc24b8b70d0f89791, 0xc76c51a30654be30,
   0xd192e819d6ef5218, 0xd69906245565a910, 0xf40e35855771202a, 0x106aa07032bbd1b8,
   0x19a4c116b8d2d0c8, 0x1e376c085141ab53, 0x2748774cdf8eeb99, 0x34b0bcb5e19b48a8,
   0x391c0cb3c5c95a63, 0x4ed8aa4ae3418acb, 0x5b9cca4f7763e373, 0x682e6ff3d6b2b8a3,
   0x748f82ee5defb2fc, 0x78a5636f43172f60, 0x84c87814a1f0ab72, 0x8cc702081a6439ec] ++
  [0x90befffa23631e28, 0xa4506cebde82bde9, 0xbef9a3f7b2c67915, 0xc67178f2e372532b,
   0xca273eceea26619c, 0xd186b8c721c0c207, 0xeada7dd6cde0eb1e, 0xf57d4f7fee6ed178,
   0x06f067aa72176fba, 0x0a637dc5a2c898a6, 0x113f9804bef90dae, 0x1b710b35131c471b,
   0x28db77f523047d84, 0x32caab7b40c72493, 0x3c9ebe0a15c9bebc, 0x431d67c49c100d4c,
   0x4cc5d4becb3e42b6, 0x597f299cfc657e2a, 0x5fcb6fab3ad6faec, 0x6c44198c4a475817]

/-- The initial hash value of SHA-384. -/
def shaInit : List W64 :=
  [0xcbbb9d5dc1059ed8, 0x629a292a367cd507, 0x9159015a3070dd17, 0x152fecd8f70e5939,
   0x67332667ffc00b31, 0x8eb44a8768581511, 0xdb0c2e0d64f98fa7, 0x47b5481dbefa4fa4]

/-- A big-endian number. -/
def beNat (l : List Byte) : Nat := leNat l.reverse

/-- A number in `n` bytes, big-endian. -/
def beBytes (n v : Nat) : List Byte := (natBytes n v).reverse

/-- A message padded to whole blocks of 128 bytes: one bit 1, zeros, and its length in bits. -/
def shaPad (m : List Byte) : List Byte :=
  m ++ [0x80] ++ List.replicate ((239 - m.length % 128) % 128) 0 ++ beBytes 16 (8 * m.length)

/-- One word more of the message schedule, from the newest 16 words, the newest first. -/
def shaWord (w : List W64) : W64 :=
  let g (i : Nat) : W64 := w.getD (i - 1) 0
  let s0 := (g 15).rotateRight 1 ^^^ (g 15).rotateRight 8 ^^^ (g 15) >>> 7
  let s1 := (g 2).rotateRight 19 ^^^ (g 2).rotateRight 61 ^^^ (g 2) >>> 6
  s1 + g 7 + s0 + g 16

/-- The message schedule of a block, the newest word first. -/
def shaSchedule : Nat → List W64 → List W64
  | 0, w => w
  | n + 1, w => shaSchedule n (shaWord w :: w)

/-- One round on the working variables a to h. -/
def shaRound (v : List W64) (kw : W64 × W64) : List W64 :=
  let g (i : Nat) : W64 := v.getD i 0
  let e := g 4
  let a := g 0
  let t1 := g 7 + (e.rotateRight 14 ^^^ e.rotateRight 18 ^^^ e.rotateRight 41) + ((e &&& g 5) ^^^ (~~~e &&& g 6)) + kw.1 + kw.2
  let t2 := (a.rotateRight 28 ^^^ a.rotateRight 34 ^^^ a.rotateRight 39) + ((a &&& g 1) ^^^ (a &&& g 2) ^^^ (g 1 &&& g 2))
  [t1 + t2, a, g 1, g 2, g 3 + t1, e, g 5, g 6]

/-- The hash value after one block. -/
def shaBlock (h : List W64) (b : List Byte) : List W64 :=
  let w := ((List.range 16).map (fun i => BitVec.ofNat 64 (beNat ((b.drop (8 * i)).take 8)))).reverse
  List.zipWith (· + ·) h ((shaK.zip (shaSchedule 64 w).reverse).foldl shaRound h)

/-- The hash value after every block; the fuel is their number. -/
def shaRun : Nat → List W64 → List Byte → List W64
  | 0, h, _ => h
  | n + 1, h, m => shaRun n (shaBlock h (m.take 128)) (m.drop 128)

/-- The SHA-384 digest of a message. -/
def sha384 (m : List Byte) : List Byte :=
  let p := shaPad m
  ((shaRun (p.length / 128) shaInit p).take 6).flatMap (fun w => beBytes 8 w.toNat)

/-! ## The curve brainpoolP384r1 -/

/-- The prime of the field. -/
def bpP : Nat := 0x8CB91E82A3386D280F5D6F7E50E641DF152F7109ED5456B412B1DA197FB71123ACD3A729901D1A71874700133107EC53
/-- The coefficient A. -/
def bpA : Nat := 0x7BC382C63D8C150C3C72080ACE05AFA0C2BEA28E4FB22787139165EFBA91F90F8AA5814A503AD4EB04A8C7DD22CE2826
/-- The order of the base point. -/
def bpN : Nat := 0x8CB91E82A3386D280F5D6F7E50E641DF152F7109ED5456B31F166E6CAC0425A7CF3AB6AF6B7FC3103B883202E9046565

/-- A point of the curve; none is the point at infinity. -/
abbrev Point := Option (Nat × Nat)

/-- The base point. -/
def bpG : Point :=
  some (0x1D1C64F068CF45FFA2A63A81B7C13F6B8847A3E77EF14FE3DB7FCAFE0CBD10E8E826E03436D646AAEF87B2E247D4AF1E,
    0x8ABE1D7520F9C2A45CB1EB8E95CFD55262B70B29FEEC5864E19C054FF99129280E4646217791811142820341263C5315)

/-- A power modulo m, by the bits of the exponent from the lowest; the fuel bounds their number. -/
def powMod (m : Nat) : Nat → Nat → Nat → Nat → Nat
  | 0, _, _, acc => acc
  | n + 1, b, e, acc => powMod m n (b * b % m) (e / 2) (if e % 2 = 1 then acc * b % m else acc)

/-- The inverse modulo a prime of 384 bits, by Fermat's little theorem. -/
def invMod (m x : Nat) : Nat := powMod m 384 (x % m) (m - 2) 1

/-- The sum of two points. -/
def pointAdd (u v : Point) : Point :=
  match u, v with
  | none, q => q
  | q, none => q
  | some (x1, y1), some (x2, y2) =>
    let third (l : Nat) : Point :=
      let x3 := (l * l + 2 * bpP - x1 - x2) % bpP
      some (x3, (l * (x1 + bpP - x3) + bpP - y1) % bpP)
    if x1 ≠ x2 then third ((y2 + bpP - y1) * invMod bpP (x2 + bpP - x1) % bpP)
    else if (y1 + y2) % bpP = 0 then none
    else third ((3 * x1 * x1 + bpA) * invMod bpP (2 * y1) % bpP)

/-- A multiple of a point, by the bits of the factor from the lowest; the fuel bounds their number. -/
def pointMul : Nat → Nat → Point → Point → Point
  | 0, _, _, acc => acc
  | n + 1, k, q, acc => pointMul n (k / 2) (pointAdd q q) (if k % 2 = 1 then pointAdd acc q else acc)

/-- A multiple of a point by a number below 2^384. -/
def mulPoint (k : Nat) (q : Point) : Point := pointMul 384 k q none

/-! ## ECDSA with SHA-384 -/

/-- The digest of a message as a number. -/
def hashNat (m : List Byte) : Nat := beNat (sha384 m)

/-- The signature (r, s) verifies for a message under a public key. -/
def ecdsaOk (key : Nat × Nat) (m : List Byte) (r s : Nat) : Bool :=
  let w := invMod bpN s
  let x := pointAdd (mulPoint (hashNat m * w % bpN) bpG) (mulPoint (r * w % bpN) (some key))
  decide (1 ≤ r ∧ r < bpN ∧ 1 ≤ s ∧ s < bpN) && match x with
    | some (x, _) => x % bpN == r
    | none => false

/-- The signature of a message under a private key with a nonce. -/
def ecdsaSign (d k : Nat) (m : List Byte) : Nat × Nat :=
  let r := (match mulPoint (k % bpN) bpG with
    | some (x, _) => x
    | none => 0) % bpN
  (r, invMod bpN k * (hashNat m + r * d) % bpN)

/-- A public key in uncompressed point form. -/
def keyBytes (key : Nat × Nat) : List Byte := 0x04 :: (beBytes 48 key.1 ++ beBytes 48 key.2)

/-- KEYID: the first 32 bytes of the SHA-384 digest of the key in uncompressed point form (R346). -/
def keyIdOf (key : Nat × Nat) : List Byte := (sha384 (keyBytes key)).take 32

/-- The public key of a private key. -/
def publicKey (d : Nat) : Nat × Nat := (mulPoint (d % bpN) bpG).getD (0, 0)

/-- A signature as bytes: r and then s. -/
def sigBytes (x : Nat × Nat) : List Byte := natBytes 48 x.1 ++ natBytes 48 x.2

end Sys2Proof.Machine
end

