-- ==== Sys2Proof/Machine/VfReset.lean ====
section
/-! DEFINITION. The reset of a virtual function, its TDI states and the frozen registers (R293, R298 to R300), and the TDISP
steps. -/

namespace Sys2Proof.Machine

/-! ## Taking a colour away at once (R293 step 2) -/

/-- Release what a solder slot holds: its locks, its queued lock request, the request that a busy entry serves for it. The writes of an
MCAS that has performed are made first (R185, R203). -/
def freeSolder1 (s : State) (cl slot : Nat) (m : McasRun) : State :=
  let s0 := if m.performed && m.mm == 0 && !m.ue then m.toWrite.foldl (fun s l => mcasWrite s m l) s else s
  let s1 := (m.held ++ m.toWrite).foldl (fun s l => unlockLine s l cl slot) s0
  let s2 := match m.asked with
    | none => s1
    | some l =>
      match dirFind s1 l with
      | some e => if e.busy == some (DirReq.lock cl slot) then dirPut s1 { e with busy := some .evict }
          else dirWithdraw (unlockLine s1 l cl slot) l cl slot
      | none => unlockLine s1 l cl slot
  s2.updClu cl (fun x => { x with solder := mapDel x.solder slot })

/-- Drop the MCAS operations of a colour from the solder engines. -/
def dropSolder (s : State) (c : BitVec 12) : State :=
  s.clus.foldl (fun s x => x.2.solder.foldl (fun s m =>
    match s.req? m.2.req with
    | some r => if r.colour == c then freeSolder1 s x.1 m.1 m.2 else s
    | none => s) s) s

/-- A unit of the device acts for a colour: the queue of a copy engine, or the request of a solder engine. -/
def unitOf (s : State) (c : BitVec 12) (u : Nat) : Bool :=
  if u < 16384 then false
  else if u < 131072 then (u - 16384) / 16 == c.toNat
  else (s.req? (u - 131072)).any (fun r => r.colour == c)

/-- A message of a colour: one of its requests and commands, or a read of the units that act for it. -/
def ofColour (s : State) (c : BitVec 12) (o : Outbound) : Bool :=
  match o.who with
  | .device u => unitOf s c u
  | _ => o.colour == c

/-- What some units of the device have read off the package is discarded, with the answers that are on their way. -/
def dropBrought (s : State) (p : Nat → Bool) : State :=
  let go (o : Outbound) : Outbound := match o.who with
    | .device u => if p u then { o with recorded := true } else o
    | _ => o
  { s with
    host := { s.host with out := s.host.out.map go, devData := s.host.devData.filter (fun x => !p (x.1 / 2 ^ 46)) }
    wick := { s.wick with out := s.wick.out.map go } }

/-- A message that a colour's requests and commands still await. -/
def Outbound.awaitedBy (o : Outbound) (c : BitVec 12) : Bool := !o.own && !o.recorded && o.colour == c

/-- Nothing awaits the messages of a colour any longer: late responses are discarded at the port (R176, R274). -/
def forgetOut (s : State) (c : BitVec 12) : State :=
  let go (o : Outbound) : Outbound :=
    if o.awaitedBy c then { o with who := .device 0, recorded := true, epoch := none } else o
  let late (o : Outbound) : Bool := o.awaitedBy c && o.late.isSome
  let s1 := dropBrought s (unitOf s c)
  let s2 := (s1.wick.out.filter late).foldl sendRel s1
  { s2 with
    host := { s2.host with out := (s2.host.out.filter (fun o => !late o)).map go }
    wick := { s2.wick with out := (s2.wick.out.filter (fun o => !late o)).map go }
    reis := s2.reis.filter (fun o => o.colour != c) }

/-- Discard the records that wait in the task queues of a colour index. -/
def discardQueues (s : State) (p : Part) (idx : Nat) : State :=
  (List.range 8).foldl (fun s q =>
    let d := readDesc s (taskDescAt p idx q)
    if d.usable && d.count != 0 then setHead s d d.tail else s) s

/-- The SAVE command that a pre-emption of the colour serves. -/
def saveCmdOf (k : Colour) : Option (BitVec 32) :=
  let cut : Option CutWhy := k.cut.map (fun x => x.why)
  match k.want, cut with
  | some (CutWhy.save id), _ => some id
  | _, some (CutWhy.save id) => some id
  | _, _ => none

/-- A SAVE whose colour goes before it is saved ends with its event (R295); the status is the model's choice (log entry 108). -/
def endSave (s : State) (k : Colour) (status : BitVec 8) : State :=
  match saveCmdOf k with
  | some id => raisePf s (cmdEvent id status)
  | none => s

/-- End a colour at once: its frames go with their tokens, its work is dropped and it is unbound (R293 step 2); a SAVE of it ends with
status KILLED. -/
def endColour (s : State) (c : BitVec 12) : State :=
  match s.col? c.toNat with
  | none => s
  | some k =>
    let s1 := (mapVals k.frames).foldl (fun s f => purgeFrame s c f.num) s
    unbindColour (forgetOut (dropSolder (endSave s1 k 3) c) c) c

/-! ## The reset of a VF (R293) -/

/-- The ART entries of a VF, by number. -/
def artsOf (f : Vf) : List Nat := bitList 16 f.artm.toNat

/-- The bound colours of a VF. -/
def colsOf (s : State) (v : Nat) : List (BitVec 12) := (s.cols.filter (fun k => k.2.vf == v)).map (fun k => BitVec.ofNat 12 k.1)

/-- A line lies in one of some ART ranges. -/
def lineIn (as : List Art) (line : Nat) : Bool := as.any (fun a => a.lo ≤ 128 * line && 128 * line ≤ a.hi)

/-- A request that a busy entry serves goes on without the copies that its probes sought. -/
def endProbes (s : State) (line : Nat) : State :=
  match dirFind s line with
  | some e => match e.busy with
    | some r => if e.got then s else dirFinish s line { e with probes := [] } r
    | none => s
  | none => s

/-- Invalidate the lines of ART ranges without writeback (step 3). -/
def dropLines (s : State) (as : List Art) : State :=
  let gone (e : DirEnt) : DirEnt :=
    if lineIn as e.line then { e with owner := none, sharers := 0, probes := [], data := none } else e
  let s1 : State := { s with
    clus := s.clus.map (fun c => (c.1, { c.2 with l1 := c.2.l1.filter (fun l => !lineIn as l.line) }))
    dies := s.dies.map (fun d => (d.1, { d.2 with
      slice := d.2.slice.filter (fun l => !lineIn as l.line),
      dir := (d.2.dir.map gone).filter (fun e => !e.idle) })) }
  (s1.dies.flatMap (fun d => (d.2.dir.filter (fun e => lineIn as e.line)).map (·.line))).foldl endProbes s1

/-- Set the scrub bits of a VF's ART entries (step 4). -/
def scrubVf (s : State) (v : Nat) : State :=
  scrubSet s ((artsOf (s.vf v)).flatMap (fun n => (s.pf.arts.getD n (Art.reset 1)).granules))

/-- The colour indices of a VF's colours: of those bound, and of those descheduled whose index no other VF's colour has taken. -/
def idxsOf (s : State) (v : Nat) (p : Part) : List Nat :=
  (colsOf s v).map (fun c => p.idx c.toNat) ++
    ((mapVals s.saved).filter (fun x => x.vf == v && !(s.col? (p.tbase.toNat + x.colidx)).any (fun k => k.vf != v))).map (·.colidx)

/-- Free the entries of the port's store for messages that will not be reissued (R176). -/
def dropStored (s : State) (outs : List Outbound) : State :=
  { s with host := { s.host with store := s.host.store.filter (fun e => !outs.any (fun o => isHost o.addr && o.tag == e.tag)) } }

/-- The recorded contexts of a VF are discarded (R176, R293). -/
def dropSaved (s : State) (v : Nat) : State :=
  let mine := s.saved.filter (fun x => x.2.vf == v)
  dropStored { s with saved := s.saved.filter (fun x => x.2.vf != v) } (mine.flatMap (fun x => x.2.outs))

/-- Steps 1 to 4 of R293: the generation rises, the frames and records of the VF's colours are gone, its lines are invalidated
and its ranges are scrubbed. -/
def vfScrub (s : State) (v : Nat) : State :=
  let f := s.vf v
  let p := s.part f.part.toNat
  let cols := colsOf s v
  let s1 := s.updVf v (fun f => { f with
    gen := f.gen + 1, jobs := [], failed := [], launchWait := none, fill := none, infl := false, holds := false })
  let s2 := (idxsOf s v p).foldl (fun s i => discardQueues s p i) s1
  let s3 := dropSaved (cols.foldl endColour s2) v
  scrubVf (dropLines (dropBrought s3 (· == 4096 + v)) ((artsOf f).map (fun n => s.pf.arts.getD n (Art.reset 1)))) v

/-- Step 5 of R293: the registers of Table 12.4 take their reset values; events that still wait are dropped when they come to be
written. -/
def vfRegs (s : State) (v : Nat) : State :=
  s.updVf v (fun f => { f with
    q := { Queues.reset with evbuf := f.q.evbuf }, paused := false, inval := none, gsw := .idle, gswCol := 0, gswSave := 0,
    gswLoad := 0, gswAgain := false, enabled := f.en })

/-- A reset of a VF (R293). -/
def vfReset (s : State) (v : Nat) : State := vfRegs (vfScrub s v) v

/-! ## TDISP (R298 to R300) -/

/-- Registers are frozen for a TDI: CONFIG_LOCKED or RUN. -/
def Vf.locked (f : Vf) : Bool := f.tdi == .configLocked || f.tdi == .run

/-- A TDI goes to ERROR: steps 1 to 4 of R293 run, and its DMA is blocked (Table 12.7). -/
def tdiError (s : State) (v : Nat) : State := (vfScrub s v).updVf v (fun f => { f with tdi := .error, scrubbed := true })

/-- Numbers of the VFs that a test accepts and that are locked. -/
def lockedVfs (s : State) (p : Nat → Vf → Bool) : List Nat := (s.vfs.filter (fun f => f.2.locked && p f.1 f.2)).map Prod.fst

/-- A write to a register: where it is frozen for some TDI the write changes nothing, and those TDIs go to ERROR (R298, R299). -/
def guardWrite (s : State) (p : Nat → Vf → Bool) (body : State → State) : State :=
  match lockedVfs s p with
  | [] => body s
  | vs => vs.foldl tdiError s

/-- The VFCFG or CTXBASE of a VF is frozen by that VF. -/
def frozenVf (v : Nat) : Nat → Vf → Bool := fun n _ => n == v

/-- PARTn, WSHARE, SCHEDCTL and SCHEDBASE of a partition are frozen by its VFs. -/
def frozenPart (p : Nat) : Nat → Vf → Bool := fun _ f => f.part.toNat == p

/-- The registers of an ART entry are frozen by the VFs whose ARTM names it. -/
def frozenArt (n : Nat) : Nat → Vf → Bool := fun _ f => f.artm.getLsbD n

/-- LOCK_INTERFACE_REQUEST (Table 12.7): of an enabled VF to which the IDE stream that it names has been bound. -/
def execLockInterfaceRequest (vf nonce stream : W64) (s : State) : Host.Outcome State Fault Refusal :=
  let v := vf.toNat
  let f := s.vf v
  .next (if decide (v < 1024) && f.tdi == .configUnlocked && f.en && f.enabled && f.stream == some stream then
    s.updVf v (fun f => { f with tdi := .configLocked, nonce := nonce, scrubbed := false })
  else s)

/-- START_INTERFACE_REQUEST (Table 12.7): it must carry the lock's nonce. -/
def execStartInterfaceRequest (vf nonce : W64) (s : State) : Host.Outcome State Fault Refusal :=
  let v := vf.toNat
  .next (if (s.vf v).tdi == .configLocked && (s.vf v).nonce == nonce then s.updVf v (fun f => { f with tdi := .run }) else s)

/-- STOP_INTERFACE_REQUEST (Table 12.7): R293 runs unless ERROR already has run it. -/
def execStopInterfaceRequest (vf : W64) (s : State) : Host.Outcome State Fault Refusal :=
  let v := vf.toNat
  let f := s.vf v
  let free (s : State) : State := s.updVf v (fun f => { f with tdi := .configUnlocked, scrubbed := false })
  .next (if decide (1024 ≤ v) then s else if f.scrubbed then free s else free (vfReset s v))

/-- IDE_INTEGRITY_FAILURE on a VF's stream (Table 12.7). -/
def execIdeIntegrityFailure (vf : W64) (s : State) : Host.Outcome State Fault Refusal :=
  .next (if (s.vf vf.toNat).locked then tdiError s vf.toNat else s)

/-- FUNCTION_LEVEL_RESET (R293, Table 12.7): of a locked TDI it leads to ERROR. -/
def execFunctionLevelReset (vf : W64) (s : State) : Host.Outcome State Fault Refusal :=
  let v := vf.toNat
  .next (if decide (1024 ≤ v) then s else if (s.vf v).locked then vfRegs (tdiError s v) v else vfReset s v)

end Sys2Proof.Machine
end

