-- ==== Sys2Proof/Machine/Registers.lean ====
section
/-! DEFINITION. What the registers of the physical function and of the virtual functions read as (R8, R9, R280, R284, R340,
R349; Tables 6.7 to 6.9, 10.4, 11.6, 11.9, 11.10, 12.2 to 12.4, 13.11, 15.2 to 15.4). -/

namespace Sys2Proof.Machine

/-- A field of a register at a bit position. -/
def at_ {n : Nat} (v : BitVec n) (pos : Nat) : W64 := (v.setWidth 64) <<< pos

/-- A one-bit field. -/
def bitAt (b : Bool) (pos : Nat) : W64 := if b then 1 <<< pos else 0

/-! ## Partition registers -/

/-- PARTCTL (Table 12.3). -/
def Part.ctlWord (p : Part) : W64 := bitAt p.en 63 ||| at_ p.tbase 16 ||| at_ p.tlog 0

/-- SCHEDCTL (Table 10.4). -/
def Part.schedWord (p : Part) : W64 := at_ p.slice 32 ||| bitAt p.migen 31 ||| at_ p.migmax 16 ||| at_ p.wdlog 0

/-- The code of STATE (Table 11.9). -/
def QnState.code : QnState → BitVec 4
  | .idle => 0 | .accepted => 1 | .infeasible => 2 | .vacant => 3

/-- QNSTAT (Table 11.9). -/
def Part.qnWord (p : Part) : W64 :=
  at_ p.ndisc 48 ||| at_ p.nckpt 32 ||| at_ p.nrun 16 ||| bitAt p.merged 9 ||| bitAt p.rej 8 ||| at_ p.reason 4 ||| at_ p.state.code 0

/-- WSHARE of a partition on a die (Table 6.7). -/
def Part.wshare (p : Part) (d : Nat) : W64 := at_ (mapGet p.pin d 0) 32 ||| at_ (mapGet p.ways d 0) 0

/-! ## ART, windows and dies -/

/-- The four registers of an ART entry (Table 6.9). -/
def Art.word (a : Art) (r : Nat) : W64 :=
  match r with
  | 0 => at_ a.base 8
  | 1 => at_ a.lim 8
  | 2 => bitAt a.en 63 ||| bitAt a.err 62 ||| at_ a.smask 44 ||| at_ a.choff 24 ||| bitAt a.shra 23 ||| at_ a.part 16 ||| at_ a.gran 0
  | _ => at_ a.chm 0

/-- The registers of a window (Table 12.3). -/
def Win.word (w : Win) (r : Nat) : W64 :=
  match r with
  | 0 => at_ w.base 8
  | 1 => at_ w.lim 8
  | 2 => bitAt w.en 63 ||| at_ w.perm 32 ||| at_ w.part 0
  | _ => 0

/-- HAMCTL (Table 12.3). -/
def Die.hamctl (d : Die) : W64 := at_ d.dly 32 ||| at_ d.th 0

/-! ## VFs and queues -/

/-- VFCFG + 0x8 (Table 12.3). -/
def Vf.cfgWord (f : Vf) : W64 := bitAt f.en 63 ||| bitAt f.pause 62 ||| at_ f.gen 32 ||| at_ f.artm 16 ||| at_ f.part 0

/-- The code of PHASE (Table 11.10). -/
def GswPhase.code : GswPhase → BitVec 3
  | .idle => 0 | .cut => 1 | .save => 2 | .load => 3 | .done => 4 | .fail => 5

/-- The queue registers of Table 12.4, offsets 0x0000 to 0x0038. -/
def Queues.word (q : Queues) (off : Nat) : W64 :=
  match off with
  | 0x00 => q.sqbase
  | 0x08 => at_ q.sqhead 0
  | 0x20 => q.eqbase
  | 0x28 => at_ q.eqtail 0
  | 0x30 => at_ q.eqhead 0
  | 0x38 => at_ q.modus 16 ||| bitAt q.ien 8 ||| at_ q.vec 0
  | _ => 0

/-- The VF register block (Table 12.4); write-only registers read zero (R8). -/
def vfRead (s : State) (v off : Nat) : W64 :=
  let f := s.vf v
  match off with
  | 0x40 => at_ f.gen 32 ||| bitAt f.q.cfgerr 3 ||| bitAt f.q.sqerr 2 ||| bitAt f.paused 1 ||| bitAt f.enabled 0
  | 0x108 => bitAt f.inval.isSome 0
  | 0x198 => at_ f.gsw.code 0
  | 0x1A0 => f.gswSave
  | 0x1A8 => f.gswLoad
  | _ => f.q.word off

/-! ## Counters (Table 15.4) -/

/-- A counter of the physical function's BAR0. -/
def counterRead (s : State) (off : Nat) : W64 :=
  if off < 0x44000 then
    let p := s.part ((off - 0x40000) / 0x100)
    match off % 0x100 with
    | 0x00 => p.tolsub
    | 0x08 => p.hamcnt
    | o => if 0x10 ≤ o && o < 0x30 then mapGet p.pinovf ((o - 0x10) / 8) 0 else 0
  else if 0x48000 ≤ off && off < 0x48400 then
    let d := s.die ((off - 0x48000) / 0x100)
    match off % 0x100 with
    | 0x00 => d.artmiss
    | 0x08 => d.hbmCorr
    | 0x10 => d.hbmUnc
    | 0x18 => d.slCorr
    | 0x20 => d.retries
    | _ => 0
  else if 0x50000 ≤ off && off < 0x60000 then
    let t := s.tile ((off - 0x50000) / 0x20)
    match off % 0x20 with
    | 0x00 => t.soft
    | 0x08 => t.stray
    | 0x10 => t.cfgmiss
    | 0x18 => t.scrCorr
    | _ => 0
  else if 0x60000 ≤ off && off < 0x70000 then
    if off % 0x10 = 0 then mapGet s.purged ((off - 0x60000) / 0x10) 0 else 0
  else if 0x70000 ≤ off && off < 0x70480 then
    let w := mapGet s.wick.ports ((off - 0x70000) / 0x20) WPort.reset
    match off % 0x20 with
    | 0x00 => w.crc
    | 0x08 => w.replayed
    | 0x10 => w.downs
    | _ => 0
  else 0

/-! ## The physical function's BAR0 (Table 12.2) -/

/-- READY1 (Table 15.2). -/
def Pf.ready1 (p : Pf) : W64 :=
  at_ p.stk 0 ||| at_ p.die 12 ||| bitAt p.fail 16 ||| at_ p.wkp 17 ||| bitAt p.mgmt 53 ||| bitAt p.spdm 54

/-- The registers from 0x1000 to 0x10FF. -/
def miscRead (s : State) (off : Nat) : W64 :=
  match off with
  | 0x1000 => (0x7D40 <<< 48) ||| at_ Config.step 40 ||| at_ Config.form 32 ||| at_ s.pf.fwver 0
  | 0x1008 => bitAt s.pf.err 1 ||| bitAt s.pf.ready 0
  | 0x1010 => s.pf.loaddiag
  | 0x1018 => s.pf.clu
  | 0x1020 => s.pf.ready1
  | 0x1040 => at_ s.pf.pwin 32 ||| at_ s.pf.cap 0
  | 0x1048 => at_ s.pf.temp 48 ||| at_ s.pf.avgw 32 ||| at_ s.pf.duty 0
  | _ => 0

/-- The registers from 0x3_0000 to 0x3_FFFF; offsets between registers read 0 (R9; log entry 85). -/
def unitRead (s : State) (off : Nat) : W64 :=
  let o := off - 0x30000
  if o < 0x1000 then (if o % 0x10 = 0 then (s.part (o / 0x40)).wshare (o / 0x10 % 4) else 0)
  else if o < 0x2000 then (if o < 0x1040 && o % 0x10 = 0 then at_ (s.die ((o - 0x1000) / 0x10)).drain 0 else 0)
  else if o < 0x4000 then
    let p := s.part ((o - 0x2000) / 0x10)
    if 0x2400 ≤ o then 0 else
    match o % 0x10 with
    | 0 => p.schedWord
    | _ => p.schedbase
  else if o < 0x6000 then
    let p := s.part ((o - 0x4000) / 0x40)
    if 0x5000 ≤ o then 0 else
    match o % 0x40 with
    | 0x00 => p.qndl
    | 0x08 => at_ p.allow 0
    | 0x10 => p.qnWord
    | 0x18 => p.qndone
    | _ => 0
  else if o < 0x8000 then
    let p := s.part ((o - 0x6000) / 0x40)
    if 0x7000 ≤ o then 0 else
    match o % 0x40 with
    | 0x00 => p.clu
    | 0x08 => p.ctlWord
    | 0x10 => at_ p.wt 0
    | _ => 0
  else if o < 0xA000 then (s.vf ((o - 0x8000) / 8)).ctxbase
  else if o < 0xE000 then
    let f := s.vf ((o - 0xA000) / 0x10)
    match o % 0x10 with
    | 0 => f.ptroot
    | _ => f.cfgWord
  else if o < 0xE040 then (if o % 0x10 = 0 then (s.die ((o - 0xE000) / 0x10)).hamctl else 0)
  else if 0xE100 ≤ o && o < 0xE140 then
    (if o % 0x10 = 0 then BitVec.ofNat 64 (scrubLeft s ((o - 0xE100) / 0x10)) else 0)
  else if 0xF000 ≤ o && o < 0xF200 then (s.pf.wins.getD ((o - 0xF000) / 0x20) Win.reset).word (o / 8 % 4)
  else 0

/-- A register of the physical function's BAR0. A register is read at its own offset: every other offset reads zero, as a reserved field
does (R9; log entry 85). -/
def pfRead (s : State) (off : Nat) : W64 :=
  if off % 8 != 0 then 0
  else if off < 0x200 then
    (if off = 0x40 then bitAt s.pf.q.cfgerr 3 ||| bitAt s.pf.q.sqerr 2 else s.pf.q.word off)
  else if off < 0x20000 then miscRead s off
  else if off < 0x20200 then (s.pf.arts.getD ((off - 0x20000) / 0x20) (Art.reset 1)).word (off / 8 % 4)
  else if 0x30000 ≤ off && off < 0x40000 then unitRead s off
  else if 0x40000 ≤ off then counterRead s off
  else 0

/-- A register by its block: 0 the physical function, v + 1 virtual function v. -/
def regRead (s : State) (space off : Nat) : W64 := if space = 0 then pfRead s off else vfRead s (space - 1) off

/-! ## The interface report (R300) -/

/-- The ranges of a VF's BAR0, of 64 KiB, and of the MSI-X table in it, with 4 vectors of 16 bytes: first address and length (R278). -/
def mmioRanges (f : Vf) : List W64 := [f.bar0, 0x10000, f.bar0 + Config.msixOffset, 64]

/-- The registers that the report of a VF lists. -/
def report (s : State) (v : Nat) : List W64 :=
  let f := s.vf v
  let n := f.part.toNat
  let p := s.part n
  mmioRanges f ++ [BitVec.ofNat 64 n, p.clu, at_ p.tbase 16 ||| at_ p.tlog 0] ++ (List.range 4).map p.wshare ++
    (artsOf f).flatMap (fun a => (List.range 4).map (fun r => (s.pf.arts.getD a (Art.reset 1)).word r)) ++
    [f.ptroot, f.ctxbase] ++
    (s.pf.wins.filter (fun w => w.part == f.part)).flatMap (fun w => (List.range 3).map w.word)

end Sys2Proof.Machine
end

