-- ==== Sys2Proof/Machine/Bringup.lean ====
section
/-! DEFINITION. Reset, readiness, power, management and firmware (R339 to R348). -/

namespace Sys2Proof.Machine

/-! ## Resets (R339, R342) -/

/-- What outlives a loss of power: firmware slots, fuses and the slot chosen for the next boot. -/
def Mgmt.off (m : Mgmt) : Mgmt := { m with running := false, identity := none }

/-- The state of a cold reset: every register at its reset value and every scrub bit set (R342); the schedule and the firmware
slots stay. -/
def coldReset (s : State) : State :=
  { State.reset with agenda := s.agenda, cur := s.cur, free := s.free, mgmt := s.mgmt.off }

/-- A warm reset leaves the scrub bitmap, and with it HBM4 and the contexts saved there, as it stood (R342). -/
def warmState (s : State) : State :=
  { coldReset s with mem := s.mem, poison := s.poison, scrubbed := s.scrubbed, nextReq := s.nextReq, nextSave := s.nextSave,
                     saved := s.saved.map (fun x => (x.1, { x.2 with why := .save 0 })) }

/-- WARM_RESET (R342). -/
def execWarmReset (s : State) : Host.Outcome State Fault Refusal := .next (warmState s)

/-- The signature of a firmware image verifies under the image key fused in its position, when one of the four positions holds
one (R346). -/
def fwSigned (f : FwSlot) : Bool :=
  decide (f.key < 4) && match Config.imageKey f.key with
    | some q => ecdsaOk q (Config.fwBytes f.image) (Config.fwSig f.image).1 (Config.fwSig f.image).2
    | none => false

/-- A firmware image passes: its key is not revoked, its security version is not below the fused minimum, and its signature
verifies (R347). -/
def fwPasses (m : Mgmt) (f : FwSlot) : Bool :=
  f.full && !m.revoked.getLsbD f.key && decide (m.minSec ≤ f.sec) && fwSigned f

/-- The private key of the identity, from the fused secret and the digest of the firmware of a slot (R348). -/
def identityOf (f : FwSlot) : Nat := Config.identityKey (sha384 (Config.fwBytes f.image))

/-- Slot A or B. -/
def Mgmt.slot (m : Mgmt) (b : Bool) : FwSlot := if b then m.slotB else m.slotA

/-- The slot that boots: the chosen one, else the other (R347). -/
def bootSlot (m : Mgmt) : Option Bool :=
  if fwPasses m (m.slot m.nextB) then some m.nextB
  else if fwPasses m (m.slot (!m.nextB)) then some (!m.nextB) else none

/-- RESET_RELEASE (R339, R342, R347, R348): the boot ROM verifies the firmware, derives the identity and releases the dies; with
no slot that passes only the management endpoint starts. -/
def execResetRelease (s : State) : Host.Outcome State Fault Refusal :=
  .next (if s.pf.released then s else
    match bootSlot s.mgmt with
    | none => s
    | some b =>
      let f := s.mgmt.slot b
      { s with
        mgmt := { s.mgmt with runB := b, running := true, identity := some (identityOf f) }
        pf := { s.pf with released := true, fwver := f.ver } })

/-! ## Readiness (R339 to R341) -/

/-- Kinds of units in UNIT_READY: 0 PF register block, 1 cluster, 2 die slice and directory, 3 HBM4 stack, 4 wicker link port,
5 management endpoint, 6 SPDM responder. -/
def unitExists (kind idx : Nat) : Bool :=
  match kind with
  | 0 | 5 | 6 => idx == 0
  | 1 => decide (idx < 64)
  | 2 => decide (idx < 4)
  | 3 => decide (idx < 12)
  | 4 => decide (idx < 36)
  | _ => false

/-- A unit reports ready (Table 15.1). -/
def unitUp (p : Pf) (kind idx : Nat) : Pf :=
  match kind with
  | 0 => { p with ready := true }
  | 1 => { p with clu := p.clu ||| (1 <<< idx) }
  | 2 => { p with die := p.die ||| (1 <<< idx) }
  | 3 => { p with stk := p.stk ||| (1 <<< idx) }
  | 4 => { p with wkp := p.wkp ||| (1 <<< idx) }
  | 5 => { p with mgmt := true }
  | _ => { p with spdm := true }

/-- A unit has reported ready. -/
def unitIsUp (p : Pf) (kind idx : Nat) : Bool := unitUp p kind idx == p

/-- A unit has failed: its bit stays 0 (Table 15.2). -/
def unitDown (p : Pf) (kind idx : Nat) : Pf :=
  { p with fail := true, unitFailed := (kind, idx) :: p.unitFailed,
           stkFailed := if kind = 3 then p.stkFailed ||| (1 <<< idx) else p.stkFailed }

/-- UNIT_READY (R339, R341): `ok` is 0 where the unit fails its self-test or training. The management endpoint and the SPDM
responder start on auxiliary power, the rest once the dies are released. -/
def execUnitReady (kind idx ok : W64) (s : State) : Host.Outcome State Fault Refusal :=
  let k := kind.toNat
  let i := idx.toNat
  .next (if !unitExists k i || (decide (k < 5) && !s.pf.released) || s.pf.unitFailed.contains (k, i) || unitIsUp s.pf k i then s
    else s.updPf (fun p => if ok = 0 then unitDown p k i else unitUp p k i))

/-! ## Power and heat (R343, R344) -/

/-- Power and heat are below the limits under which DUTY falls (R344). -/
def Pf.cool (p : Pf) : Bool := decide (p.avgw.toNat < p.cap.toNat ∧ p.temp.toNat < 90)

/-- PWRCTL_WRITE (R343): where the old cap was not kept, the time below the limits starts again. -/
def pwrctlWrite (s : State) (v : W64) : State :=
  let cap := v.extractLsb' 0 16
  let win := v.extractLsb' 32 16
  if 600 ≤ cap.toNat && cap.toNat ≤ 2600 && 1 ≤ win.toNat && win.toNat ≤ 1000 then
    s.updPf (fun p => { p with cap := cap, pwin := win, dutyAt := if p.cool then p.dutyAt else s.clk })
  else s.pfErr

/-- PWRCTL_WRITE (R343). -/
def execPwrctlWrite (v : W64) (s : State) : Host.Outcome State Fault Refusal := .next (pwrctlWrite s v)

/-- PWRSTAT with a sample of power and heat. -/
def Pf.shown (p : Pf) (avgw temp : W64) : Pf := { p with avgw := avgw.setWidth 16, temp := temp.setWidth 16 }

/-- A sample of power and heat: PWRSTAT shows it, and the time below the limits runs on only between two samples that are both
below them. -/
def sample (s : State) (avgw temp : W64) : State :=
  s.updPf (fun p => { p.shown avgw temp with dutyAt := if p.cool && (p.shown avgw temp).cool then p.dutyAt else s.clk })

/-- DUTY_RAISE (R2, R26, R344). -/
def execDutyRaise (avgw temp : W64) (s : State) : Host.Outcome State Fault Refusal :=
  let s1 := sample s avgw temp
  .next (if decide (s1.pf.cap.toNat < s1.pf.avgw.toNat ∨ 95 < s1.pf.temp.toNat) then
    s1.updPf (fun p => { p with duty := if p.duty = 7 then 7 else p.duty + 1 })
  else s1)

/-- Milliseconds in clk. -/
def msClk (n : Nat) : Nat := 1500000 * n

/-- DUTY_LOWER (R26, R344): after a whole window below the limits. -/
def execDutyLower (avgw temp : W64) (s : State) : Host.Outcome State Fault Refusal :=
  let s1 := sample s avgw temp
  .next (if s1.pf.cool && decide (s1.pf.dutyAt + msClk s.pf.pwin.toNat ≤ s.clk) then
    s1.updPf (fun p => { p with duty := if p.duty = 0 then 0 else p.duty - 1, dutyAt := s.clk })
  else s1)

/-- THERMAL_SHUTDOWN (R344): at 115 °C the package removes its own power, which is a cold reset. -/
def execThermalShutdown (temp : W64) (s : State) : Host.Outcome State Fault Refusal :=
  .next (if 115 ≤ temp.toNat then coldReset s else s)

/-! ## Management (R345, R347, R348) -/

/-- A reply of the management endpoint. -/
def reply (s : State) (kind : BitVec 8) (l : List Byte) : State :=
  { s with mgmt := { s.mgmt with replies := (kind, l) :: s.mgmt.replies } }

/-- A register value as bytes, in the byte order of R6. -/
def wordBytes (v : W64) : List Byte := natBytes 8 v.toNat

/-- PLDM_MONITOR_REQUEST (R345): replies 1 TEMP, 2 AVGW, 3 DUTY and 4 READY1 (log entry 110). -/
def execPldmMonitorRequest (s : State) : Host.Outcome State Fault Refusal :=
  .next (if s.pf.mgmt then
    [(1, s.pf.temp.setWidth 64), (2, s.pf.avgw.setWidth 64), (3, s.pf.duty.setWidth 64), (4, s.pf.ready1)].foldl
      (fun s x => reply s x.1 (wordBytes x.2)) s
  else s)

/-- FIRMWARE_UPDATE (R345, R347): the image goes to the inactive slot; one that passes is active from the next reset. -/
def execFirmwareUpdate (img ver secver key : W64) (s : State) : Host.Outcome State Fault Refusal :=
  .next (if !s.pf.mgmt then s else
    let b := if s.mgmt.running then !s.mgmt.runB else !s.mgmt.nextB
    let slot : FwSlot := { full := true, image := img.toNat, ver := ver.setWidth 32, sec := secver.toNat, key := key.toNat }
    let m := if b then { s.mgmt with slotB := slot } else { s.mgmt with slotA := slot }
    { s with mgmt := if fwPasses m slot then { m with nextB := b } else m })

/-! ## SPDM (R300, R346, R348)

The spec names what a reply covers and who signs it; the bytes of a reply are the model's (log entry 110). -/

/-- A message followed by its ECDSA signature under a private key. -/
def signed (key nonce : Nat) (m : List Byte) : List Byte := m ++ sigBytes (ecdsaSign key (Config.nonce nonce) m)

/-- The algorithms offered: ECDSA Brainpool P-384, Azoux algorithm identifier 0x0001, with SHA-384 as its base hash. -/
def algorithms : List Byte := natBytes 2 1 ++ natBytes 4 2

/-- The digest of the image in a firmware slot; that of no bytes where it holds none. -/
def slotDigest (f : FwSlot) : List Byte := sha384 (if f.full then Config.fwBytes f.image else [])

/-- The digest of a fused image key; that of no bytes where its position holds none. -/
def fusedKeyDigest (k : Nat) : List Byte := sha384 (((Config.imageKey k).map keyBytes).getD [])

/-- The fuse state: image keys, their revocation fuses, the minimum security version, STEP and FORM. -/
def fuseBytes (m : Mgmt) : List Byte :=
  (List.range 4).flatMap fusedKeyDigest ++ [m.revoked.setWidth 8] ++ natBytes 8 m.minSec ++ [Config.step, Config.form]

/-- The measurements: digests of the boot ROM, of both firmware slots and of the fuse state (R348). -/
def measurements (m : Mgmt) : List Byte :=
  sha384 Config.romBytes ++ slotDigest m.slotA ++ slotDigest m.slotB ++ sha384 (fuseBytes m)

/-- The identity certificate: the public key of the identity, certified with the fused device key (R348). -/
def certificate (key nonce : Nat) : List Byte := signed Config.deviceKey nonce (keyBytes (publicKey key))

/-- The reply to an SPDM request: 0 algorithms, 1 the identity certificate, 2 measurements, signed once the identity is derived, 3 the
interface report of a VF that is locked. -/
def spdmReply (s : State) (kind arg : Nat) : Option (List Byte) :=
  match kind, s.mgmt.identity with
  | 0, _ => some algorithms
  | 1, some key => some (certificate key s.free)
  | 2, some key => some (signed key s.free (measurements s.mgmt))
  | 2, none => some (measurements s.mgmt)
  | 3, some key => if (s.vf arg).locked then some (signed key s.free ((report s arg).flatMap wordBytes)) else none
  | _, _ => none

/-- SPDM_REQUEST (R300, R346, R348): the reply of a kind has the number 16 and the kind; a signature takes a nonce of its own. -/
def execSpdmRequest (kind arg : W64) (s : State) : Host.Outcome State Fault Refusal :=
  .next (if !s.pf.spdm then s else
    match spdmReply s kind.toNat arg.toNat with
    | some l => reply { s with free := s.free + 1 } (16 + kind.setWidth 8) l
    | none => s)

end Sys2Proof.Machine
end

