-- ==== Sys2Proof/Machine/QueueRegs.lean ====
section
/-! DEFINITION. The queue and invalidation registers of a VF, and the PF's own queues (R166, R284 to R287, R290). -/

namespace Sys2Proof.Machine

/-- A queue number: a VF, or the physical function's own. -/
def isQueue (v : Nat) : Bool := decide (v ≤ pfQ)

/-- A host request to the registers of a queue's function (R284): one to no function does nothing. -/
def queueReq (s : State) (x : W64) (body : State → Nat → State) : State :=
  if isQueue (barNum x) then barReq s (barNum x) x (fun s => body s (barNum x)) else s

/-- A write was refused: CFGERR (R284, R285). -/
def cfgErr (s : State) (v : Nat) : State := updQueues s v (fun q => { q with cfgerr := true })

/-- A job of the VF is in flight (R284). -/
def jobInFlight (s : State) (v : Nat) : Bool := v != pfQ && !(s.vf v).jobs.isEmpty

/-- A ring base with its reserved bits clear (Table 12.4). -/
def ringBase (v : W64) : W64 := v &&& 0xFFFFFFFFFFFFF03F

/-- SQBASE_WRITE (R284). -/
def execSqbaseWrite (vf v : W64) (s : State) : Host.Outcome State Fault Refusal :=
  .next (queueReq s vf (fun s n =>
    let q := queuesOf s n
    if q.sqhead != q.sqtail || jobInFlight s n || !ringSet v then cfgErr s n
    else updQueues s n (fun q => { q with sqbase := ringBase v, sqhead := 0, sqtail := 0 })))

/-- EQBASE_WRITE (R284). -/
def execEqbaseWrite (vf v : W64) (s : State) : Host.Outcome State Fault Refusal :=
  .next (queueReq s vf (fun s n =>
    let q := queuesOf s n
    if q.eqtail != q.eqhead || jobInFlight s n || !ringSet v then cfgErr s n
    else updQueues s n (fun q => { q with eqbase := ringBase v, eqtail := 0, eqhead := 0 })))

/-- A doorbell that puts the queue in error (R287). -/
def doorbellBad (q : Queues) (t : BitVec 32) : Bool :=
  decide (2 ^ 31 ≤ (t - q.sqtail).toNat) || decide (ringSize q.sqbase < (t - q.sqhead).toNat)

/-- The event of a queue in error (R287). -/
def sqerrEvent : Event := { Event.zero with ty := 8 }

/-- SQ_DOORBELL (R286, R287, R290, R292, R293): a VF that is not enabled or is resetting ignores it. -/
def execSqDoorbell (vf v : W64) (s : State) : Host.Outcome State Fault Refusal :=
  let t : BitVec 32 := v.setWidth 32
  .next (queueReq s vf (fun s n =>
    let q := queuesOf s n
    if (n != pfQ && !(s.vf n).runs) || q.sqerr || t == q.sqtail then s
    else if doorbellBad q t then
      let s1 := updQueues s n (fun q => { q with sqerr := true })
      if n = pfQ then raisePf s1 sqerrEvent else raise s1 n sqerrEvent
    else updQueues s n (fun q => { q with sqtail := t })))

/-- SQHEAD_WRITE (R287): in error only. -/
def execSqheadWrite (vf v : W64) (s : State) : Host.Outcome State Fault Refusal :=
  .next (queueReq s vf (fun s n =>
    if !(queuesOf s n).sqerr then s
    else updQueues s n (fun q => { q with sqhead := v.setWidth 32, sqtail := v.setWidth 32, sqerr := false })))

/-! ## Invalidation (R166, R285) -/

/-- INVAL_WRITE (R285). -/
def execInvalWrite (vf v : W64) (s : State) : Host.Outcome State Fault Refusal :=
  let va := v.toNat / 4096 * 4096
  let log := (v.extractLsb' 6 6).toNat
  .next (queueReq s vf (fun s n =>
    if n = pfQ then s
    else if (s.vf n).inval.isSome || decide (log < 12) || decide (57 < log) || va % 2 ^ log != 0 then cfgErr s n
    else s.updVf n (fun f => { f with inval := some (va, 2 ^ log) })))

/-- A translated page lies in a range. -/
def pageIn (va n : Nat) (p : PageRef) : Bool :=
  (match p.res with
    | .ok _ _ => true
    | _ => false) && overlaps p.va 4096 va n

/-- The colour belongs to a VF. -/
def colVf (s : State) (v : Nat) (c : BitVec 12) : Bool :=
  match s.col? c.toNat with
  | some k => k.vf == v
  | none => false

/-- A copy command of the colour has translations in a range (R378). -/
def copyIn (va n : Nat) (k : Colour) : Bool :=
  k.copyq.any (fun q => q.2.items.any (fun i => match i with
    | .cmd c => c.pages.any (pageIn va n)
    | .fence _ => false))

/-- Nothing that was translated through the range has still to issue, and no miss slot works on it (R166). -/
def invalDone (s : State) (v va n : Nat) : Bool :=
  !s.reqs.any (fun r => (r.2.phase == .chan || r.2.phase == .held) && colVf s v r.2.colour && r.2.pages.any (pageIn va n)) &&
    !s.cols.any (fun k => k.2.vf == v && copyIn va n k.2) &&
    (s.part (s.vf v).part.toNat).clusters.all (fun c => !(s.clu c).miss.any (fun m => m.vf == v && overlaps m.va 4096 va n))

/-- A mapping outlives the invalidation of a range: it lies outside it, or the tables still map it to its line as HOME 2 (R149). -/
def pinStays (s : State) (v va n line : Nat) (pin : Nat × Nat) : Bool :=
  !(pin.1 == v && overlaps pin.2 128 va n) || (match walk s v pin.2 with
    | .leaf p size _ => effHome p (leafPa p size pin.2) == 2 && leafPa p size pin.2 / 128 == line
    | .wait => true
    | _ => false)

/-- A pinned line loses the mappings that are unmapped and invalidated, and leaves with the last of them (R149). -/
def unpinLine (s : State) (v va n d : Nat) (l : SliceLine) : State :=
  let keep := l.pins.filter (pinStays s v va n l.line)
  if keep.length = l.pins.length then s
  else if keep.isEmpty then sliceEvict s d l
  else sliceUpd s l.line (fun x => { x with pins := keep })

/-- The lines of HOME 2 pages of a range that are unmapped and invalidated are pinned no longer (R149). -/
def unpinRange (s : State) (v va n : Nat) : State :=
  let free (l : L1Line) : L1Line := { l with pin := l.pin.filter (pinStays s v va n l.line) }
  let s1 : State := { s with clus := s.clus.map (fun c => (c.1, { c.2 with l1 := c.2.l1.map free })) }
  s1.dies.foldl (fun s d => d.2.slice.foldl (fun s l => unpinLine s v va n d.1 l) s) s1

/-- The walk caches drop what they hold of a range of a VF (R166). -/
def dropWcache (s : State) (v va n : Nat) : State :=
  let old (e : WEnt) : Bool := e.vf == v && overlaps (e.key * 2 ^ (12 + 9 * e.level)) (2 ^ (12 + 9 * e.level)) va n
  { s with dies := s.dies.map (fun d => (d.1, { d.2 with wcache := d.2.wcache.filter (fun e => !old e) })) }

/-- INVALIDATION_COMPLETE (R166, R285). -/
def execInvalidationComplete (vf : W64) (s : State) : Host.Outcome State Fault Refusal :=
  let v := vf.toNat
  .next (match (s.vf v).inval with
    | none => s
    | some (va, n) =>
      if !invalDone s v va n then s
      else
        let s1 := (s.part (s.vf v).part.toNat).clusters.foldl (fun s c => dropCluTlb s c v va n) s
        (unpinRange (dropWcache s1 v va n) v va n).updVf v (fun f => { f with inval := none }))

end Sys2Proof.Machine
end

