-- ==== Sys2Proof/Machine/Partitions.lean ====
section
/-! DEFINITION. Partitions, the address range table, way shares, scrubbing and row throttling (R154, R158 to R162, R232, R281,
R294, R296, R341). -/

namespace Sys2Proof.Machine

/-! ## The address range table (R160, R162) -/

/-- Replace an ART entry. -/
def putArt (s : State) (n : Nat) (a : Art) : State := s.updPf (fun p => { p with arts := p.arts.set n a })

/-- An ART entry. -/
def artOf (s : State) (n : Nat) : Art := s.pf.arts.getD n (Art.reset 1)

/-- The fields of ARTnCTL but EN and ERR, from a written value. -/
def Art.withCtl (a : Art) (v : W64) : Art :=
  { a with smask := v.extractLsb' 44 12, choff := v.extractLsb' 24 10, shra := v.getLsbD 23, part := v.extractLsb' 16 6,
           gran := v.extractLsb' 0 5 }

/-- The stacks of SMASK and the slices of their dies are ready (R341). -/
def stacksReady (s : State) (a : Art) : Bool :=
  (bitList 12 a.smask.toNat).all (fun st => s.pf.stk.getLsbD st && s.pf.die.getLsbD (dieOfStack st))

/-- A range that the table accepts (R162, R341). -/
def artOk (s : State) (a : Art) : Bool :=
  let size := a.hi + 1 - a.lo
  8 ≤ a.gran.toNat && a.gran.toNat ≤ 30 && a.smask != 0 && a.chm != 0 && decide (a.base.toNat ≤ a.lim.toNat) && isHbm a.hi &&
    a.lo % 2 ^ a.gran.toNat == 0 && size % (a.chans * 2 ^ a.gran.toNat) == 0 &&
    decide (a.choff.toNat * 2 ^ 21 + size / a.chans ≤ 2 ^ 31) && stacksReady s a

/-- ART_ENABLE (R160, R162, R341): a write to ARTnCTL that sets EN. -/
def execArtEnable (n v : W64) (s : State) : Host.Outcome State Fault Refusal :=
  let i := n.toNat
  .next (if decide (16 ≤ i) || !v.getLsbD 63 || (artOf s i).en then s
    else guardWrite s (frozenArt i) (fun s =>
      let a := (artOf s i).withCtl v
      if artOk s a then putArt s i { a with en := true, err := false } else putArt s i { a with en := false, err := true }))

/-- Any other write to a register of an ART entry: BASE, LIM, CHM and the fields of CTL while EN = 0, and the clearing of EN. -/
def artWrite (s : State) (n r : Nat) (v : W64) : State :=
  let a := artOf s n
  if a.en then (if r = 2 && !v.getLsbD 63 then putArt s n { a with en := false } else s)
  else match r with
    | 0 => putArt s n { a with base := v.extractLsb' 8 44 }
    | 1 => putArt s n { a with lim := v.extractLsb' 8 44 }
    | 2 => if v.getLsbD 63 then s else putArt s n (a.withCtl v)
    | _ => putArt s n { a with chm := v.extractLsb' 0 32 }

/-! ## Way shares (R158, R159) -/

/-- Ways of a die that other partitions hold. -/
def waysTaken (s : State) (p d : Nat) : BitVec 32 :=
  s.parts.foldl (fun m x => if x.1 = p then m else m ||| mapGet x.2.ways d 0) 0

/-- WSHARE_WRITE (R158, R159). -/
def execWshareWrite (p d v : W64) (s : State) : Host.Outcome State Fault Refusal :=
  let p := p.toNat
  let d := d.toNat
  let ways := v.extractLsb' 0 32
  let pin := v.extractLsb' 32 32
  .next (if decide (64 ≤ p) || decide (4 ≤ d) then s
    else guardWrite s (frozenPart p) (fun s =>
      if pin &&& ~~~ways != 0 || ways &&& waysTaken s p d != 0 then s.pfErr
      else
        let gone := mapGet (s.part p).ways d 0 &&& ~~~ways
        let s1 := s.updPart p (fun x => { x with ways := mapPut x.ways d ways, pin := mapPut x.pin d pin })
        if gone = 0 then s1 else s1.updDie d (fun x => { x with drain := x.drain ||| gone, swept := 0 })))

/-- SLICE_SHRINK_SWEEP (R158, R201): at the die that is the step's place, the sweep passes one set, and passes over the lines there that
are under a solder lock: they leave when they unlock. -/
def execSliceShrinkSweep (s : State) : Host.Outcome State Fault Refusal :=
  let d := s.cur.place
  let x := s.die d
  let out := x.slice.filter (fun l => sliceSet l.line == x.swept && x.drain.getLsbD l.way && !locked s l.line)
  .next (if x.drain = 0 || 16384 ≤ x.swept then s
    else (out.foldl (fun s l => sliceEvict s d l) s).updDie d (fun x => { x with swept := x.swept + 1 }))

/-- SLICE_SHRINK_COMPLETE (R158, R159, R201): the sweep has passed every set, and no line is left in the ways that drain. -/
def execSliceShrinkComplete (s : State) : Host.Outcome State Fault Refusal :=
  let d := s.cur.place
  let x := s.die d
  .next (if x.drain != 0 && 16384 ≤ x.swept && !x.slice.any (fun l => x.drain.getLsbD l.way) then
    s.updDie d (fun x => { x with drain := 0, swept := 0 })
  else s)

/-! ## Partition control (R154, R281) -/

/-- Two tag blocks overlap. -/
def blocksMeet (p q : Part) : Bool := overlaps p.tbase.toNat p.block q.tbase.toNat q.block

/-- The checks of a write that sets EN (R281, R341). -/
def partOk (s : State) (n : Nat) (p : Part) : Bool :=
  p.clu != 0 && s.parts.all (fun q => q.1 == n || !q.2.en || (q.2.clu &&& p.clu == 0 && !blocksMeet p q.2)) &&
    4 ≤ p.tlog.toNat && p.tlog.toNat ≤ 12 && p.tbase.toNat % p.block == 0 && p.clusters.all (fun c => s.pf.clu.getLsbD c)

/-- TBASE and TLOG from a written value. -/
def Part.withCtl (p : Part) (v : W64) : Part := { p with tbase := v.extractLsb' 16 12, tlog := v.extractLsb' 0 4 }

/-- PARTCTL_ENABLE (R281, R341). -/
def execPartctlEnable (p v : W64) (s : State) : Host.Outcome State Fault Refusal :=
  let n := p.toNat
  .next (if decide (64 ≤ n) || !v.getLsbD 63 || (s.part n).en then s
    else guardWrite s (frozenPart n) (fun s =>
      let x := (s.part n).withCtl v
      if partOk s n x then s.updPart n (fun _ => { x with en := true }) else (s.updPart n (fun _ => x)).pfErr))

/-- The partition is vacant (R274): no colour of it is bound, its slice ways are clean, and nothing of it is outstanding. -/
def isVacant (s : State) (n : Nat) : Bool :=
  s.cols.all (fun k => k.2.part != n) && s.dies.all (fun d => d.2.slice.all (fun l => l.part != n || !l.dirty))

/-- A miss slot goes, with the walk that it asked for. -/
def dropMiss (s : State) (c : Nat) (m : Miss) : State :=
  let d := dieOfClu c
  walkEnd (s.updDie d (fun x => { x with walkq := x.walkq.filter (fun q => !(q.1 == m.vf && q.2.1 == m.va)) })) d m.vf m.va

/-- Write back and invalidate the L1D of a cluster and empty its TLBs (R154). -/
def flushCluster (s : State) (c : Nat) : State :=
  let s0 := (s.clu c).miss.foldl (fun s m => dropMiss s c m) s
  let s1 := (s0.clu c).l1.foldl (fun s l => l1Evict s c l.line) s0
  (rangeFrom (32 * c) 32).foldl (fun s t => if (s.tile t).utlb.isEmpty then s else s.updTile t (fun x => { x with utlb := [] }))
    (s1.updClu c (fun x => { x with tlb := [] }))

/-- PARTCTL_DISABLE (R281, R154). -/
def execPartctlDisable (p v : W64) (s : State) : Host.Outcome State Fault Refusal :=
  let n := p.toNat
  let x := s.part n
  .next (if decide (64 ≤ n) || v.getLsbD 63 || !x.en then s
    else guardWrite s (frozenPart n) (fun s =>
      if x.withCtl v != x || !isVacant s n || s.vfs.any (fun f => f.2.en && f.2.part.toNat == n) then s.pfErr
      else (x.clusters.foldl flushCluster s).updPart n (fun p => { p with en := false })))

/-- Any other write to PARTn (R281): while EN = 0 only. -/
def partWrite (s : State) (n r : Nat) (v : W64) : State :=
  let x := s.part n
  match r with
  | 0 => if x.en then s.pfErr else s.updPart n (fun p => { p with clu := v })
  | 1 => if x.en then (if v.getLsbD 63 && x.withCtl v != x then s.pfErr else s)
      else if v.getLsbD 63 then s else s.updPart n (fun p => p.withCtl v)
  | 2 => if x.en || v.extractLsb' 0 8 = 0 then s.pfErr else s.updPart n (fun p => { p with wt := v.extractLsb' 0 8 })
  | _ => s

/-- SCHEDCTL_WRITE (R232). -/
def execSchedctlWrite (p v : W64) (s : State) : Host.Outcome State Fault Refusal :=
  let n := p.toNat
  let slice := v.extractLsb' 32 16
  let wd := v.extractLsb' 0 5
  .next (if decide (64 ≤ n) then s
    else guardWrite s (frozenPart n) (fun s =>
      if (slice != 0 && decide (slice.toNat < 10)) || decide (wd.toNat < 12) || decide (30 < wd.toNat) then s.pfErr
      else s.updPart n (fun p => { p with slice := slice, migen := v.getLsbD 31, migmax := v.extractLsb' 16 8, wdlog := wd })))

/-! ## Scrubbing (R294) -/

/-- The lowest number from `n` on that a rising list does not hold. -/
def lowestOut : Nat → List Nat → Nat
  | n, [] => n
  | n, k :: ks => if k = n then lowestOut (n + 1) ks else n

/-- SCRUB_GRANULE (R294): the scrub engine of the die that is the step's place zeroes its lowest granule whose bit is set. -/
def execScrubGranule (s : State) : Host.Outcome State Fault Refusal :=
  let d := s.cur.place
  let g := lowestOut (98304 * d) (s.scrubbed.filter (fun g => g / 98304 == d))
  .next (if 4 ≤ d || 98304 * (d + 1) ≤ g || !s.pf.stk.getLsbD (g / 2 ^ 15) then s else scrubOne s g)

/-! ## Row throttling (R296) -/

/-- The partition whose range holds a DRAM address. -/
def partOfDram (s : State) (da : Nat) : Option Nat :=
  (s.pf.arts.find? (fun a => a.en && a.granules.contains (scrubGranuleOf da))).map (fun a => a.part.toNat)

/-- THROTTLED_ACTIVATION (R296): the schedule presents the activations of a row, named by its DRAM address; one of a row whose
count has passed TH comes no sooner than DLY ns after the one before it, and is counted in HAMCNT. -/
def execThrottledActivation (row : W64) (s : State) : Host.Outcome State Fault Refusal :=
  let da := row.toNat
  let d := dieOfStack (stackOf da)
  let x := s.die d
  let r := mapGet x.rows da (0, 0)
  let count (s : State) : State := s.updDie d (fun x => { x with rows := mapPut x.rows da (r.1 + 1, s.clk) })
  .next (if 12 ≤ stackOf da then s
    else if r.1 ≤ x.th.toNat then count s
    else if s.clk < r.2 + (3 * x.dly.toNat + 1) / 2 then s
    else match partOfDram s da with
      | some p => (count s).updPart p (fun q => { q with hamcnt := countUp q.hamcnt 1 })
      | none => count s)

/-- HAMMER_WINDOW_END (R296): at the die that is the step's place, 32 ms after the window began. -/
def execHammerWindowEnd (s : State) : Host.Outcome State Fault Refusal :=
  let d := s.cur.place
  .next (if (s.die d).window + 48000000 ≤ s.clk then s.updDie d (fun x => { x with rows := [], window := s.clk }) else s)

end Sys2Proof.Machine
end

