-- ==== Sys2Proof/Machine/Image.lean ====
section
/-! DEFINITION. Weave images: their sections and the load-time validation of WVREG (R324 to R331). -/

namespace Sys2Proof.Machine

/-- A reader of an image: the little-endian number in `n` bytes at an offset. -/
abbrev Reader := Nat → Nat → Nat

/-- The reader of an image by its bytes. -/
def readerOf (bs : List Byte) : Reader := fun off n => leNat ((bs.drop off).take n)

/-- A check fails: the step of R329 and the byte offset (R330). -/
abbrev LoadFail := Nat × Nat

/-- The first failure of a list of checks: each with its offset. -/
def firstFail (step : Nat) (l : List (Bool × Nat)) : Option LoadFail :=
  (l.find? (fun c => !c.1)).map (fun c => (step, c.2))

/-! ## Sections (Table 13.9) -/

/-- Offset of a section: 0 STAKE, 1 LREG, 2 TMAP, 3 COLR, 4 DATA, 5 PARAM, 6 SIG. -/
def secOff (g : Reader) (i : Nat) : Nat := g (24 + 8 * i) 4
/-- Its size. -/
def secSize (g : Reader) (i : Nat) : Nat := g (28 + 8 * i) 4
/-- NSTAKE. -/
def nStake (g : Reader) : Nat := g 16 4
/-- NLT. -/
def nLt (g : Reader) : Nat := g 12 2

/-- Where an image ends: behind its header and its last section (log entry 62). -/
def imageEnd (g : Reader) : Nat :=
  (List.range 7).foldl (fun m i => if secSize g i = 0 then m else max m (secOff g i + secSize g i)) 128

/-- A section lies after the header, is aligned, and overlaps no other. -/
def secOk (g : Reader) (i : Nat) : Bool :=
  secSize g i == 0 || (secOff g i % 64 == 0 && decide (128 ≤ secOff g i) && (List.range 7).all (fun j =>
    j == i || secSize g j == 0 || !overlaps (secOff g i) (secSize g i) (secOff g j) (secSize g j)))

/-- Step 1: the header. -/
def checkHeader (g : Reader) (id : BitVec 32) (taken : Bool) : Option LoadFail :=
  firstFail 1 ([(g 0 4 == 0x1A495657, 0), (g 4 1 == 1, 4), (g 5 1 == 0, 5), (g 6 2 == 0, 6), (g 8 4 == id.toNat && !taken, 8),
    (decide (1 ≤ nLt g) && decide (nLt g ≤ 512), 12), (decide (1 ≤ g 14 2), 14), (g 20 4 == 0, 20)] ++
    (List.range 7).map (fun i => (secOk g i, 24 + 8 * i)) ++ [(g 80 48 == 0, 80)])

/-- The installed key that a KEYID names: one whose digest begins with it and that is not revoked (R328, R346). -/
def keyNamed (m : Mgmt) (id : List Byte) : Option (Nat × Nat) :=
  (List.range 4).findSome? (fun k => (Config.imageKey k).filter (fun q => keyIdOf q == id && !m.revoked.getLsbD k))

/-- Step 2: SIG (R328): its KEYID names an installed key that is not revoked, and the signature r and s over every byte before the section
verifies; r and s are little-endian, as every value of an image is (R6, R324). -/
def checkSig (m : Mgmt) (g : Reader) : Option LoadFail :=
  let o := secOff g 6
  if secSize g 6 = 0 then none
  else if secSize g 6 ≠ 160 then some (2, 24 + 48)
  else
    match keyNamed m (natBytes 32 (g o 32)) with
    | some q => firstFail 2 [(g (o + 128) 32 == 0, o + 128), (ecdsaOk q (natBytes o (g 0 o)) (g (o + 32) 48) (g (o + 80) 48), o + 32)]
    | none => some (2, o)

/-! ## Stake records (R325) -/

/-- Offset of stake record `i`. -/
def recAt (g : Reader) (i : Nat) : Nat := secOff g 0 + 32 * i

/-- Stake record `i`. -/
def stakeRec (g : Reader) (i : Nat) : StakeRec :=
  let o := recAt g i
  { word := BitVec.ofNat 128 (g o 16), lstake := BitVec.ofNat 16 (g (o + 16) 2), flags := BitVec.ofNat 8 (g (o + 18) 1),
    hint := if g (o + 19) 1 = 1 then some (g (o + 20) 1, g (o + 21) 1, g (o + 22) 1) else none,
    da := g (o + 24) 1, db := g (o + 25) 1, dc := g (o + 26) 1, dt := g (o + 27) 1 }

/-- The stake records with their offsets. -/
def stakeRecs (g : Reader) : List (StakeRec × Nat) := (List.range (nStake g)).map (fun i => (stakeRec g i, recAt g i))

/-- The zero bytes and the hint of stake record `i`. -/
def recBytesOk (g : Reader) (i : Nat) : Bool :=
  let o := recAt g i
  g (o + 18) 1 / 16 == 0 && g (o + 23) 1 == 0 && g (o + 28) 4 == 0 &&
    (match g (o + 19) 1 with
      | 0 => g (o + 20) 3 == 0
      | 1 => decide (g (o + 20) 1 < 64) && decide (g (o + 21) 1 < 32) && (decide (g (o + 22) 1 < 128) || g (o + 22) 1 == 0xFF)
      | _ => false)

/-- Logical tile of a record. -/
def StakeRec.lt (r : StakeRec) : Nat := r.lstake.toNat / 128

/-- The hint of a record agrees with the first hint of its logical tile (R326). -/
def hintAgrees (rs : List (StakeRec × Nat)) (r : StakeRec) : Bool :=
  match r.hint, (rs.find? (fun x => x.1.lt == r.lt && x.1.hint.isSome)).bind (·.1.hint) with
  | some h, some h' => h.1 == h'.1 && h.2.1 == h'.2.1
  | _, _ => true

/-- The records ascend strictly. -/
def ascends : List (StakeRec × Nat) → Option Nat
  | (a, _) :: (b, o) :: rest => if a.lstake.toNat < b.lstake.toNat then ascends ((b, o) :: rest) else some o
  | _ => none

/-- Step 3: the stake records. -/
def checkRecords (g : Reader) (rs : List (StakeRec × Nat)) : Option LoadFail :=
  if secSize g 0 ≠ 32 * nStake g then some (3, 16)
  else
    let each := firstFail 3 ((rs.zipIdx).map (fun x =>
      (recBytesOk g x.2 && decide (x.1.1.lt < nLt g) && hintAgrees rs x.1.1 && (parse (x.1.1.word.setWidth 1152)).isSome &&
        x.1.1.word.extractLsb' 120 8 != 0, x.1.2)))
    match ascends rs with
    | some o => some (3, o)
    | none => each.orElse (fun _ => firstFail 3 ((List.range (nLt g)).map (fun lt => (rs.any (fun r => r.1.lt == lt), 12))))

/-- Step 4: the word against its class. -/
def wordOk (w : StakeWord) : Bool :=
  match parse (w.setWidth 1152) with
  | some i => encode i == w.setWidth 1152 && Instr.formOk i
  | none => false

/-- Step 4. -/
def checkWords (rs : List (StakeRec × Nat)) : Option LoadFail := firstFail 4 (rs.map (fun r => (wordOk r.1.word, r.2)))

/-! ## Ports, destinations and structure -/

/-- Opcode of a record. -/
def StakeRec.opc (r : StakeRec) : Nat := (r.word.extractLsb' 120 8).toNat
/-- Common fields of a record. -/
def StakeRec.common (r : StakeRec) : Common := Common.ofWord r.word
/-- ENTRY. -/
def StakeRec.entry (r : StakeRec) : Bool := r.flags.getLsbD 0
/-- The ports that a record's stake uses (R308). -/
def StakeRec.ports (r : StakeRec) : List Nat := usedPorts (r.fresh [])
/-- Depth of a port. -/
def StakeRec.depth (r : StakeRec) (p : Nat) : Nat := [r.da, r.db, r.dc, r.dt].getD p 0

/-- KGATE, FMTCAST, VDEQ, VQUANT and VCHAIN: their ports must be FIFO (R43, R509). -/
def fifoOnly (opc : Nat) : Bool := [0x0C, 0x15, 0x68, 0x69, 0x6A].contains opc

/-- Ports of one record (R62, R308). -/
def portsOk (r : StakeRec) : Bool :=
  !r.ports.isEmpty && (List.range 4).all (fun p =>
    if r.ports.contains p then decide (1 ≤ r.depth p) && decide (r.depth p ≤ 16) else r.depth p == 0) &&
    !(r.flags.getLsbD 3 && fifoOnly r.opc)

/-- The sum of the depths of a logical tile (R308). -/
def depthSum (rs : List (StakeRec × Nat)) (lt : Nat) : Nat :=
  ((rs.filter (fun r => r.1.lt == lt)).map (fun r => r.1.da + r.1.db + r.1.dc + r.1.dt)).sum

/-- Step 5. -/
def checkPorts (rs : List (StakeRec × Nat)) : Option LoadFail :=
  firstFail 5 (rs.map (fun r => (portsOk r.1 && decide (depthSum rs r.1.lt ≤ 1024), r.2)))

/-- A destination names a stake of the image and a port that it uses (R306). -/
def destNamed (rs : List (StakeRec × Nat)) (d : Dest) : Bool :=
  !d.v || rs.any (fun r => r.1.lstake == d.lstake && r.1.ports.contains d.port.toNat)

/-- A stake without a field with V = 1 other than a misfit field has EXIT set. -/
def exitOk (r : StakeRec) : Bool :=
  r.flags.getLsbD 1 || r.common.dests.any (fun d => if r.opc = 3 then d.v else d.isResult)

/-- The rules that one word decides about its destinations. -/
def wordDests (w : StakeWord) : Bool :=
  match parse (w.setWidth 1152) with
  | some i => Instr.destsOk i
  | none => false

/-- Step 6. -/
def checkDests (rs : List (StakeRec × Nat)) : Option LoadFail :=
  firstFail 6 (rs.map (fun r => (wordDests r.1.word && r.1.common.dests.all (destNamed rs) && exitOk r.1, r.2)))

/-- The wave fields of one word (R122). -/
def wordWave (w : StakeWord) : Bool :=
  match parse (w.setWidth 1152) with
  | some i => Instr.waveOk i
  | none => false

/-- Step 7. -/
def checkWaves (rs : List (StakeRec × Nat)) : Option LoadFail := firstFail 7 (rs.map (fun r => (wordWave r.1.word, r.2)))

/-- The stakes that a stake feeds through forward channels (R82). -/
def feeds (r : StakeRec) : List (BitVec 16) :=
  if r.opc = 8 || r.opc = 11 then [] else (r.common.dests.filter (·.v)).map (·.lstake)

/-- Take away the stakes that no other remaining stake feeds, until none is left to take: what stays contains a cycle. -/
def peel : Nat → List (StakeRec × Nat) → List (StakeRec × Nat)
  | 0, rs => rs
  | n + 1, rs =>
    let fed := rs.flatMap (fun r => feeds r.1)
    let rest := rs.filter (fun r => fed.contains r.1.lstake)
    if rest.length = rs.length then rs else peel n rest

/-- A KDONE names a KGATE (R43). -/
def gateOk (rs : List (StakeRec × Nat)) (r : StakeRec) : Bool :=
  r.opc != 0x0D || rs.any (fun x => x.1.lstake == (r.word.extractLsb' 0 16) && x.1.opc == 0x0C)

/-- Step 8. -/
def checkStructure (g : Reader) (rs : List (StakeRec × Nat)) : Option LoadFail :=
  match peel rs.length rs with
  | r :: _ => some (8, r.2)
  | [] => firstFail 8 (rs.map (fun r => (gateOk rs r.1 && (!r.1.entry || r.1.ports.contains 0), r.2)) ++
      [(g 14 2 == (rs.filter (fun r => r.1.entry)).length, 14)])

/-! ## The remaining sections (R327) -/

/-- LREG records: offset, stake, register and value. -/
def lregs (g : Reader) : List (Nat × BitVec 16 × Nat × W512) :=
  (List.range (secSize g 1 / 80)).map (fun i =>
    let o := secOff g 1 + 80 * i
    (o, BitVec.ofNat 16 (g o 2), g (o + 2) 1, BitVec.ofNat 512 (g (o + 16) 64)))

/-- The LREG section. -/
def checkLregs (g : Reader) (rs : List (StakeRec × Nat)) : Option LoadFail :=
  let l := lregs g
  firstFail 9 ((secSize g 1 % 80 == 0, 24 + 8) :: l.map (fun x =>
    (decide (x.2.2.1 < 4) && g (x.1 + 3) 13 == 0 && rs.any (fun r => r.1.lstake == x.2.1) &&
      !l.any (fun y => decide (y.1 < x.1) && y.2.1 == x.2.1 && y.2.2.1 == x.2.2.1), x.1)))

/-- A tensor map of an image (Table 13.6). -/
def imageTm (g : Reader) (n : Nat) : W512 := if secSize g 2 = 0 then 0 else BitVec.ofNat 512 (g (secOff g 2 + 64 * n) 64)

/-- A tensor map that is unset or satisfies Table 13.6 with BLO ≤ BHI. -/
def tmOk (m : W512) : Bool :=
  m == 0 || (decide (1 ≤ tmRank m) && decide (tmRank m ≤ 5) && tmEty m != .x && fld m 180 32 == 0 &&
    decide (tmBlo m ≤ tmBhi m) && tmBase m % tmBytes m == 0 &&
    (List.range 5).all (fun d => if d < tmRank m then decide (1 ≤ tmExt m d) else tmExt m d == 0))

/-- The TMAP section. -/
def checkTmaps (g : Reader) : Option LoadFail :=
  firstFail 9 ((secSize g 2 == 0 || secSize g 2 == 1024, 24 + 16) ::
    (List.range 16).map (fun n => (tmOk (imageTm g n), secOff g 2 + 64 * n)))

/-- A register of the COLR section: 0 FPCTL, 1 COLKEY, 2 SPILLBASE, 3 MSQUOTA, 4 TRAPVEC. -/
def colr (g : Reader) (i : Nat) : W64 := BitVec.ofNat 64 (g (secOff g 3 + 8 * i) 8)

/-- The COLR section. -/
def checkColr (g : Reader) : Option LoadFail :=
  let o := secOff g 3
  firstFail 9 [(secSize g 3 == 40, 24 + 24), (fpctlOk (colr g 0) && fpctlMask (colr g 0) == colr g 0 && (colr g 0).setWidth 5 == 0#5, o),
    (spillbaseOk (colr g 2), o + 16), (msquotaOk (colr g 3) && (colr g 3).toNat / 2 ^ 13 == 0, o + 24),
    ((colr g 4).extractLsb' 12 3 != 7, o + 32)]

/-- The DATA records: offset, logical tile, first line and byte length. -/
def dataRecs (g : Reader) : Nat → Nat → List (Nat × Nat × Nat × Nat)
  | 0, _ => []
  | n + 1, o =>
    if secOff g 4 + secSize g 4 ≤ o then []
    else
      let len := g (o + 4) 4
      (o, g o 2, g (o + 2) 2, len) :: dataRecs g n (o + 8 + (len + 63) / 64 * 64)

/-- Bytes that a DATA record takes. -/
def dataEnd (r : Nat × Nat × Nat × Nat) : Nat := r.1 + 8 + (r.2.2.2 + 63) / 64 * 64

/-- The DATA section. -/
def checkData (g : Reader) : Option LoadFail :=
  let l := dataRecs g (secSize g 4 + 1) (secOff g 4)
  firstFail 9 (l.map (fun r =>
    (decide (r.2.1 < nLt g) && decide (r.2.2.1 + (r.2.2.2 + 63) / 64 ≤ 8192) && decide (dataEnd r ≤ secOff g 4 + secSize g 4) &&
      g (r.1 + 8 + r.2.2.2) ((r.2.2.2 + 63) / 64 * 64 - r.2.2.2) == 0, r.1)))

/-- The name of a PARAM record: ASCII padded with zero bytes. -/
def nameOk : List Byte → Bool
  | [] => true
  | b :: bs => if b = 0 then bs.all (· == 0) else decide (b.toNat < 128) && nameOk bs

/-- The PARAM section. -/
def checkParams (g : Reader) : Option LoadFail :=
  firstFail 9 ((secSize g 5 % 32 == 0, 24 + 40) :: (List.range (secSize g 5 / 32)).map (fun i =>
    let o := secOff g 5 + 32 * i
    (nameOk (natBytes 24 (g o 24)) && decide (g (o + 28) 1 < 16) && g (o + 29) 3 == 0, o)))

/-- Load-time validation, step by step: the first failure decides (R329). -/
def validate (m : Mgmt) (g : Reader) (id : BitVec 32) (taken : Bool) : Option LoadFail :=
  let rs := stakeRecs g
  let steps : List (Unit → Option LoadFail) :=
    [fun _ => checkHeader g id taken, fun _ => checkSig m g, fun _ => checkRecords g rs, fun _ => checkWords rs,
      fun _ => checkPorts rs, fun _ => checkDests rs, fun _ => checkWaves rs, fun _ => checkStructure g rs,
      fun _ => checkLregs g rs, fun _ => checkTmaps g, fun _ => checkColr g, fun _ => checkData g, fun _ => checkParams g]
  steps.findSome? (fun f => f ())

/-- The weave of a valid image. -/
def weaveOf (g : Reader) (id : BitVec 32) (reg : Nat) : Weave :=
  { id := id, reg := reg, nlt := nLt g, stakes := (stakeRecs g).map Prod.fst, lregs := (lregs g).map Prod.snd,
    tms := (List.range 16).foldl (fun m n => if imageTm g n = 0 then m else mapPut m n (imageTm g n)) [],
    fpctl := colr g 0, colkey := colr g 1, spillbase := colr g 2, msquota := colr g 3, trapvec := colr g 4,
    data := (dataRecs g (secSize g 4 + 1) (secOff g 4)).map (fun r => (r.2.1, r.2.2.1, natBytes r.2.2.2 (g (r.1 + 8) r.2.2.2))) }

end Sys2Proof.Machine
end

