-- ==== Sys2Proof/Machine/Context.lean ====
section
/-! DEFINITION. Context areas and the bytes of a colour context (R263 to R267, Tables 11.6 to 11.8). -/

namespace Sys2Proof.Machine

/-! ## The context area of a VF (R263, R264) -/

/-- Size of a colour context with `n` logical tiles (R264). -/
def ctxSize (n : Nat) : Nat := 0x1210000 + n * 0x208000

/-- A size rounded up to 64 KiB. -/
def ctxAlign (n : Nat) : Nat := (n + 0xFFFF) / 0x10000 * 0x10000

/-- Bytes of the context area: SIZE of CTXBASE in units of 256 MiB. -/
def Vf.ctxBytes (f : Vf) : Nat := f.ctxbase.toNat % 4096 * 2 ^ 28

/-- Address of directory entry `i`. -/
def dirAt (f : Vf) (i : Nat) : Nat := f.ctxAddr + 32 + 32 * i

/-- NCTX. -/
def dirCount (s : State) (f : Vf) : Nat := min 127 (cohNat s f.ctxAddr 4)

/-- COLIDX of an entry. -/
def dirCol (s : State) (f : Vf) (i : Nat) : Nat := cohNat s (dirAt f i) 2
/-- STATE of an entry. -/
def dirState (s : State) (f : Vf) (i : Nat) : Nat := cohNat s (dirAt f i + 2) 1
/-- GSW of an entry. -/
def dirGsw (s : State) (f : Vf) (i : Nat) : Nat := cohNat s (dirAt f i + 3) 1
/-- Physical address of the context of an entry. -/
def dirCtx (s : State) (f : Vf) (i : Nat) : Nat := f.ctxAddr + cohNat s (dirAt f i + 8) 8

/-- Offset of a commit record: CR0 or CR1. -/
def crOff (cur : Nat) : Nat := if cur = 1 then 0x6000 else 0x1000

/-- NLT of the current commit record of a context. -/
def ctxNlt (s : State) (pa : Nat) : Nat := cohNat s (pa + crOff (cohNat s pa 8) + 18) 2

/-- The bound colours of a VF that have a directory entry: the entry and NLT. -/
def boundEntries (s : State) (v : Nat) : List (Nat × Nat) :=
  (mapVals s.cols).filterMap (fun k => if k.vf = v then k.ctx.map (fun i => (i, k.nlt)) else none)

/-- The entries in use: committed, owned by a bound colour, or with the note of a guest load (R276), with the offset and the aligned size
of each context. -/
def usedExtents (s : State) (v : Nat) : List (Nat × Nat × Nat) :=
  let f := s.vf v
  let bound := boundEntries s v
  (List.range (dirCount s f)).filterMap (fun i => match bound.find? (fun b => b.1 == i) with
    | some b => some (i, dirCtx s f i - f.ctxAddr, ctxAlign (ctxSize b.2))
    | none =>
      if dirState s f i = 1 then some (i, dirCtx s f i - f.ctxAddr, ctxAlign (ctxSize (ctxNlt s (dirCtx s f i))))
      else if dirGsw s f i ≠ 0 then some (i, 0, 0) else none)

/-- The lowest place for a context of a size, from 0x1_0000 on. -/
def freePlace (limit need : Nat) (ext : List (Nat × Nat × Nat)) : Option Nat :=
  let ends := 0x10000 :: ext.map (fun e => e.2.1 + e.2.2)
  let ok (o : Nat) : Bool := decide (o + need ≤ limit) && ext.all (fun e => !overlaps o need e.2.1 e.2.2)
  (ends.filter ok).foldl (fun b o => match b with
    | none => some o
    | some x => some (min x o)) none

/-- The entry of a colour's context, with its offset: its own, or the lowest that is free, at the lowest place that takes it; none
where the area cannot take one context more (R264). -/
def placeCtx (s : State) (k : Colour) : Option (Nat × Nat) :=
  let f := s.vf k.vf
  match k.ctx with
  | some i => some (i, dirCtx s f i - f.ctxAddr)
  | none =>
    let used := usedExtents s k.vf
    match (List.range 127).find? (fun i => !used.any (fun e => e.1 == i)) with
    | none => none
    | some i => (freePlace f.ctxBytes (ctxSize k.nlt) used).map (fun o => (i, o))

/-- Write a new directory entry: COLIDX, STATE 0, and CURRENT all ones. -/
def newEntry (s : State) (f : Vf) (i off idx : Nat) : State :=
  let s1 := physWr s (dirAt f i) (natBytes 2 idx ++ [0, 0, 0, 0, 0, 0] ++ natBytes 8 off ++ List.replicate 16 0)
  let s2 := if dirCount s f ≤ i then physPut s1 f.ctxAddr 4 (i + 1) else s1
  physWr s2 (f.ctxAddr + off) (List.replicate 8 0xFF)

/-- A colour takes a place in its VF's context area when it has none. -/
def takeCtx (s : State) (c : BitVec 12) (k : Colour) : Option (Nat × State) :=
  match k.ctx with
  | some i => some (i, s)
  | none => match placeCtx s k with
    | some (i, off) => some (i, (newEntry s (s.vf k.vf) i off (colidx s c.toNat)).updCol c.toNat (fun x => { x with ctx := some i }))
    | none => none

/-- Some byte of a VF's directory, or of the heads of its contexts, lies on a stack that is not ready: the access waits (R341). -/
def areaWaits (s : State) (f : Vf) : Bool :=
  physWaits s f.ctxAddr 4096 || (List.range (dirCount s f)).any (fun i => physWaits s (dirCtx s f i) 0x7000)

/-- Set STATE of an entry. -/
def setDirState (s : State) (f : Vf) (i n : Nat) : State := physWr s (dirAt f i + 2) [BitVec.ofNat 8 n]

/-- Set GSW of an entry, with the copies of GSWSAVE and GSWLOAD. -/
def setDirGsw (s : State) (f : Vf) (i n : Nat) : State :=
  physWr (physWr s (dirAt f i + 3) [BitVec.ofNat 8 n]) (dirAt f i + 16) (natBytes 8 f.gswSave.toNat ++ natBytes 8 f.gswLoad.toNat)

/-! ## A context in memory -/

/-- Where a colour context lies: in a context area, or in the address space of a VF (R276). -/
inductive CtxAt where
  | area (pa : Nat)
  | guest (vf va : Nat)
  deriving DecidableEq, Repr

/-- Read bytes of a context; what comes from outside the package stays until the access to the context is over. -/
def ctxRead (s : State) (a : CtxAt) (off n : Nat) : DevRes :=
  match a with
  | .area pa => paPeek s pfUnit (pa + off) n
  | .guest v va => devPeek s v (va + off) n

/-- Write bytes of a context. -/
def ctxWrite (s : State) (a : CtxAt) (off : Nat) (bs : List Byte) : DevRes :=
  match a with
  | .area pa => paWrite s pfUnit (pa + off) bs
  | .guest v va => devWrite s v (va + off) bs

/-- The access to a context is over: what its unit has read off the package has been used. -/
def ctxDone (s : State) (a : CtxAt) : State :=
  match a with
  | .area pa => if isRemote pa then dropBrought s (· == pfUnit.unit) else s
  | .guest v _ => dropBrought s (· == 4096 + v)

/-- Write pieces of a context in order. -/
def ctxWrites (s : State) (a : CtxAt) : List (Nat × List Byte) → DevRes
  | [] => .ok [] s
  | (off, bs) :: rest => match ctxWrite s a off bs with
    | .ok _ s1 => ctxWrites s1 a rest
    | r => r

/-- How reading several pieces of a context ends: one list of bytes for each. -/
inductive PartsRes where
  | ok (bs : List (List Byte)) (s : State)
  | fault (cause reason : BitVec 8) (va : Nat) (s : State)
  | wait (s : State)

/-- Read pieces of a context: offsets and lengths; a piece of no length takes no access. -/
def ctxParts (s : State) (a : CtxAt) : List (Nat × Nat) → PartsRes
  | [] => .ok [] s
  | (off, n) :: rest => match if n = 0 then .ok [] s else ctxRead s a off n with
    | .fault c r va s1 => .fault c r va s1
    | .wait s1 => .wait s1
    | .ok bs s1 => match ctxParts s1 a rest with
      | .ok more s2 => .ok (bs :: more) s2
      | r => r

/-! ## Blocks (R266, Table 11.8; inner layouts by log entry 9) -/

/-- Offset of a tile slot: slot `sl` of logical tile `t` (Table 11.7). -/
def slotOff (t sl : Nat) : Nat := 0x1210000 + (2 * t + sl) * 0x104000

/-- Offset and size of block `b` in a tile slot (Table 11.8). -/
def blockPlace (b : Nat) : Nat × Nat :=
  if b < 16 then (0x800 * b, 0x800)
  else if b < 32 then (0x8000 + 0x1400 * (b - 16), 0x1400)
  else if b < 48 then (0x1C000 + 0x5000 * (b - 32), 0x5000)
  else if b < 176 then (0x6C000 + 0x1000 * (b - 48), 0x1000)
  else if b < 180 then (0xEC000 + 0x4000 * (b - 176), 0x4000)
  else (0xFC000, 0x8000)

/-- The dirty blocks of a logical tile: a scratch block is dirty where one of its lines is (Table 11.8). -/
def dirtyBlocks (l : List Nat) : List Nat := (l.map (fun b => if b < 181 then b else 48 + (b - 181) / 64)).foldl setIns []

/-- An 80-byte token image with its arrival order. -/
def tokenImage (t : Token) (n : Nat) : List Byte :=
  natBytes 64 t.data.toNat ++ natBytes 6 (t.colour ++ t.frame ++ t.wave : BitVec 48).toNat ++ natBytes 2 t.lstake.toNat ++
    [BitVec.ofNat 8 (t.port.toNat + 4 * t.fmt.toNat + 32 * t.kind.toNat)] ++ natBytes 2 t.chk.toNat ++ [1] ++ natBytes 4 n

/-- Token images of a block: `n` records from record `k` of a list on, zero where the list ends. -/
def tokenBlock (l : List (Token × Nat)) (k n : Nat) : List Byte :=
  ((List.range n).map (fun (i : Nat) => match l[k + i]? with
    | some t => tokenImage t.1 t.2
    | none => List.replicate 80 0)).flatten

/-- Tokens in the operand buffers of a logical tile: by stake, then by port, then in arrival order. -/
def bufferTokens (sts : List StakeSt) : List Token :=
  sts.flatMap (fun st => [0, 1, 2, 3].flatMap (fun p => ((st.port p).buf.filter (fun i => i.tok.kind != 1)).map (·.tok)))

/-- Tokens that take rows of the matching store, in arrival order: those of complete operand sets, rows, and what waits for a flip. -/
def rowOrder (sts : List StakeSt) (rows : List Token) (early : List PItem) : List Token :=
  sts.flatMap (fun st => st.ready.flatMap OpSet.toks) ++ rows ++ early.map (·.tok)

/-- The row records: tokens by logical stake, then by port, then in arrival order, which each holds (R266). -/
def rowTokens (l : List Token) : List (Token × Nat) :=
  let ls := (l.map (fun t => t.lstake.toNat)).foldl setIns []
  ls.flatMap (fun n => [0, 1, 2, 3].flatMap (fun p => l.zipIdx.filter (fun x => x.1.lstake.toNat == n && x.1.port.toNat == p)))

/-- A bank of accumulators as bytes. -/
def accBytes (a : Acc) : List Byte := (List.range 4096).flatMap (fun (i : Nat) => natBytes 4 (mapGet a.elems i 0).toNat)

/-- MODE, STEPS and owner of a bank in 16 bytes. -/
def accHead (a : Acc) : List Byte :=
  let owner (o : Option (BitVec 12 × BitVec 12)) : List Byte := match o with
    | some (c, f) => natBytes 3 (c ++ f : BitVec 24).toNat ++ [1]
    | none => [0, 0, 0, 0]
  [if a.isInt then 1 else 0, if a.qint then 1 else 0, 0, 0] ++ natBytes 4 a.steps.toNat ++ owner a.owner ++ owner a.qowner

/-- A queued matrix command in 64 bytes. -/
def cmdBytes (m : MatCmd) : List Byte :=
  natBytes 16 m.word.toNat ++ natBytes 6 (m.colour ++ m.frame ++ m.wave : BitVec 48).toNat ++ natBytes 2 m.lstake.toNat ++
    natBytes 2 (m.fa.toNat + 8 * m.fb.toNat) ++ natBytes 8 m.fpctl.toNat ++ natBytes 8 m.colkey.toNat ++ natBytes 22 m.opa.toNat

/-- Bytes padded with zeros, or cut, to a length. -/
def padTo (n : Nat) (l : List Byte) : List Byte := l.take n ++ List.replicate (n - l.length) 0

/-- A header latch of a port of a stake in 80 bytes. -/
def latchBytes (l : BitVec 16) (p : Nat) (x : Latch) : List Byte :=
  natBytes 64 x.hdr.toNat ++ natBytes 4 x.count ++ natBytes 2 l.toNat ++ [BitVec.ofNat 8 p, 1] ++
    (match x.pair with
      | some (c, f) => natBytes 3 (c ++ f : BitVec 24).toNat ++ [1]
      | none => [0, 0, 0, 0]) ++ [if x.sent then 1 else 0, 0, 0, 0]

/-- The miscellany block (Table 11.8). -/
def miscBlock (t : Tile) (sts : List StakeSt) : List Byte :=
  let full := (List.range 1024).map (fun (i : Nat) => BitVec.ofNat 8 (((rangeFrom (8 * i) 8).zipIdx.map (fun l =>
    if t.full.contains l.1 then 2 ^ l.2 else 0)).sum))
  let kn := (List.range 128).flatMap (fun (i : Nat) => match sts.find? (fun st => st.lstake.toNat % 128 == i) with
    | some st => natBytes 2 st.kn
    | none => [0, 0])
  let lat := sts.flatMap (fun st => [0, 1, 2].flatMap (fun p => (st.port p).latches.flatMap (latchBytes st.lstake p)))
  full ++ padTo 0x400 ([t.m0, t.m1, t.m2, t.m3].flatMap accHead) ++ padTo 0x800 (t.cmds.flatMap cmdBytes) ++ padTo 0x200 kn ++
    padTo (0x8000 - 0x1200) lat

/-- The bytes of block `b` of a logical tile as its snapshot holds it. -/
def blockBytes (t : Tile) (b : Nat) : List Byte :=
  let sts := mapVals t.bank0.slots
  if b < 16 then
    (rangeFrom (8 * b) 8).flatMap (fun (i : Nat) => match mapGet? t.bank0.slots i with
      | some st => [st.l0, st.l1, st.l2, st.l3].flatMap (fun v => natBytes 64 v.toNat)
      | none => List.replicate 256 0)
  else if b < 32 then tokenBlock (bufferTokens sts).zipIdx (64 * (b - 16)) 64
  else if b < 48 then tokenBlock (rowTokens (rowOrder sts t.rows t.early)) (256 * (b - 32)) 256
  else if b < 176 then (rangeFrom (4096 * (b - 48)) 4096).map (fun (i : Nat) => mapGet t.scratch i 0)
  else if b < 180 then accBytes ([t.m0, t.m1, t.m2, t.m3].getD (b - 176) Acc.reset)
  else miscBlock t sts

/-! ## The frame part and the commit record (R265) -/

/-- Flags of a frame-table entry: live, stopped, root. A frame that a trap has stopped is live (R464). -/
def frameFlags (x : Frame) : Nat :=
  (if x.phase = .purging then 0 else 1) + (if x.phase.halted then 2 else 0) + (if x.root then 4 else 0)

/-- A frame-table entry. -/
def frameEntry (x : Frame) : List Byte :=
  natBytes 2 x.num.toNat ++ natBytes 2 x.parent.toNat ++ natBytes 4 x.seq.toNat ++ natBytes 2 x.mask.toNat ++ natBytes 2 x.homeLt ++
    [BitVec.ofNat 8 (frameFlags x), match x.slot with
      | some n => BitVec.ofNat 8 n
      | none => 0xFF] ++ natBytes 2 x.arrived.toNat ++ List.replicate 16 0

/-- Chain values of a frame, coded as in Table 11.3. -/
def chainEntry (x : Frame) : List Byte :=
  natBytes 4 x.cw.toNat ++ natBytes 2 (chainCode x.last) ++ natBytes 2 (chainCode x.nxt) ++ List.replicate 8 0

/-- A copy command in 64 bytes. -/
def copyEntry (c : CopyCmd) : List Byte :=
  natBytes 8 c.src ++ natBytes 8 c.dst ++ natBytes 8 c.len ++ natBytes 8 c.off ++ natBytes 4 c.num.toNat ++
    natBytes 2 c.frame.toNat ++ [if c.wp then 1 else 0, c.ty.code.setWidth 8] ++ natBytes 8 c.acked ++ List.replicate 16 0

/-- The copy commands of a queue. -/
def CopyQ.cmds (q : CopyQ) : List CopyCmd := q.items.filterMap (fun i => match i with
  | .cmd c => some c
  | .fence _ => none)

/-- A ticket slot in 16 bytes. -/
def ticketEntry (t : Ticket) : List Byte :=
  natBytes 4 t.tser.toNat ++ natBytes 2 t.frame.toNat ++ [t.sy.setWidth 8, if t.epoch then 1 else 0] ++ natBytes 4 t.covered.length ++
    [0, 0, 0, 0]

/-- The engine head (R265), with the serial number of the recorded state, from 1, in its last bytes (log entry 9). -/
def engineHead (sv : Saved) (held : Nat) : List Byte :=
  let cmds := (List.range 16).map (fun (n : Nat) => natBytes 1 (mapGet sv.col.copyq n CopyQ.reset).cmds.length)
  let head := match sv.col.spilled.head? with
    | some e => e.seq
    | none => sv.col.spillNext
  padTo 56 (natBytes 4 sv.col.frames.length ++ cmds.flatten ++ natBytes 4 held ++ natBytes 4 sv.tickets.length ++
    natBytes 8 head ++ natBytes 8 sv.col.spillNext ++ natBytes 8 sv.col.spillNext) ++ natBytes 8 (sv.sid + 1)

/-- The held records of a saved colour (R265, Table 11.4). -/
def heldRecords (sv : Saved) : List Record := sv.reqs.map (fun r => requestRecord r.1 (advanceDesc r.2) false)

/-- Offset of a frame slot. -/
def fslotOff (n : Nat) : Nat := if n = 1 then 0x910000 else 0x10000

/-- The frame part: the areas of a frame slot, each packed from its start (R265). -/
def framePart (sv : Saved) : List (Nat × List Byte) :=
  let fs := mapVals sv.col.frames
  let recs := heldRecords sv
  [(0, fs.flatMap frameEntry), (0x20000, fs.flatMap chainEntry),
   (0x30000, (List.range 16).flatMap (fun (n : Nat) => (mapGet sv.col.copyq n CopyQ.reset).cmds.flatMap copyEntry)),
   (0x40000, recs.flatMap Record.bytes),
   (0x840000, engineHead sv recs.length ++ sv.tickets.flatMap ticketEntry)]

/-- Bytes of the frame part of a save (R265). -/
def framePartSize (k : Colour) (held tickets : Nat) : Nat :=
  48 * k.frames.length + 64 * ((mapVals k.copyq).map (fun q => q.cmds.length)).sum + 256 * held + 16 * tickets + 64

/-- A commit record up to its bitmaps. -/
def commitHead (sv : Saved) (seq fslot oldBase : Nat) (time : W64) : List (Nat × List Byte) :=
  [(0, natBytes 8 seq ++ natBytes 8 time.toNat ++ natBytes 2 sv.col.round.toNat ++ natBytes 2 sv.col.nlt ++
      natBytes 4 sv.col.weave.toNat ++ [BitVec.ofNat 8 fslot, 0] ++ natBytes 2 oldBase),
   (0x100, (List.range 64).flatMap (fun (n : Nat) => natBytes 8 (ctlRead sv.col n).toNat)),
   (0x400, (List.range 16).flatMap (fun (n : Nat) => natBytes 64 (mapGet sv.col.tms n 0).toNat))]

/-! ## Writing a commit (R267) -/

/-- What the current commit of a context says. -/
structure Commit where
  /-- CURRENT. -/
  cur : Nat
  /-- SEQ. -/
  seq : Nat
  /-- The wale round. -/
  round : Nat
  /-- NLT. -/
  nlt : Nat
  /-- WEAVEID. -/
  weave : Nat
  /-- FSLOT. -/
  fslot : Nat
  /-- OLDBASE. -/
  oldBase : Nat
  /-- The bitmaps. -/
  maps : List Byte
  deriving DecidableEq, Repr

/-- Bit `b` of logical tile `t` in the bitmaps. -/
def Commit.bit (m : Commit) (t b : Nat) : Bool := (m.maps.getD (32 * t + b / 8) 0).getLsbD (b % 8)

/-- How reading the current commit ends; none before the first. -/
inductive CommitRes where
  | ok (m : Option Commit) (s : State)
  | fault (cause reason : BitVec 8) (va : Nat) (s : State)
  | wait (s : State)

/-- The number in `n` bytes at a place in a list. -/
def numAt (l : List Byte) (off n : Nat) : Nat := leNat ((l.drop off).take n)

/-- Read the current commit of a context. -/
def readCommit (s : State) (a : CtxAt) : CommitRes :=
  match ctxRead s a 0 8 with
  | .fault c r va s1 => .fault c r va s1
  | .wait s1 => .wait s1
  | .ok cb s1 =>
    let cur := leNat cb
    if 1 < cur then .ok none s1
    else match ctxRead s1 a (crOff cur) 32 with
      | .fault c r va s2 => .fault c r va s2
      | .wait s2 => .wait s2
      | .ok h s2 => match ctxRead s2 a (crOff cur + 0x1000) (32 * min 512 (numAt h 18 2)) with
        | .fault c r va s3 => .fault c r va s3
        | .wait s3 => .wait s3
        | .ok maps s3 => .ok (some { cur := cur, seq := numAt h 0 8, round := numAt h 16 2, nlt := numAt h 18 2, weave := numAt h 20 4,
                                     fslot := numAt h 24 1, oldBase := numAt h 26 2, maps := maps }) s3

/-- The slot that the next save writes for block `b` of logical tile `t`: the one that is not current; slot 1 at the first. -/
def nextSlot (m : Option Commit) (t b : Nat) : Nat :=
  match m with
  | none => 1
  | some x => if x.bit t b then 0 else 1

/-- The bitmaps after a save has written the dirty blocks of each logical tile. -/
def newMaps (m : Option Commit) (nlt : Nat) (dirty : Nat → List Nat) : List Byte :=
  (List.range nlt).flatMap (fun (t : Nat) => (List.range 32).map (fun (j : Nat) =>
    BitVec.ofNat 8 (((rangeFrom (8 * j) 8).zipIdx.map (fun b =>
      let old := match m with
        | some x => x.bit t b.1
        | none => false
      let now := if (dirty t).contains b.1 then nextSlot m t b.1 == 1 else old
      if now then 2 ^ b.2 else 0)).sum)))

/-- Everything that a save writes, CURRENT last (R267). -/
def commitWrites (sv : Saved) (m : Option Commit) (oldBase : Nat) (time : W64) : List (Nat × List Byte) :=
  let dirty (t : Nat) : List Nat := match mapGet? sv.tiles t with
    | some x => dirtyBlocks x.dirty
    | none => []
  let blocks := sv.tiles.flatMap (fun t => (dirtyBlocks t.2.dirty).map (fun (b : Nat) =>
    (slotOff t.1 (nextSlot m t.1 b) + (blockPlace b).1, blockBytes t.2 b)))
  let fslot := match m with
    | some x => 1 - x.fslot
    | none => 1
  let cur := match m with
    | some x => 1 - x.cur
    | none => 0
  let seq := match m with
    | some x => x.seq + 1
    | none => 1
  blocks ++ ((framePart sv).filter (fun p => !p.2.isEmpty)).map (fun p => (fslotOff fslot + p.1, p.2)) ++
    (commitHead sv seq fslot oldBase time).map (fun p => (crOff cur + p.1, p.2)) ++
    [(crOff cur + 0x1000, newMaps m sv.col.nlt dirty), (0, natBytes 8 cur)]

end Sys2Proof.Machine
end

