-- ==== Sys2Proof/Machine/Save.lean ====
section
/-! DEFINITION. Pre-emption, the recorded state of a colour and the commit of a save (R139, R176, R187, R259, R261, R264 to R267,
R276, R292, R304, R373, R511, R512). -/

namespace Sys2Proof.Machine

/-! ## The recorded state (R83, R139, R187, R261, R265, R512) -/

/-- One logical tile of a colour as saved: its stakes by slot number of their logical stake, its rows, and what its anchor holds. -/
def saveTile (s : State) (c : BitVec 12) (k : Colour) (lt anchor : Nat) : Tile :=
  let x := s.tile anchor
  let sts := (stakesOf s c).filter (fun st => st.lstake.toNat / 128 == lt)
  { Tile.reset with
    bank0 := { colour := some c, ltile := lt, slots := sts.map (fun st => (st.lstake.toNat % 128, { st.unbound with unitMark := none })) }
    rows := k.tileList.flatMap (fun t => (s.tile t).rows.filter (fun r => r.colour == c && r.lstake.toNat / 128 == lt))
    early := k.tileList.flatMap (fun t => (s.tile t).early.filter (fun i => i.tok.colour == c && i.tok.lstake.toNat / 128 == lt))
    scratch := x.scratch
    full := x.full
    bad := x.bad
    m0 := x.m0
    m1 := x.m1
    m2 := x.m2
    m3 := x.m3
    cmds := x.cmds.filter (fun m => m.colour == c)
    dirty := x.dirty }

/-- The messages of a colour that have not been answered, or whose late answers the save discards (R83). -/
def colourOuts (s : State) (c : BitVec 12) : List Outbound := (s.host.out ++ s.wick.out ++ s.reis).filter (fun o => o.awaitedBy c)

/-- The message is a read of the host: a resume sends it anew (R176). -/
def Outbound.hostRead (o : Outbound) : Bool := isHost o.addr && !o.kind.writes

/-- The message is a part of a request. -/
def Outbound.partOf (o : Outbound) (id : Nat) : Bool :=
  match o.who with
  | .req i _ => i == id
  | _ => false

/-- A recorded request has been sent and stays so: it has messages that are reissued and no read of the host, or has performed in
part (R83, R176, R512). -/
def staysSent (outs : List Outbound) (id : Nat) (r : Request) : Bool :=
  let mine := outs.filter (fun o => o.partOf id)
  r.remote && !mine.any Outbound.hostRead && (!mine.isEmpty || r.done != 0)

/-- A request as recorded: one to the host or a peer that has been sent keeps the messages that are reissued; every other that has
issued is withdrawn to the held state, and issues again in its order (R83, R176, R261, R512). -/
def saveReq (outs : List Outbound) (id : Nat) (r : Request) : Request :=
  match r.phase with
  | .chan | .held | .performed => r
  | .issued =>
    let tags := (outs.filter (fun o => o.partOf id)).map (·.tag)
    if staysSent outs id r then { r with tags := r.tags.filter tags.contains, acks := [] }
    else { advanceDesc r with phase := .held, waiting := false, sy := 0, tags := [], acks := [], again := true, done := 0, data := 0,
                              lineRd := false }

/-- A copy command as recorded: a piece that has been read and not written whole is read again, and the parts of it that have been
written stay so. -/
def saveItem : QItem → QItem
  | .cmd c => .cmd { c with data := none, acks := [] }
  | .fence i => .fence i

/-- A ticket slot as recorded: a wait of R175 that has begun begins again in the epoch of its colour (R187). -/
def saveTicket (k : Colour) (t : Ticket) : Ticket := if t.sy = 1 ∨ t.sy = 2 then { t with sy := 1, epoch := k.ep } else t

/-- A frame as recorded: every tile has stopped it. -/
def saveFrame (x : Frame) : Frame := { x with awaitTiles := [], stopped := [] }

/-- The colour record as saved: no cut, no count of unacknowledged writes (R176). -/
def saveColour (k : Colour) : Colour :=
  { k with
    cut := none
    want := none
    noStart := false
    out0 := 0
    out1 := 0
    swap := none
    frames := k.frames.map (fun f => (f.1, saveFrame f.2))
    copyq := k.copyq.map (fun q => (q.1, { q.2 with items := q.2.items.map saveItem })) }

/-- The recorded state of a colour. -/
def snapshot (s : State) (c : BitVec 12) (k : Colour) (why : CutWhy) (entry : Option Nat) : Saved :=
  let outs := colourOuts s c
  let mine := s.reqs.filter (fun r => r.2.colour == c)
  let kept (o : Outbound) : Bool := match o.who with
    | .req id _ => (mapGet? mine id).any (staysSent outs id)
    | _ => true
  { vf := k.vf, entry := entry, colidx := colidx s c.toNat, col := saveColour k,
    tiles := k.anchors.map (fun a => (a.1, saveTile s c k a.1 a.2)),
    reqs := mine.map (fun r => (r.1, saveReq outs r.1 r.2)),
    net := (netOf s c).map (fun x => { x with items := x.items.filter (fun i => match i with
      | .tok t => t.kind != 1
      | .beyond _ => true) }),
    tickets := ((s.clus.flatMap (fun x => x.2.tickets)).filter (fun t => t.colour == c)).map (saveTicket k),
    outs := (outs.filter (fun o => !o.hostRead && kept o)).map (fun o => { o with late := none, epoch := none }), why := why,
    sid := s.nextSave }

/-- A host write or AtomicOp that has been sent is kept in the port's store, with a result that has come already (R176). -/
def storeEnt (o : Outbound) : StoreEnt :=
  { tag := o.tag, colour := o.colour, addr := o.addr, atomic := match o.kind with
      | .atomic _ _ _ _ => true
      | _ => false
    result := match o.late with
      | some (v, none) => some v
      | _ => none
    fault := o.late.bind (·.2) }

/-- The port and the links record what a colour has outstanding: late responses are discarded, host writes are kept (R83, R176). -/
def recordOuts (s : State) (c : BitVec 12) : State :=
  let go (o : Outbound) : Option Outbound :=
    if !o.awaitedBy c then some o
    else if o.late.isSome then none
    else some { o with recorded := true, epoch := none }
  { s with
    host := { s.host with
      out := s.host.out.filterMap go
      store := s.host.store ++ ((s.host.out.filter (fun o => o.awaitedBy c && o.kind.writes)).map storeEnt) }
    wick := { s.wick with out := s.wick.out.filterMap go }
    reis := s.reis.filter (fun o => !o.awaitedBy c) }

/-- A saved colour leaves its tiles (step 5 of R259): what its engines have read off the package is read again. -/
def leaveTiles (s : State) (c : BitVec 12) : State :=
  unbindColour (recordOuts (dropBrought (dropSolder s c) (unitOf s c)) c) c

/-- A recorded state that has been resumed once, or that a later save of its context has replaced: its messages have been reissued or
are discarded, and the device resumes it no more on its own. -/
def Saved.spent (sv : Saved) : Saved :=
  let item (i : QItem) : QItem := match i with
    | .cmd c => .cmd { c with tags := [] }
    | .fence n => .fence n
  { sv with
    why := .save 0
    outs := []
    reqs := sv.reqs.map (fun r => (r.1, { r.2 with tags := [] }))
    col := { sv.col with copyq := sv.col.copyq.map (fun q => (q.1, { q.2 with items := q.2.items.map item })) } }

/-- The recorded states that lie in an entry of a VF's context area are spent. -/
def spendEntry (s : State) (v : Nat) (entry : Option Nat) : State :=
  let mine (sv : Saved) : Bool := sv.vf == v && entry.isSome && sv.entry == entry
  dropStored { s with saved := s.saved.map (fun x => (x.1, if mine x.2 then x.2.spent else x.2)) }
    ((s.saved.filter (fun x => mine x.2)).flatMap (fun x => x.2.outs))

/-- Keep a recorded state under its serial number; it replaces what its entry of the context area held. -/
def keepSaved (s : State) (sv : Saved) : State :=
  let s1 := spendEntry s sv.vf sv.entry
  { s1 with saved := mapPut s1.saved sv.sid sv, nextSave := sv.sid + 1 }

/-- Write a commit and its recorded state (R267). -/
def commitAt (s : State) (a : CtxAt) (oldBase : Nat) (sv : Saved) : DevRes :=
  match readCommit s a with
  | .fault c r va s1 => .fault c r va (ctxDone s1 a)
  | .wait s1 => .wait s1
  | .ok m s1 => match ctxWrites s1 a (commitWrites sv m oldBase s1.time) with
    | .ok _ s2 => .ok [] (keepSaved (ctxDone s2 a) sv)
    | r => r

/-! ## What ends a pre-emption -/

/-- Room for one event more in the PF's buffer. -/
def pfRoom (s : State) : Bool := decide (s.pf.q.evbuf.length < 64)

/-- A GSW event of a colour (R276, R373). -/
def gswEvent (s : State) (c : BitVec 12) (status : BitVec 8) (id : BitVec 32) : Event :=
  { Event.zero with ty := 9, status := status, colidx := BitVec.ofNat 16 (colidx s c.toNat), id := id }

/-- Status KILLED or QUENCHED of a CFGSWAP request that is dropped (R373). -/
def dropStatus : CutWhy → BitVec 8
  | .quench => 4
  | _ => 3

/-- The events that a commit raises find room. -/
def commitRoom (s : State) (k : Colour) (why : CutWhy) : Bool :=
  (match why with
    | .save _ => pfRoom s
    | .swap _ => canRaise s k.vf
    | _ => true) && (k.swap.isNone || canRaise s k.vf) && !areaWaits s (s.vf k.vf)

/-- A CFGSWAP request that still waits is dropped with its event when the colour is unbound for another reason (R373). -/
def dropSwap (s : State) (c : BitVec 12) (k : Colour) (why : CutWhy) : State :=
  match why, k.swap with
  | .swap _, _ => s
  | _, none => s
  | w, some x => raise s k.vf (gswEvent s c (dropStatus w) x.1)

/-- The colours of a VF are all saved: a pause is complete (R292). -/
def pauseDone (s : State) (v : Nat) : State :=
  if (s.vf v).pause && (colsOf s v).isEmpty then s.updVf v (fun f => { f with paused := true, holds := false }) else s

/-- The course of a colour in its partition's quench. -/
def courseOf (p : Part) (c : BitVec 12) : Option QCourse := p.courses.find? (fun q => q.colour == c)

/-- A colour has been vacated (R274). -/
def vacate (s : State) (part : Nat) (c : BitVec 12) : State :=
  s.updPart part (fun p => { p with courses := p.courses.map (fun q => if q.colour == c then { q with vacated := true } else q) })

/-- Bind a colour afresh to a weave, keeping its lead and its task queues (R38, R40). -/
def rebind (s : State) (c : BitVec 12) (k : Colour) (w : Weave) : State :=
  { s with cols := mapPut s.cols c.toNat (newColour k.vf k.part w k.lead s.clk) }

/-- The weave that a CFGSWAP asked for is still registered as it was (R373). -/
def swapWeave (s : State) (k : Colour) (id : BitVec 32) : Option Weave :=
  match weave? s k.vf id with
  | some w => if k.swap == some (id, w.reg) then some w else none
  | none => none

/-- A colour is out of its tiles: what its pre-emption was for goes on. -/
def afterSave (s : State) (c : BitVec 12) (k : Colour) (why : CutWhy) : State :=
  let s1 := match why with
    | .save cmd => raisePf s (cmdEvent cmd 0)
    | .swap id =>
      match swapWeave s k id with
      | some w =>
        let s1 := rebind s c k w
        raise s1 k.vf (gswEvent s1 c 0 id)
      | none => s
    | _ => s
  pauseDone (vacate s1 k.part c) k.vf

/-! ## Pre-emption -/

/-- A cut that serves a save is under way for the colour, or has been asked for. -/
def preempted (k : Colour) : Bool :=
  k.want.isSome || match k.cut with
    | some x => x.why != .round
    | none => false

/-- Why the colour is being pre-empted. -/
def preemptWhy (k : Colour) : Option CutWhy :=
  match k.cut with
  | some x => if x.why = .round then k.want else some x.why
  | none => k.want

/-- Change the reason of a pre-emption in progress. -/
def setWhy (s : State) (c : BitVec 12) (why : CutWhy) : State :=
  s.updCol c.toNat (fun k => { k with
    want := k.want.map (fun _ => why)
    cut := k.cut.map (fun x => if x.why = .round then x else { x with why := why }) })

/-- Pre-empt a colour; a pre-emption by the hypervisor takes over a guest switch of it (R276). -/
def preemptFor (s : State) (c : BitVec 12) (why : CutWhy) : State :=
  match s.col? c.toNat with
  | none => s
  | some k => match preemptWhy k with
    | none => preempt s c why
    | some .guest => setWhy s c why
    | some _ => s

/-- The answer to a message reaches what awaits it. -/
def answerOut (s : State) (c : BitVec 12) (o : Outbound) (data : W512) (bad : Option (BitVec 8 × BitVec 8)) : State :=
  match o.who with
  | .req id off => answerReq s id off o.tag data bad
  | .copy _ q num _ _ => copyAnswer s c q num o.tag
  | .device _ => s

/-- The late answers of a colour whose cut is not used for a save are delivered (R83). -/
def deliverLate (s : State) (c : BitVec 12) : State :=
  let late (o : Outbound) : Bool := o.awaitedBy c && o.late.isSome
  let s1 : State := { s with
    host := { s.host with out := s.host.out.filter (fun o => !late o) }
    wick := { s.wick with out := s.wick.out.filter (fun o => !late o) } }
  ((s.host.out ++ s.wick.out).filter late).foldl (fun s o => match o.late with
    | some (v, b) => answerOut (sendRel s o) c o v b
    | none => s) s1

/-- A pre-emption that cannot go on is abandoned: the colour runs on, with the late answers that its cut held back (R83); the colour of a
pausing VF is pre-empted for the pause (R292). -/
def abandon (s : State) (c : BitVec 12) : State :=
  let s1 := deliverLate (s.updCol c.toNat (fun k => { k with want := none, cut := none, noStart := false })) c
  match s1.col? c.toNat with
  | some k => if (s1.vf k.vf).pause then preempt s1 c .pause else s1
  | none => s1

/-- A CFGSWAP request ends without a switch (R373). -/
def endSwap (s : State) (c : BitVec 12) (k : Colour) (status : BitVec 8) (id : BitVec 32) : State :=
  (raise s k.vf (gswEvent s c status id)).updCol c.toNat (fun k => { k with swap := none })

/-- The context area cannot take the context (R263, R373): a SAVE command and a CFGSWAP end with CTXFULL; any other pre-emption
waits for room. -/
def noCtx (s : State) (c : BitVec 12) (k : Colour) (why : CutWhy) : State :=
  match why with
  | .save cmd => raisePf (abandon s c) (cmdEvent cmd 8)
  | .swap id => endSwap (abandon s c) c k 8 id
  | _ => s

/-! ## Guest switches (R276) -/

/-- Set PHASE. -/
def setGsw (s : State) (v : Nat) (p : GswPhase) : State :=
  s.updVf v (fun f => { f with gsw := p, gswAgain := f.gswAgain && (p == .cut || p == .save || p == .load) })

/-- A guest switch of this colour is in the course of its cut or its save. -/
def gswCutting (f : Vf) (s : State) (c : BitVec 12) : Bool :=
  (f.gsw == .cut || f.gsw == .save) && (s.part f.part.toNat).tbase + f.gswCol == c

/-- A guest switch fails, with an event. -/
def gswFail (s : State) (v : Nat) (status : BitVec 8) : State :=
  let f := s.vf v
  raise (setGsw s v .fail) v { Event.zero with ty := 9, status := status, colidx := f.gswCol.setWidth 16 }

/-! ## SAVE_COMMIT -/

/-- The piece of a copy queue's command has been read, and its next part goes to memory on the package: a command stops at the end of its
piece (R261). -/
def pieceOpen (q : CopyQ) : Bool :=
  match q.items with
  | .cmd c :: _ => c.data.isSome && match partAt c.part (entryParts (c.side true) (c.dst + c.off) c.size) 0 with
    | some (p, _) => !isRemote p.1
    | none => true
  | _ => false

/-- A colour may be committed: its cut is whole, its local work has drained, no purge sweep is left, and its course is not DISC. -/
def commitReady (s : State) (c : BitVec 12) (k : Colour) : Option CutWhy :=
  match k.cut with
  | some x =>
    let disc := match courseOf (s.part k.part) c with
      | some q => (s.part k.part).state == .accepted && q.course == .disc
      | none => false
    if x.whole && x.why != .round && drained s c k && !(mapVals k.copyq).any pieceOpen && k.retiring.isEmpty && !disc &&
        commitRoom s k x.why then some x.why
    else none
  | none => none

/-- Save a colour into its VF's context area and unbind it (R259, R264, R267). -/
def commitArea (s : State) (c : BitVec 12) (k : Colour) (why : CutWhy) : State :=
  match takeCtx s c k with
  | none => noCtx s c k why
  | some (i, s1) =>
    let f := s1.vf k.vf
    let pa := dirCtx s1 f i
    let sv := snapshot s1 c { k with ctx := some i } why (some i)
    match commitAt s1 (.area pa) (s1.part k.part).tbase.toNat sv with
    | .ok _ s2 =>
      let s3 := setDirState s2 f i 1
      let s4 := if gswCutting f s c then setDirGsw s3 f i 1 else s3
      afterSave (leaveTiles (dropSwap s4 c k why) c) c k why
    | .fault _ _ _ s2 => s2
    | .wait s2 => s2

/-- Save a colour into the guest's context, or only drop it where GSWSAVE is 0, and go on to the load (R276). -/
def commitGuest (s : State) (c : BitVec 12) (k : Colour) : State :=
  let f := s.vf k.vf
  let next (s : State) : State := setGsw s k.vf (if f.gswLoad = 0 then .done else .load)
  let go (s : State) : State := next (leaveTiles (dropSwap s c k .guest) c)
  if f.gsw = .cut then setGsw s k.vf .save
  else if f.gsw ≠ .save then s
  else if f.gswSave = 0 then next (unbindColour (forgetOut (dropSolder (dropSwap s c k .guest) c) c) c)
  else match commitAt s (.guest k.vf f.gswSave.toNat) (s.part k.part).tbase.toNat (snapshot s c k .guest none) with
    | .ok _ s1 => go s1
    | .fault _ _ _ s1 => abandon (gswFail s1 k.vf 9) c
    | .wait s1 => s1

/-- Commit a colour that is ready. -/
def commitColour (s : State) (c : BitVec 12) (k : Colour) : State :=
  match commitReady s c k with
  | none => s
  | some .guest => commitGuest s c k
  | some (.swap id) => if (swapWeave s k id).isSome then commitArea s c k (.swap id) else endSwap (abandon s c) c k 10 id
  | some why => commitArea s c k why

end Sys2Proof.Machine
end

