-- ==== Sys2Proof/Machine/Reload.lean ====
section
/-! DEFINITION. Reading a committed context back: what its bytes hold replaces what was recorded beside them (R265 to R267, Table
11.8; log entry 9). -/

namespace Sys2Proof.Machine

/-! ## Registers, frames and chain values (R265) -/

/-- A chain value: 0x3FF stands for none (Table 11.3). -/
def chainOf (n : Nat) : Option (BitVec 9) := if n = 0x3FF then none else some (BitVec.ofNat 9 n)

/-- A barrier with the fields of its BARCNTn (Table 2.3). -/
def Barrier.load (b : Barrier) (w : W64) : Barrier :=
  { b with gen := w.extractLsb' 32 16, broken := w.getLsbD 31, arrived := w.extractLsb' 16 13, expect := w.extractLsb' 0 13 }

/-- Control registers and tensor maps of a colour from its commit record; reserved bits read 0 (R9). -/
def loadRegs (k : Colour) (round : Nat) (ctl tms : List Byte) : Colour :=
  let r (n : Nat) : W64 := BitVec.ofNat 64 (numAt ctl (8 * n) 8)
  { k with
    round := BitVec.ofNat 16 round
    fpctl := fpctlMask (r 0)
    colkey := r 2
    spillbase := spillbaseMask (r 3)
    quota := (r 4).setWidth 13
    spills := (r 4).extractLsb' 16 32
    trapvec := r 5
    bars := (List.range 16).foldl (fun m (n : Nat) =>
      let b := (mapGet m n Barrier.reset).load (r (0x10 + n))
      if b != Barrier.reset || (mapGet? m n).isSome then mapPut m n b else m) k.bars
    tms := (List.range 16).foldl (fun m (n : Nat) =>
      let v := setFld (BitVec.ofNat 512 (numAt tms (64 * n) 64)) 180 32 0
      if v != 0 || (mapGet? k.tms n).isSome then mapPut m n v else m) [] }

/-- A frame of which nothing but its entry is known: the context holds no task record (log entry 9). -/
def Frame.blank (num : BitVec 12) : Frame :=
  { num := num, seq := 0, parent := 0, home := 0, homeLt := 0, mask := 0, arrived := 0, cw := 0, last := none, nxt := none, root := false,
    task := 0, stamp := 0, handler := false, phase := .live, ended := false, tend := false, awaitTiles := [], stopped := [], slot := none,
    cause := 0, reason := 0, tstake := 0, faddr := 0, time := 0, frec := 0, recs := [], toHost := false, areaFault := false, retry := 0,
    hold := none }

/-- A frame from its frame-table entry and its chain values. -/
def loadFrame (fs : NMap Frame) (e ch : List Byte) : Frame :=
  let num : BitVec 12 := BitVec.ofNat 12 (numAt e 0 2)
  let flags := numAt e 12 1
  let x := match mapGet? fs num.toNat with
    | some x => x
    | none => { Frame.blank num with phase := if flags.testBit 1 then .stopped else .live }
  { x with
    parent := BitVec.ofNat 12 (numAt e 2 2), seq := BitVec.ofNat 32 (numAt e 4 4), mask := BitVec.ofNat 16 (numAt e 8 2),
    homeLt := numAt e 10 2, root := flags.testBit 2, slot := if numAt e 13 1 = 0xFF then none else some (numAt e 13 1),
    arrived := BitVec.ofNat 16 (numAt e 14 2), cw := BitVec.ofNat 24 (numAt ch 0 4), last := chainOf (numAt ch 4 2),
    nxt := chainOf (numAt ch 6 2) }

/-- The frame table. -/
def loadFrames (fs : NMap Frame) (tab chains : List Byte) : NMap Frame :=
  ((pieces 32 4097 tab).zip (pieces 16 4097 chains)).foldl (fun m x =>
    let f := loadFrame fs x.1 x.2
    mapPut m f.num.toNat f) []

/-! ## Copy commands, held requests and tickets (R265) -/

/-- A copy command from its entry. -/
def loadCmd (old : Option CopyCmd) (e : List Byte) : CopyCmd :=
  { num := BitVec.ofNat 32 (numAt e 32 4), frame := BitVec.ofNat 12 (numAt e 36 2), ty := Ty.ofCode (BitVec.ofNat 4 (numAt e 39 1)),
    wp := numAt e 38 1 = 1, src := numAt e 0 8, dst := numAt e 8 8, len := numAt e 16 8, off := numAt e 24 8, acked := numAt e 40 8,
    pages := (old.map (·.pages)).getD [], data := none, snap := (old.map (·.snap)).getD [], tags := (old.map (·.tags)).getD [],
    part := (old.map (·.part)).getD 0, acks := [] }

/-- The entries of a queue with the commands that the context holds; the QFENCEs between them stay. -/
def loadItems : List QItem → List (List Byte) → List QItem
  | [], es => es.map (fun e => .cmd (loadCmd none e))
  | .fence i :: rest, es => .fence i :: loadItems rest es
  | .cmd c :: rest, e :: es => .cmd (loadCmd (some c) e) :: loadItems rest es
  | .cmd _ :: rest, [] => loadItems rest []

/-- The copy queues, by the number of commands that each holds; DONE comes from CQWPn. -/
def loadQueues (qs : NMap CopyQ) (ctl : List Byte) : Nat → List Nat → List (List Byte) → NMap CopyQ
  | _, [], _ => qs
  | n, c :: counts, es =>
    let q := mapGet qs n CopyQ.reset
    let items := loadItems q.items (es.take c)
    let done : BitVec 32 := BitVec.ofNat 32 (numAt ctl (8 * (0x20 + n) + 4) 4)
    let q1 : CopyQ := { accepted := done + BitVec.ofNat 32 c, done := done, items := items }
    loadQueues (if q1 != CopyQ.reset || (mapGet? qs n).isSome then mapPut qs n q1 else qs) ctl (n + 1) counts (es.drop c)

/-- A request record from its bytes (Table 11.4). -/
def Record.ofBytes (bs : List Byte) : Record :=
  let tag := numAt bs 208 6
  { opa := BitVec.ofNat 512 (numAt bs 0 64), opb := BitVec.ofNat 512 (numAt bs 64 64), opc := BitVec.ofNat 512 (numAt bs 128 64),
    word := BitVec.ofNat 128 (numAt bs 192 16), colour := BitVec.ofNat 12 (tag / 2 ^ 36), frame := BitVec.ofNat 12 (tag / 2 ^ 24),
    wave := BitVec.ofNat 24 tag, lstake := BitVec.ofNat 16 (numAt bs 214 2), port := BitVec.ofNat 2 (numAt bs 216 1),
    fmt := BitVec.ofNat 3 (numAt bs 216 1 / 4), rkind := BitVec.ofNat 8 (numAt bs 217 1), flags := BitVec.ofNat 8 (numAt bs 218 1),
    cause := BitVec.ofNat 8 (numAt bs 219 1), chk := BitVec.ofNat 16 (numAt bs 220 2), faddr := BitVec.ofNat 64 (numAt bs 224 8),
    rid := none, was := none }

/-- A request with the operands that its held record holds; one that has been sent keeps those it was sent with. -/
def loadHeld (r : Request) (bs : List Byte) : Request :=
  if r.phase = .issued then r
  else
    let x := Record.ofBytes bs
    { r with opa := x.opa, opb := x.opb, opc := x.opc }

/-- The recorded requests with their held records, and the records of requests of which nothing else is known. -/
def loadReqs : NMap Request → List (List Byte) → NMap Request × List Record
  | [], es => ([], es.map Record.ofBytes)
  | r :: rest, e :: es => let x := loadReqs rest es; ((r.1, loadHeld r.2 e) :: x.1, x.2)
  | _ :: _, [] => ([], [])

/-- The ticket slots. -/
def loadTickets (c : BitVec 12) : List Ticket → List (List Byte) → List Ticket
  | [], es => es.map (fun e => { tser := BitVec.ofNat 32 (numAt e 0 4), colour := c, frame := BitVec.ofNat 12 (numAt e 4 2), covered := [],
                                 sy := BitVec.ofNat 2 (numAt e 6 1), epoch := numAt e 7 1 = 1 })
  | t :: rest, e :: es =>
    { t with tser := BitVec.ofNat 32 (numAt e 0 4), frame := BitVec.ofNat 12 (numAt e 4 2), sy := BitVec.ofNat 2 (numAt e 6 1),
             epoch := numAt e 7 1 = 1 } :: loadTickets c rest es
  | _ :: _, [] => []

/-! ## Blocks of a logical tile (R266, Table 11.8) -/

/-- Local registers of a logical tile from block `b`. -/
def loadLregs (t : Tile) (b : Nat) (bs : List Byte) : Tile :=
  let r (i n : Nat) : W512 := BitVec.ofNat 512 (numAt bs (256 * i + 64 * n) 64)
  { t with bank0 := { t.bank0 with slots := t.bank0.slots.map (fun x =>
      if x.1 / 8 = b then
        let i := x.1 % 8
        (x.1, { x.2 with l0 := r i 0, l1 := r i 1, l2 := r i 2, l3 := r i 3 })
      else x) } }

/-- Bytes of a table that are not zero, from a place on. -/
def bytesFrom (lo : Nat) (bs : List Byte) (m : NMap Byte) : NMap Byte :=
  (bs.zipIdx).foldl (fun m b => if b.1 = 0 then mapDel m (lo + b.2) else mapPut m (lo + b.2) b.1) m

/-- Elements of an accumulator bank from its block. -/
def loadAcc (a : Acc) (bs : List Byte) : Acc :=
  { a with elems := ((pieces 4 4097 bs).zipIdx).foldl (fun m x =>
      let v := BitVec.ofNat 32 (leNat x.1)
      if v = 0 then m else mapPut m x.2 v) [] }

/-- A pair in four bytes, the last of which is 1. -/
def pairAt (bs : List Byte) (off : Nat) : Option (BitVec 12 × BitVec 12) :=
  if numAt bs (off + 3) 1 = 1 then some (BitVec.ofNat 12 (numAt bs off 3 / 4096), BitVec.ofNat 12 (numAt bs off 3)) else none

/-- MODE, STEPS and owner of an accumulator bank. -/
def loadAccHead (a : Acc) (bs : List Byte) : Acc :=
  { a with isInt := numAt bs 0 1 = 1, qint := numAt bs 1 1 = 1, steps := BitVec.ofNat 32 (numAt bs 4 4), owner := pairAt bs 8,
           qowner := pairAt bs 12 }

/-- A header latch from its bytes, with its stake and its port. -/
def loadLatch (bs : List Byte) : BitVec 16 × Nat × Latch :=
  (BitVec.ofNat 16 (numAt bs 68 2), numAt bs 70 1,
    { hdr := BitVec.ofNat 512 (numAt bs 0 64), count := numAt bs 64 4, pair := pairAt bs 72, sent := numAt bs 76 1 = 1 })

/-- A queued matrix command from its bytes: its second operand and its headers are those recorded, when it is the same command. -/
def loadMat (old : Option MatCmd) (bs : List Byte) : MatCmd :=
  let tag := numAt bs 16 6
  let x : MatCmd := match old with
    | some m => m
    | none => { word := 0, lstake := 0, colour := 0, frame := 0, wave := 0, opa := 0, opb := 0, fa := 0, fb := 0, ha := none, hb := none,
                fpctl := 0, colkey := 0, started := false, bytes := [], out := [], performed := false }
  { x with
    word := BitVec.ofNat 128 (numAt bs 0 16), colour := BitVec.ofNat 12 (tag / 2 ^ 36), frame := BitVec.ofNat 12 (tag / 2 ^ 24),
    wave := BitVec.ofNat 24 tag, lstake := BitVec.ofNat 16 (numAt bs 22 2), fa := BitVec.ofNat 3 (numAt bs 24 1),
    fb := BitVec.ofNat 3 (numAt bs 24 1 / 8), fpctl := BitVec.ofNat 64 (numAt bs 26 8), colkey := BitVec.ofNat 64 (numAt bs 34 8),
    opa := (x.opa &&& ~~~(BitVec.ofNat 512 (2 ^ 176 - 1))) ||| BitVec.ofNat 512 (numAt bs 42 22) }

/-- The miscellany: full/empty bits, the heads of the accumulator banks, the matrix queue, KGATE counts and header latches; latches for
which its area is too short stay as recorded. -/
def loadMisc (t : Tile) (bs : List Byte) : Tile :=
  let head (a : Acc) (n : Nat) : Acc := loadAccHead a ((bs.drop (0x400 + 16 * n)).take 16)
  let mats := ((pieces 64 33 ((bs.drop 0x800).take 0x800)).filter (fun e => numAt e 0 16 != 0)).zipIdx.map (fun e => loadMat t.cmds[e.2]? e.1)
  let lats := ((pieces 80 400 (bs.drop 0x1200)).filter (fun e => numAt e 71 1 == 1)).map loadLatch
  let port (l : BitVec 16) (p : Nat) (x : Port) : Port :=
    let here := (lats.filter (fun y => y.1 == l && y.2.1 == p)).map (·.2.2)
    { x with latches := if lats.length = 352 then here ++ x.latches.drop here.length else here }
  { t with
    full := (List.range 8192).filter (fun n => (bs.getD (n / 8) 0).getLsbD (n % 8))
    m0 := head t.m0 0
    m1 := head t.m1 1
    m2 := head t.m2 2
    m3 := head t.m3 3
    cmds := mats
    bank0 := { t.bank0 with slots := t.bank0.slots.map (fun x => (x.1, { x.2 with
      kn := numAt bs (0x1000 + 2 * x.1) 2, pa := port x.2.lstake 0 x.2.pa, pb := port x.2.lstake 1 x.2.pb,
      pc := port x.2.lstake 2 x.2.pc })) } }

/-- The token of an image; what travels beside it comes from the recorded token where the image is that token's. -/
def imageToken (old : List Token) (bs : List Byte) : Token :=
  let same (t : Token) : Bool := (tokenImage t 0).take 75 == bs.take 75
  match old.find? same with
  | some t => t
  | none => spillToken bs 0

/-- The valid records of token blocks, with their arrival order. -/
def imagesOf (bs : List Byte) : List (List Byte × Nat) :=
  ((pieces 80 (bs.length / 80 + 1) bs).filter (fun e => numAt e 75 1 == 1)).map (fun e => (e, numAt e 76 4))

/-- The tokens of one port as the operand-buffer banks hold them: each keeps the channel recorded in its place. -/
def loadPort (st : StakeSt) (p : Nat) (toks : List Token) : StakeSt :=
  let old := (st.port p).buf
  let item (x : Token × Nat) : PItem := match old[x.2]? with
    | some i => { i with tok := x.1, misfit := isMisfit st x.1 }
    | none => { key := replayKey x.1.colour st.lstake x.1.port, tok := x.1, misfit := isMisfit st x.1 }
  st.setPort p { st.port p with buf := toks.zipIdx.map item }

/-- The operand buffers of a logical tile from its sixteen banks. -/
def loadBuffers (t : Tile) (bs : List Byte) : Tile :=
  let old := bufferTokens (mapVals t.bank0.slots)
  let toks := (imagesOf bs).map (fun e => imageToken old e.1)
  let at_ (st : StakeSt) (p : Nat) : List Token := toks.filter (fun x => x.lstake == st.lstake && x.port.toNat == p)
  { t with bank0 := { t.bank0 with slots := t.bank0.slots.map (fun x =>
      (x.1, [0, 1, 2, 3].foldl (fun st p => loadPort st p (at_ x.2 p)) x.2)) } }

/-- A token takes its row again: it completes its operand set, or waits in a row (R74); one that waited for a flip waits again. -/
def takeRow (t : Tile) (tok : Token) (key : Option ChanKey) : Tile :=
  let slot := tok.lstake.toNat % 128
  let wait : Tile := { t with early := t.early ++ [{ key := key.getD (replayKey tok.colour tok.lstake tok.port), tok := tok, misfit := false }] }
  match mapGet? t.bank0.slots slot, key with
  | some st, none =>
    if !st.isMatch then wait
    else match completes t st tok with
      | some (o, ps) => { t with
          rows := ps.foldl List.erase t.rows
          bank0 := { t.bank0 with slots := mapPut t.bank0.slots slot { st with ready := st.ready ++ [o] } } }
      | none => { t with rows := t.rows ++ [tok] }
  | _, _ => wait

/-- Put a number with what it orders into a rising list. -/
def orderIns {α : Type} (x : α × Nat) : List (α × Nat) → List (α × Nat)
  | [] => [x]
  | y :: ys => if x.2 < y.2 then x :: y :: ys else y :: orderIns x ys

/-- The matching-store rows of a logical tile from its sixteen blocks: the tokens take their rows again in arrival order. -/
def loadRows (t : Tile) (bs : List Byte) : Tile :=
  let old := rowOrder (mapVals t.bank0.slots) t.rows t.early
  let n := old.length - t.early.length
  let empty : Tile := { t with
    rows := [], early := []
    bank0 := { t.bank0 with slots := t.bank0.slots.map (fun x => (x.1, { x.2 with ready := [] })) } }
  ((imagesOf bs).foldl (fun l x => orderIns x l) []).foldl (fun u x =>
    takeRow u (imageToken old x.1) (if x.2 < n then none else (t.early[x.2 - n]?).map (·.key))) empty

/-- The places of a tile slot that are read in one piece: local registers, operand buffers, rows, scratch, accumulators and the
miscellany, as runs of blocks. -/
def tileRuns : List (Nat × Nat) :=
  (List.range 16).map (fun b => (b, 1)) ++ [(16, 16), (32, 16)] ++ (rangeFrom 48 133).map (fun b => (b, 1))

/-- A logical tile with the blocks from `b` on read back. -/
def loadBlock (t : Tile) (b : Nat) (bs : List Byte) : Tile :=
  if b < 16 then loadLregs t b bs
  else if b < 32 then loadBuffers t bs
  else if b < 48 then loadRows t bs
  else if b < 176 then { t with scratch := bytesFrom (4096 * (b - 48)) bs t.scratch }
  else match b with
    | 176 => { t with m0 := loadAcc t.m0 bs }
    | 177 => { t with m1 := loadAcc t.m1 bs }
    | 178 => { t with m2 := loadAcc t.m2 bs }
    | 179 => { t with m3 := loadAcc t.m3 bs }
    | _ => loadMisc t bs

/-! ## The whole context (R267) -/

/-- How reading a context back ends: the commit, what it holds, and the records of held requests of which nothing else is known. -/
inductive LoadRes where
  | ok (m : Commit) (sv : Saved) (more : List Record) (s : State)
  /-- There is no commit, or its weave is not registered. -/
  | none (s : State)
  | fault (cause reason : BitVec 8) (va : Nat) (s : State)
  | wait (s : State)

/-- Read the current copies of one logical tile's blocks. -/
def loadTile (a : CtxAt) (m : Commit) (lt : Nat) : List (Nat × Nat) → State → Tile → DevRes × Tile
  | [], s, t => (.ok [] s, t)
  | (b, n) :: rest, s, t =>
    let place (b : Nat) : Nat × Nat := (slotOff lt (if m.bit lt b then 1 else 0) + (blockPlace b).1, (blockPlace b).2)
    match ctxParts s a ((rangeFrom b n).map place) with
    | .ok bss s1 => loadTile a m lt rest s1 (loadBlock t b bss.flatten)
    | .fault c r va s1 => (.fault c r va s1, t)
    | .wait s1 => (.wait s1, t)

/-- Read the current copies of every logical tile. -/
def loadTiles (a : CtxAt) (m : Commit) : NMap Tile → State → DevRes × NMap Tile
  | [], s => (.ok [] s, [])
  | (lt, t) :: rest, s =>
    match loadTile a m lt tileRuns s t with
    | (.ok _ s1, t1) => match loadTiles a m rest s1 with
      | (r, ts) => (r, (lt, t1) :: ts)
    | (r, _) => (r, [])

/-- The recorded state of a weave of which only a context's bytes are known, as when a VF has been migrated to this device (R292). -/
def blankSaved (s : State) (v : Nat) (w : Weave) (entry : Option Nat) (colidx : Nat) : Saved :=
  let slots (lt : Nat) : NMap StakeSt :=
    (w.ofTile lt).foldl (fun m r => mapPut m (r.lstake.toNat % 128) (r.fresh w.lregs)) []
  { vf := v, entry := entry, colidx := colidx, col := newColour v (s.vf v).part.toNat w 0 0,
    tiles := (List.range w.nlt).map (fun lt => (lt, { Tile.reset with bank0 := { colour := some 0, ltile := lt, slots := slots lt } })),
    reqs := [], net := [], tickets := [], outs := [], why := .save 0, sid := s.nextSave }

/-- What was recorded beside a context: by the serial number that it holds, when the VF and the weave agree. -/
def recorded (s : State) (v n : Nat) (m : Commit) : Option Saved :=
  match mapGet? s.saved (n - 1) with
  | some sv => if n ≠ 0 && sv.vf == v && sv.col.weave.toNat == m.weave && sv.col.nlt == m.nlt then some sv else none
  | none => none

/-- The offsets and lengths of the areas of a frame slot, by its engine head: the frame table, chain values, copy commands, held requests
and ticket slots (R265). -/
def slotAreas (fs : Nat) (head : List Byte) : List (Nat × Nat) :=
  let nf := min 4096 (numAt head 0 4)
  let nc := ((List.range 16).map (fun (q : Nat) => numAt head (4 + q) 1)).sum
  [(fs, 32 * nf), (fs + 0x20000, 16 * nf), (fs + 0x30000, 64 * min 1024 nc), (fs + 0x40000, 256 * min 32768 (numAt head 20 4)),
   (fs + 0x840040, 16 * min 65536 (numAt head 24 4))]

/-- The entries of the spill ring between its head and its tail; of those not recorded only the place is known. -/
def loadSpilled (k : Colour) (head tail : Nat) : List SpillEnt :=
  (rangeFrom head (min (tail - head) k.spillSize)).map (fun n => match k.spilled.find? (fun e => e.seq == n) with
    | some e => e
    | none => { seq := n, va := k.spillBase + 128 * (n % k.spillSize), tile := 0, beyond := false, parityErr := false,
                key := replayKey 0 0 0 })

/-- The areas of a frame slot replace what was recorded. -/
def loadAreas (sv : Saved) (known : Bool) (m : Commit) (head ctl tms : List Byte) : List (List Byte) → Saved × List Record
  | [frames, chains, cmds, held, tickets] =>
    let counts := (List.range 16).map (fun (q : Nat) => numAt head (4 + q) 1)
    let k := loadRegs sv.col m.round ctl tms
    let rs := loadReqs sv.reqs (pieces 256 (held.length / 256 + 1) held)
    ({ sv with
        col := { k with
          frames := loadFrames k.frames frames chains
          copyq := loadQueues k.copyq ctl 0 counts (pieces 64 (cmds.length / 64 + 1) cmds)
          spillNext := numAt head 36 8
          spilled := if known then k.spilled else loadSpilled k (numAt head 28 8) (numAt head 36 8) }
        reqs := rs.1
        tickets := loadTickets 0 sv.tickets (pieces 16 (tickets.length / 16 + 1) tickets) }, rs.2)
  | _ => (sv, [])

/-- Read a committed context of a VF back (R267). -/
def loadCtx (s : State) (a : CtxAt) (v : Nat) (entry : Option Nat) (colidx : Nat) : LoadRes :=
  match readCommit s a with
  | .fault c r va s1 => .fault c r va s1
  | .wait s1 => .wait s1
  | .ok none s1 => .none s1
  | .ok (some m) s1 => match weave? s1 v (BitVec.ofNat 32 m.weave) with
    | none => .none s1
    | some w =>
      let fs := fslotOff m.fslot
      match ctxParts s1 a [(fs + 0x840000, 64), (crOff m.cur + 0x100, 0x200), (crOff m.cur + 0x400, 0x400)] with
      | .fault c r va s2 => .fault c r va s2
      | .wait s2 => .wait s2
      | .ok [head, ctl, tms] s2 => match ctxParts s2 a (slotAreas fs head) with
        | .fault c r va s3 => .fault c r va s3
        | .wait s3 => .wait s3
        | .ok areas s3 =>
          let old := recorded s3 v (numAt head 56 8) m
          let x := loadAreas (old.getD (blankSaved s3 v w entry colidx)) old.isSome m head ctl tms areas
          match loadTiles a m x.1.tiles s3 with
          | (.ok _ s4, ts) => .ok m { x.1 with tiles := ts } x.2 (ctxDone s4 a)
          | (.fault c r va s4, _) => .fault c r va s4
          | (.wait s4, _) => .wait s4
      | .ok _ s2 => .none s2

end Sys2Proof.Machine
end

