-- ==== Sys2Proof/Machine/Restore.lean ====
section
/-! DEFINITION. Restoring a saved colour (R83, R139, R176, R187, R265, R268, R269, R276, R511 to R513). -/

namespace Sys2Proof.Machine

/-! ## Rebasing (R268) -/

/-- A channel key under another colour. -/
def ChanKey.recolour (k : ChanKey) (c : BitVec 12) : ChanKey := { k with colour := c }

/-- An entry of a port under another colour. -/
def PItem.recolour (i : PItem) (c : BitVec 12) : PItem := { i with key := i.key.recolour c, tok := i.tok.recolour c }

/-- A pair under another colour. -/
def repair (c : BitVec 12) (p : Option (BitVec 12 × BitVec 12)) : Option (BitVec 12 × BitVec 12) := p.map (fun x => (c, x.2))

/-- A port under another colour. -/
def Port.recolour (p : Port) (c : BitVec 12) : Port :=
  { buf := p.buf.map (fun i => i.recolour c), latches := p.latches.map (fun l => { l with pair := repair c l.pair }) }

/-- An operand set under another colour. -/
def OpSet.recolour (o : OpSet) (c : BitVec 12) : OpSet :=
  let go (t : Option Token) : Option Token := t.map (fun t => t.recolour c)
  { ta := go o.ta, tb := go o.tb, tc := go o.tc, tt := go o.tt }

/-- An emission under another colour. -/
def Emission.recolour (e : Emission) (c : BitVec 12) : Emission := { e with tok := e.tok.recolour c }

/-- A stake under another colour. -/
def StakeSt.recolour (st : StakeSt) (c : BitVec 12) : StakeSt :=
  { st with
    pa := st.pa.recolour c
    pb := st.pb.recolour c
    pc := st.pc.recolour c
    pt := st.pt.recolour c
    ready := st.ready.map (fun o => o.recolour c)
    out := st.out.map (fun e => e.recolour c) }

/-- An accumulator bank under another colour. -/
def Acc.recolour (a : Acc) (c : BitVec 12) : Acc := { a with owner := repair c a.owner, qowner := repair c a.qowner }

/-- A matrix command under another colour. -/
def MatCmd.recolour (m : MatCmd) (c : BitVec 12) : MatCmd := { m with colour := c, out := m.out.map (fun e => e.recolour c) }

/-- A channel under another colour. -/
def Chan.recolour (x : Chan) (c : BitVec 12) : Chan :=
  { x with
    key := x.key.recolour c
    items := x.items.map (fun i => match i with
      | .tok t => .tok (t.recolour c)
      | .beyond q => .beyond q) }

/-- A replay record under another colour, with a fresh CHK where it holds a token (R268). -/
def Record.recolour (r : Record) (c : BitVec 12) : Record :=
  let old := crc16 r.opa r.fmt r.colour r.frame r.wave
  let new := crc16 r.opa r.fmt c r.frame r.wave
  { r with colour := c, chk := if r.rkind ≠ 0 then r.chk else if r.chk = old then new else new ^^^ 1 }

/-- A request, as a replay record keeps it, under a colour and with its numbers shifted. -/
def Request.renumber (r : Request) (n : Nat) (c : BitVec 12) : Request := { r with colour := c, order := r.order + n, acc := r.acc + n }

/-- A frame under another colour, with its home at the cluster that holds the anchor of its home logical tile (R268); the numbers of its
requests are shifted. -/
def Frame.rehome (x : Frame) (c : BitVec 12) (m : NMap Nat) (n : Nat) : Frame :=
  { x with
    home := cluOfTile (mapGet m x.homeLt 0)
    recs := x.recs.map (fun r => { r.recolour c with rid := r.rid.map (· + n), was := r.was.map (fun q => q.renumber n c) }) }

/-! ## What lies in memory under the old colour (R268) -/

/-- How an access of a restore to the VF's memory ends. -/
inductive MemRes (α : Type) where
  | ok (a : α) (s : State)
  | fault (cause reason : BitVec 8) (va : Nat) (s : State)
  | wait (s : State)

/-- The bytes of a spill-queue entry with its token under another colour. -/
def respill (bs : List Byte) (t : Token) : List Byte := (spillBytes t 0 0).take 75 ++ bs.drop 75

/-- The spill-queue entries of a colour take its new number, each with a fresh CHK; one of which only the place was known takes its channel
from its token. Entries that requests hold have no token (log entry 91). -/
def respillAll (c : BitVec 12) (vf : Nat) (m : NMap Nat) (reqs : List Nat) : List SpillEnt → State → MemRes (List SpillEnt)
  | [], s => .ok [] s
  | e :: rest, s =>
    let place (k : ChanKey) : SpillEnt := { e with key := k, tile := mapGet m (k.ldst.toNat / 128) 0 }
    let next (e1 : SpillEnt) (s : State) : MemRes (List SpillEnt) := match respillAll c vf m reqs rest s with
      | .ok es s1 => .ok (e1 :: es) s1
      | r => r
    if reqs.contains e.seq then next (place (e.key.recolour c)) s
    else match devRead s vf e.va 128 true with
      | .fault a b va s1 => .fault a b va s1
      | .wait s1 => .wait s1
      | .ok bs s1 =>
        let t := (spillToken bs 0).recolour c
        match devWrite s1 vf e.va (respill bs t) true with
        | .fault a b va s2 => .fault a b va s2
        | .wait s2 => .wait s2
        | .ok _ s2 => next (place (if e.key.lsrc = 0xFFFF then replayKey c t.lstake t.port else e.key.recolour c)) s2

/-- The bytes of a replay slot under another colour: its header, and its records. -/
def reslot (c : BitVec 12) (bs : List Byte) : List Byte :=
  let head := bs.take 256
  let tag := numAt head 8 6 % 2 ^ 36 + c.toNat * 2 ^ 36
  let one (b : List Byte) : List Byte :=
    let r := (Record.ofBytes b).recolour c
    b.take 208 ++ natBytes 6 (r.colour ++ r.frame ++ r.wave : BitVec 48).toNat ++ (b.drop 214).take 6 ++ natBytes 2 r.chk.toNat ++ b.drop 222
  head.take 8 ++ natBytes 6 tag ++ head.drop 14 ++ ((pieces 256 2049 (bs.drop 256)).map one).flatten

/-- The replay slots of the stopped frames of a colour take its new number. -/
def reslotAll (c : BitVec 12) (k : Colour) : List Nat → State → MemRes Unit
  | [], s => .ok () s
  | n :: rest, s => match devRead s k.vf (slotVa k n) 256 true with
    | .fault a b va s1 => .fault a b va s1
    | .wait s1 => .wait s1
    | .ok head s1 => match devRead s1 k.vf (slotVa k n) (256 + 256 * min 2047 (numAt head 4 2)) true with
      | .fault a b va s2 => .fault a b va s2
      | .wait s2 => .wait s2
      | .ok bs s2 => match devWrite s2 k.vf (slotVa k n) (reslot c bs) true with
        | .fault a b va s3 => .fault a b va s3
        | .wait s3 => .wait s3
        | .ok _ s3 => reslotAll c k rest s3

/-- The replay slots that hold the records of a colour's frames. -/
def writtenSlots (k : Colour) : List Nat :=
  (mapVals k.frames).filterMap (fun x => match x.phase with
    | .raised | .stopped | .restarting | .resuming => x.slot
    | _ => none)

/-! ## Translations (R155) -/

/-- Granules translated afresh for an engine or a buffer of a cluster; one whose walk faults keeps what it had (log entry 109). None where a
walk waits. -/
def rewalkAll (k : Colour) (c : Nat) : List PageRef → State → Option (List PageRef × State)
  | [], s => some ([], s)
  | p :: rest, s =>
    let next (p1 : PageRef) (s : State) : Option (List PageRef × State) := (rewalkAll k c rest s).map (fun x => (p1 :: x.1, x.2))
    match engXlat s k c p.va p.need with
    | .wait _ => none
    | .ok pa pte s1 => next { p with res := .ok pa pte } s1
    | .bad a b s1 => next (match p.res with
        | .ok _ _ => p
        | _ => { p with res := .bad a b }) s1

/-- The granules of a copy command, with the translations that it had. -/
def CopyCmd.granules (c : CopyCmd) : List PageRef :=
  let ref (need : Need) (g : Nat) : PageRef := match c.pages.find? (fun p => p.va == g && p.need == need) with
    | some p => p
    | none => { va := g, need := need, res := .todo }
  (Machine.granules c.src c.len).map (ref .load) ++ (Machine.granules c.dst c.len).map (ref .store)

/-- The entries of a copy queue with their translations taken afresh. -/
def rewalkItems (k : Colour) (c : Nat) : List QItem → State → Option (List QItem × State)
  | [], s => some ([], s)
  | .fence i :: rest, s => (rewalkItems k c rest s).map (fun x => (.fence i :: x.1, x.2))
  | .cmd d :: rest, s => match rewalkAll k c d.granules s with
    | none => none
    | some (ps, s1) => (rewalkItems k c rest s1).map (fun x => (.cmd { d with pages := ps } :: x.1, x.2))

/-- The copy queues of a colour with their translations taken afresh. -/
def rewalkQueues (k : Colour) (c : Nat) : NMap CopyQ → State → Option (NMap CopyQ × State)
  | [], s => some ([], s)
  | (n, q) :: rest, s => match rewalkItems k c q.items s with
    | none => none
    | some (is, s1) => (rewalkQueues k c rest s1).map (fun x => ((n, { q with items := is }) :: x.1, x.2))

/-! ## Placing the colour (R268) -/

/-- The colour record of a restored instance. -/
def restoreCol (s : State) (k : Colour) (c : BitVec 12) (part : Nat) (lead : BitVec 12) (ctx : Option Nat) (m : NMap Nat) : Colour :=
  { k with
    part := part
    lead := lead
    ctx := ctx
    wdFrom := s.clk
    frames := k.frames.map (fun f => (f.1, f.2.rehome c m s.nextReq))
    spillFault := k.spillFault.map (fun i => i.recolour c)
    out := k.out.map (fun e => (e.1, e.2.map (fun x => x.recolour c)))
    ovf := k.ovf.map (fun x => (x.1.recolour c, x.2)) }

/-- The stakes, the rows and what waits for a flip return to the bank that holds the colour on a tile. -/
def restoreBank (c : BitVec 12) (sm : NMap SmapEnt) (sv x : Tile) : Tile :=
  let put (m : NMap StakeSt) : NMap StakeSt := sv.bank0.slots.foldl (fun m st =>
    match mapGet? sm st.2.lstake.toNat with
    | some e => mapPut m e.pslot (st.2.recolour c)
    | none => m) m
  let y := x.updBank c (fun b => { b with slots := put b.slots })
  { y with rows := y.rows ++ sv.rows.map (fun r => r.recolour c), early := y.early ++ sv.early.map (fun i => i.recolour c) }

/-- The scratch, the accumulators and the matrix commands of a saved logical tile, every dirty bit clear (R267, R511). -/
def restoreContents (c : BitVec 12) (sv x : Tile) : Tile :=
  { x with
    scratch := sv.scratch
    full := sv.full
    bad := sv.bad
    m0 := sv.m0.recolour c
    m1 := sv.m1.recolour c
    m2 := sv.m2.recolour c
    m3 := sv.m3.recolour c
    cmds := x.cmds ++ sv.cmds.map (fun n => n.recolour c)
    dirty := [] }

/-- A saved logical tile returns to its tile; while another weave still runs there its contents wait for the flip (R86). -/
def restoreTile (s : State) (c : BitVec 12) (k : Colour) (lt : Nat) (sv : Tile) : State :=
  match mapGet? k.anchors lt, mapGet? k.arriving lt with
  | some x, _ => s.updTile x (fun t => restoreContents c sv (restoreBank c k.smap sv t))
  | none, some (x, y) => (s.updTile x (restoreBank c k.smap sv)).updCol c.toNat (fun k => { k with
      arriving := mapPut k.arriving lt (x, restoreContents c sv y) })
  | none, none => s

/-- A request of a restored colour: its home is its frame's, and one not issued translates afresh; where its buffer is full one that has
not issued waits on its request channel (R14; log entry 109). None where a walk waits. -/
def restoreReq (s : State) (k : Colour) (c : BitVec 12) (id : Nat) (r : Request) : Option State :=
  let home := match mapGet? k.frames r.frame.toNat with
    | some x => x.home
    | none => r.home
  let tile := match mapGet? k.smap r.lstake.toNat with
    | some e => e.ptile
    | none => r.ptile
  let q := { r with colour := c, home := home, ptile := tile, out := r.out.map (fun e => e.recolour c) }
  let put (s : State) (q : Request) : State := { s with reqs := mapPut s.reqs id q }
  let full := q.phase == .held && !q.again && decide (512 ≤ bufferUse s home)
  if q.ctl || q.supply then some (put s q)
  else if q.phase = .issued then (rewalkAll k home q.pages s).map (fun x => put x.2 { q with pages := x.1 })
  else some (put s (prepReq s k tile (if full then { q with phase := .chan } else q)))

/-- The requests of a restored colour in order. -/
def restoreReqs (c : BitVec 12) (k : Colour) (n : Nat) : NMap Request → State → Option State
  | [], s => some s
  | r :: rest, s => (restoreReq s k c (r.1 + n) (r.2.renumber n c)).bind (restoreReqs c k n rest)

/-- Requests of which only the held record is known are held anew (log entry 9). -/
def restoreHeld (s : State) (c : BitVec 12) (k : Colour) (r : Record) : State :=
  match mapGet? k.frames r.frame.toNat with
  | some x => holdReq s s.nextReq (requestOf s k c x r)
  | none => s

/-- A ticket returns to the home of its frame with its TSER (R187). -/
def restoreTicket (s : State) (k : Colour) (c : BitVec 12) (n : Nat) (t : Ticket) : State :=
  match mapGet? k.frames t.frame.toNat with
  | some x => s.updClu x.home (fun y => { y with tickets := y.tickets ++ [{ t with colour := c, covered := t.covered.map (· + n) }] })
  | none => s

/-! ## Reissues (R83, R176) -/

/-- Remove a store entry of a tag. -/
def dropStore (s : State) (tag : Nat) : State :=
  { s with host := { s.host with store := s.host.store.filter (fun e => e.tag != tag) } }

/-- A recorded message as a restored colour awaits it: the number of its request is shifted. -/
def Outbound.restored (o : Outbound) (c : BitVec 12) (n : Nat) : Outbound :=
  { o with
    colour := c, recorded := false, late := none, epoch := none
    who := match o.who with
      | .req id off => .req (id + n) off
      | .copy _ q num w l => .copy c q num w l
      | w => w }

/-- A peer receives a request again under its tag; a write is counted again, once ACKOUT has room for it (R175, R176). -/
def reissuePeer (s : State) (o : Outbound) : State :=
  let c := o.colour.toNat
  if o.kind.writes && (!ackRoom s c || s.reis.any (fun x => x.colour == o.colour)) then { s with reis := s.reis ++ [o] }
  else
    let x := if o.kind.writes then ackUp s c else (s, none)
    let o2 := { o with epoch := x.2, reis := true }
    wickSend { x.1 with wick := { x.1.wick with out := x.1.wick.out.filter (fun y => y.tag != o.tag) ++ [o2] } } (portFor o.addr) (wmsgOf o2)

/-- Reissue one recorded message: a host write counts as performed at once, an AtomicOp returns the stored result or waits for its
completion, and a peer receives the request again. -/
def reissue (s : State) (c : BitVec 12) (o : Outbound) : State :=
  if isHost o.addr then
    match s.host.store.find? (fun e => e.tag == o.tag) with
    | none => s
    | some e =>
      if !e.atomic then answerOut (dropStore s o.tag) c o 0 none
      else match e.result, e.fault with
        | some v, _ => answerOut (dropStore s o.tag) c o v none
        | none, some f => answerOut (dropStore s o.tag) c o 0 (some f)
        | none, none =>
          let s1 := dropStore s o.tag
          { s1 with host := { s1.host with out := s1.host.out.map (fun x => if x.tag = o.tag && x.recorded then o else x) } }
  else reissuePeer s o

/-- ACKOUT of a colour has room again: its oldest reissue that waits for it is sent. -/
def reissueMore (s : State) (c : BitVec 12) : State :=
  match takeFirst (fun (o : Outbound) => o.colour == c) s.reis with
  | some (o, rest) => if ackRoom s c.toNat then
      let s1 := reissuePeer { s with reis := rest.filter (fun x => x.colour != c) } o
      { s1 with reis := s1.reis ++ rest.filter (fun x => x.colour == c) }
    else s
  | none => s

/-! ## The whole restore -/

/-- Why a restore does not happen. -/
inductive RestoreRes where
  | done (s : State)
  /-- RESUMEFIT: the partition cannot take the colour (R268). -/
  | noFit
  | fault (cause reason : BitVec 8) (va : Nat) (s : State)
  | wait (s : State)

/-- The lead of a restored colour: at the same distance in its tag block, when that colour leads there; otherwise itself. -/
def newLead (s : State) (sv : Saved) (oldBase : Nat) (c : BitVec 12) (p : Part) : BitVec 12 :=
  let l := BitVec.ofNat 12 (p.tbase.toNat + (sv.col.lead.toNat - oldBase))
  match s.col? l.toNat with
  | some k => if k.vf = sv.vf && k.weave = sv.col.weave && k.lead = l then l else c
  | none => c

/-- Everything of a colour but its bytes in the context goes back under its new colour; numbers of requests are shifted past every number
in use. None where a walk waits. -/
def restoreRest (s : State) (sv : Saved) (more : List Record) (k : Colour) (c : BitVec 12) : Option State :=
  let n := s.nextReq
  let s1 : State := { s with net := s.net ++ sv.net.map (fun x => x.recolour c), nextReq := 2 * n }
  (restoreReqs c k n sv.reqs s1).map (fun s2 =>
    let s3 := sv.tickets.foldl (fun s t => restoreTicket s k c n t) s2
    let s4 := more.foldl (fun s r => restoreHeld s c k r) s3
    sv.outs.foldl (fun s o => reissue s c (o.restored c n)) s4)

/-- Record a rebase window (R269): four at most, newest first. -/
def addWindow (s : State) (part old size : Nat) : State :=
  let p := s.part part
  if old = p.tbase.toNat then s
  else s.updPart part (fun p => { p with windows := ({ old := old, size := size, new := p.tbase.toNat } :: p.windows).take 4 })

/-- The size of the tag block from which a context was saved: that of the VF's partition. -/
def oldBlock (s : State) (sv : Saved) : Nat := (s.part sv.col.part).block

/-- The tiles for a restored weave: free ones, or those that a test accepts too, whose shadow banks it then takes (R259). -/
def restorePlace (s : State) (p : Part) (w : Weave) (shadow : Nat → Bool) : Option (NMap Nat) :=
  match placeTiles s p w with
  | some m => some m
  | none => placeAmong p w (freeTiles s p ++ (p.clusters.flatMap (fun c => rangeFrom (32 * c) 32)).filter (fun t =>
      !tileFree s t && shadow t))

/-- The weave is installed for a colour that the partition takes, and its saved state returns. -/
def placeSaved (s : State) (sv : Saved) (more : List Record) (k0 : Colour) (c : BitVec 12) (w : Weave) (m : NMap Nat) : Option State :=
  let s1 := installAt { s with cols := mapPut s.cols c.toNat k0 } c w m
  match s1.col? c.toNat with
  | none => none
  | some k1 =>
    let s2 := sv.tiles.foldl (fun s t => restoreTile s c k1 t.1 t.2) s1
    match rewalkQueues k1 (queueHome s2 c) k1.copyq s2 with
    | none => none
    | some (qs, s3) =>
      let s4 := s3.updCol c.toNat (fun x => { x with copyq := qs })
      match s4.col? c.toNat with
      | none => none
      | some k => restoreRest ((mapVals k.frames).foldl (fun s f => noteJobCol s k.vf (recJob f.task) c.toNat) s4) sv more k c

/-- Put the colour of a VF's context into a partition under a colour (R268, R269); `shadow` says which shadow banks it may take. -/
def restoreTo (s : State) (v : Nat) (a : CtxAt) (part : Nat) (c : BitVec 12) (ctx : Option Nat) (colidx : Nat) (shadow : Nat → Bool) :
    RestoreRes :=
  let p := s.part part
  if !p.en || !p.hasColour c.toNat || (s.col? c.toNat).isSome then .noFit
  else match loadCtx s a v ctx colidx with
    | .none _ => .noFit
    | .fault cause reason va s1 => .fault cause reason va s1
    | .wait s1 => .wait s1
    | .ok com sv more s1 => match weave? s1 v sv.col.weave with
      | none => .noFit
      | some w =>
        if w.nlt != com.nlt then .noFit
        else match restorePlace s1 p w shadow with
          | none => .noFit
          | some m =>
            let held := (mapVals sv.reqs).filterMap (·.ring)
            match respillAll c v m held sv.col.spilled s1 with
            | .fault x y va s2 => .fault x y va s2
            | .wait s2 => .wait s2
            | .ok spilled s2 => match reslotAll c sv.col (writtenSlots sv.col) s2 with
              | .fault x y va s3 => .fault x y va s3
              | .wait s3 => .wait s3
              | .ok _ s3 =>
                let k0 := { restoreCol s3 sv.col c part (newLead s3 sv com.oldBase c p) ctx m with spilled := spilled }
                match placeSaved s3 sv more k0 c w m with
                | none => .wait s3
                | some s4 => .done (addWindow { s4 with saved := mapUpd s4.saved sv.sid Saved.spent } part com.oldBase (oldBlock s sv))

/-- Restore the context of an entry of a VF's area into a partition, under its colour index there (R268). -/
def restoreArea (s : State) (v i part : Nat) (shadow : Nat → Bool) : RestoreRes :=
  let f := s.vf v
  let p := s.part part
  let idx := dirCol s f i
  if areaWaits s f then .wait s
  else if p.block ≤ idx then .noFit
  else restoreTo s v (.area (dirCtx s f i)) part (BitVec.ofNat 12 (p.tbase.toNat + idx)) (some i) idx shadow

/-- The recorded contexts of a VF that the device resumes on its own. -/
def autoSaved (s : State) (v : Nat) : List Saved :=
  (mapVals s.saved).filter (fun x => x.vf == v && match x.why with
    | .slice | .pause | .ckpt _ => true
    | _ => false)

/-- A CKPTALL in progress keeps the contexts of a partition saved (R304). -/
def ckptHolds (s : State) (part : Nat) : Bool :=
  match s.pf.ckpt with
  | some x => x.mask.getLsbD part
  | none => false

/-! ## Guest switches that a resume runs again (R276) -/

/-- A guest switch starts again from a phase, with the registers that the entry holds. -/
def againGsw (s : State) (v i : Nat) (p : GswPhase) : State :=
  let f := s.vf v
  let sv := BitVec.ofNat 64 (cohNat s (dirAt f i + 16) 8)
  let ld := BitVec.ofNat 64 (cohNat s (dirAt f i + 24) 8)
  s.updVf v (fun f => { f with gsw := p, gswAgain := true, gswCol := BitVec.ofNat 12 (dirCol s f i), gswSave := sv, gswLoad := ld })

/-- Clear GSW of an entry. -/
def clearGsw (s : State) (f : Vf) (i : Nat) : State := physWr s (dirAt f i + 3) [0]

/-- A guest switch that a pre-emption has interrupted is run again from its cut (GSW 1). -/
def rerunGsw (s : State) (v i : Nat) (c : BitVec 12) : State :=
  if dirGsw s (s.vf v) i = 1 then preempt (clearGsw (againGsw s v i .cut) (s.vf v) i) c .guest else s

/-- The entry of a VF's directory that notes a guest load to run again (GSW 2). -/
def loadEntry (s : State) (f : Vf) : Option Nat := (List.range (dirCount s f)).find? (fun i => dirGsw s f i == 2)

/-- A guest load that a pre-emption has interrupted is run again from its start (GSW 2); its note stays until its end. -/
def rerunLoad (s : State) (v : Nat) : State :=
  let f := s.vf v
  if f.gsw == .cut || f.gsw == .save || areaWaits s f then s
  else match loadEntry s f with
    | some i => if f.gsw == .load then s.updVf v (fun f => { f with gswAgain := true }) else againGsw s v i .load
    | none => s

/-- The guest load of a VF has ended: its note is cleared. -/
def endLoad (s : State) (v : Nat) (p : GswPhase) : State :=
  let s1 := match loadEntry s (s.vf v) with
    | some i => clearGsw s (s.vf v) i
    | none => s
  setGsw s1 v p

/-- Restore one context of a VF's area in the VF's own partition, and run an interrupted guest switch again. -/
def resumeOwn (s : State) (v i : Nat) (shadow : Nat → Bool) : RestoreRes :=
  let part := (s.vf v).part.toNat
  match restoreArea s v i part shadow with
  | .done s1 => .done (rerunLoad (rerunGsw s1 v i (BitVec.ofNat 12 ((s.part part).tbase.toNat + dirCol s (s.vf v) i))) v)
  | r => r

/-- No shadow bank of a running weave is taken. -/
def noShadow : Nat → Bool := fun _ => false

/-- Resume the contexts of a VF that the device has saved on its own, those that fit: not while the VF pauses or a CKPTALL holds them
(R292, R304). -/
def resumeOn (s : State) (v : Nat) (shadow : Nat → Bool) : State :=
  if (s.vf v).pause || ckptHolds s (s.vf v).part.toNat then s
  else (autoSaved s v).foldl (fun s x => match x.entry with
    | none => s
    | some i => match resumeOwn s v i shadow with
      | .done s1 => s1
      | .wait s1 => s1
      | _ => s) (rerunLoad s v)

/-- `resumeOn` into free tiles. -/
def resumeAuto (s : State) (v : Nat) : State := resumeOn s v noShadow

end Sys2Proof.Machine
end

