-- ==== Sys2Proof/Machine/Schedule.lean ====
section
/-! DEFINITION. The partition scheduler: time slices, commits of saves, CFGSWAP, guest switches and unbinding (R40, R232, R241,
R259, R267, R276, R373). -/

namespace Sys2Proof.Machine

/-! ## Who has work (R232) -/

/-- Some task queue of a colour index holds a record. -/
def hasQueued (s : State) (p : Part) (idx : Nat) : Bool := (List.range 8).any (fun (q : Nat) => (headRec s p idx q).isSome)

/-- A VF has queued or running work that may run. -/
def hasWork (s : State) (v : Nat) : Bool :=
  let f := s.vf v
  let p := s.part f.part.toNat
  f.runs && !f.pause &&
    (s.cols.any (fun k => k.2.vf == v && (!k.2.frames.isEmpty || k.2.join.isSome || hasQueued s p (p.idx k.2.lead.toNat))) ||
      (autoSaved s v).any (fun x => !x.col.frames.isEmpty || hasQueued s p x.colidx))

/-- The VFs of a partition that have work, rising. -/
def workers (s : State) (n : Nat) : List Nat :=
  (mapKeys (s.vfs.filter (fun f => f.2.en && f.2.part.toNat == n))).filter (hasWork s)

/-- The VF that holds a partition. -/
def holder (s : State) (n : Nat) : Option Nat := (s.vfs.find? (fun f => f.2.holds && f.2.part.toNat == n)).map Prod.fst

/-- The next VF with work in VF number order after `v`, other than `v`. -/
def nextWorker (s : State) (n v : Nat) : Option Nat :=
  let ws := (workers s n).filter (· != v)
  match ws.find? (fun w => decide (v < w)) with
  | some w => some w
  | none => ws.head?

/-! ## Slices (R232, R233) -/

/-- The slice of a partition has run its time. -/
def sliceOver (s : State) (n : Nat) : Bool :=
  let p := s.part n
  p.slice == 0 || decide (p.sliceStart + usClk p.slice.toNat ≤ s.clk)

/-- The holder's turn ends: its slice is over, or it has no runnable work. -/
def turnEnds (s : State) (n v : Nat) : Bool := ((s.part n).slice != 0 && sliceOver s n) || !hasWork s v

/-- A guest load that a pre-emption interrupts is noted in the directory (R276, GSW 2): it runs again when the VF is resumed. -/
def noteLoad (s : State) (v : Nat) : State :=
  let f := s.vf v
  if f.gsw ≠ .load || areaWaits s f then s
  else
    let stop (s : State) : State := s.updVf v (fun f => { f with gswAgain := false })
    let i := (List.range (dirCount s f)).find? (fun i => dirCol s f i == f.gswCol.toNat)
    match i with
    | some i => stop (setDirGsw s f i 2)
    | none =>
      if 127 ≤ dirCount s f then s
      else
        let i := dirCount s f
        stop (setDirGsw (physPut (physWr s (dirAt f i) (natBytes 2 f.gswCol.toNat ++ List.replicate 30 0)) f.ctxAddr 4 (i + 1)) f i 2)

/-- The guest loads of the VFs of a partition are noted. -/
def noteLoads (s : State) (n : Nat) : State :=
  (mapKeys (s.vfs.filter (fun f => f.2.part.toNat == n))).foldl noteLoad s

/-- A VF takes the partition: its slice begins and its contexts are resumed. -/
def grantPart (s : State) (v : Nat) : State := resumeAuto (takePartition s v) v

/-- A CFGSWAP request goes on at a slice boundary: it ends at once where its weave is gone or the context area is full (R373). -/
def startSwap (s : State) (c : BitVec 12) (k : Colour) (id : BitVec 32) : State :=
  if !canRaise s k.vf then s
  else if (swapWeave s k id).isNone then endSwap s c k 10 id
  else if (placeCtx s k).isNone then endSwap s c k 8 id
  else preemptFor s c (.swap id)

/-- A colour of a VF whose turn ends is pre-empted. -/
def endTurn (s : State) (c : BitVec 12) : State :=
  match s.col? c.toNat with
  | none => s
  | some k => if preempted k && preemptWhy k != some .guest then s
    else match k.swap with
      | some (id, _) => if preempted k then preemptFor s c .slice else startSwap s c k id
      | none => preemptFor s c .slice

/-- The stakes of a colour have all recorded their state for a save. -/
def recordedCut (k : Colour) : Bool :=
  match k.cut with
  | some x => x.whole && x.why != .round
  | none => false

/-- A tile whose shadow bank waits for the incoming weave: its active bank holds a colour of the outgoing VF that has recorded its state
(R259 step 3). -/
def shadowOf (s : State) (v t : Nat) : Bool :=
  (s.tile t).shadow.colour.isNone && match (s.tile t).active.colour with
    | some c => (s.col? c.toNat).any (fun k => k.vf == v && recordedCut k)
    | none => false

/-- Once every colour of the outgoing VF has recorded its state, the configuration of the incoming one loads into shadow banks; they flip
when the outgoing colours have been saved (R86, R259). -/
def preload (s : State) (v w : Nat) : State :=
  if (colsOf s v).all (fun c => (s.col? c.toNat).any recordedCut) then resumeOn s w (shadowOf s v) else s

/-- One step of the partition scheduler. -/
def sliceStep (s : State) (n : Nat) : State :=
  if !(s.part n).en || (s.part n).state == .accepted || ckptHolds s n then s
  else match holder s n with
    | none => match (workers s n).head? with
      | some v => grantPart s v
      | none => s
    | some v =>
      if !turnEnds s n v then resumeAuto s v
      else match nextWorker s n v with
        | none => resumeAuto (s.updPart n (fun p => { p with sliceStart := s.clk })) v
        | some w =>
          if (colsOf s v).isEmpty then grantPart ((noteLoad s v).updVf v (fun f => { f with holds := false })) w
          else preload ((colsOf s v).foldl endTurn s) v w

/-- SLICE_EXPIRY (R56, R232, R233, R259, R276): a turn that ends has its colours pre-empted; once they are saved the next VF with
work takes the partition and its contexts are resumed. -/
def execSliceExpiry (p : W64) (s : State) : Host.Outcome State Fault Refusal :=
  .next (if 64 ≤ p.toNat then s else sliceStep s p.toNat)

/-! ## CFGSWAP (R373) -/

/-- CFGSWAP_SWITCH (R259, R373): at a slice boundary; with SLICE = 0 at once. -/
def execCfgswapSwitch (colour : W64) (s : State) : Host.Outcome State Fault Refusal :=
  let c : BitVec 12 := colour.setWidth 12
  .next (match s.col? c.toNat with
    | some k => match k.swap with
      | some (id, _) => if sliceOver s k.part && !preempted k then startSwap s c k id else s
      | none => s
    | none => s)

/-! ## Commits and guest loads (R267, R276) -/

/-- Restore a guest's colour from GSWLOAD (R276); a load that a pre-emption has interrupted waits for the VF's resume. -/
def guestLoad (s : State) (v : Nat) (c : BitVec 12) : State :=
  let f := s.vf v
  let n := f.part.toNat
  let bad (s : State) : State := gswFail (endLoad s v .load) v 9
  if !holdsPart s v || !f.runs || f.pause || ckptHolds s n || (s.part n).state == .accepted ||
      ((loadEntry s f).isSome && !f.gswAgain) then s
  else match restoreTo s v (.guest v f.gswLoad.toNat) n c none f.gswCol.toNat noShadow with
    | .done s1 => endLoad s1 v .done
    | .noFit => bad s
    | .fault _ _ _ s1 => bad s1
    | .wait s1 => s1

/-- The VF whose guest switch loads a colour that is not bound. -/
def loadingVf (s : State) (c : BitVec 12) : Option Nat :=
  (s.vfs.find? (fun f => f.2.gsw == .load && (s.part f.2.part.toNat).tbase + f.2.gswCol == c)).map Prod.fst

/-- SAVE_COMMIT (R259, R261, R264 to R267, R276, R511): a colour whose cut is whole is written to its context and unbound; the
load of a guest switch follows its save. -/
def execSaveCommit (colour : W64) (s : State) : Host.Outcome State Fault Refusal :=
  let c : BitVec 12 := colour.setWidth 12
  .next (match s.col? c.toNat, loadingVf s c with
    | some k, _ => commitColour s c k
    | none, some v => guestLoad s v c
    | none, none => s)

/-- GSWCTL_GO (R276): ignored unless PHASE is IDLE, DONE or FAIL. -/
def execGswctlGo (vf v : W64) (s : State) : Host.Outcome State Fault Refusal :=
  let n := barNum vf
  let f := s.vf n
  let p := s.part f.part.toNat
  let idx : BitVec 12 := v.setWidth 12
  let c : BitVec 12 := p.tbase + idx
  .next (if 1024 ≤ n then s else barReq s n vf (fun s =>
  let s1 := s.updVf n (fun f => { f with gswCol := idx })
  let fail (s : State) : State := gswFail s n 11
  if !v.getLsbD 12 || f.gsw == .cut || f.gsw == .save || f.gsw == .load then s
    else if p.block ≤ idx.toNat then fail s1
    else match s.col? c.toNat with
      | some k => if k.vf = n then preemptFor (setGsw s1 n .cut) c .guest else fail s1
      | none => if f.gswSave ≠ 0 then fail s1 else setGsw s1 n (if f.gswLoad = 0 then .done else .load)))

/-! ## Unbinding (R40) -/

/-- An idle colour that nothing else is being done with. -/
def mayUnbind (s : State) (k : Colour) : Bool :=
  k.isIdle && k.join.isNone && !preempted k && k.cut.isNone && (k.swap.isNone || canRaise s k.vf)

/-- Unbind an idle colour: a CFGSWAP request that waits is dropped with status KILLED (R40, R373). -/
def unbindIdle (s : State) (c : BitVec 12) (k : Colour) : State :=
  unbindColour (forgetOut (dropSwap s c k (.save 0)) c) c

/-- SCHEDULER_UNBIND (R40). -/
def execSchedulerUnbind (colour : W64) (s : State) : Host.Outcome State Fault Refusal :=
  let c : BitVec 12 := colour.setWidth 12
  .next (match s.col? c.toNat with
    | some k => if mayUnbind s k then unbindIdle s c k else s
    | none => s)

end Sys2Proof.Machine
end

