-- ==== Sys2Proof/Machine/Quench.lean ====
section
/-! DEFINITION. Quench: the evaluation of a deadline, the courses and vacancy (R270 to R275). -/

namespace Sys2Proof.Machine

/-! ## What is evaluated (R271, R272) -/

/-- CKPT of a task record. -/
def recCkpt (r : W512) : Bool := r.getLsbD 180
/-- IDEMP. -/
def recIdemp (r : W512) : Bool := r.getLsbD 179
/-- PHINT. -/
def recPhint (r : W512) : Nat := fld r 192 32

/-- The record of the task that an instance runs. -/
def taskOf (k : Colour) : W512 :=
  match (mapVals k.frames).find? (·.root) with
  | some x => x.task
  | none => match k.frames.head? with
    | some x => x.2.task
    | none => 0

/-- The running instances of a partition that have not been vacated: those with frames. -/
def runningCols (s : State) (n : Nat) : List (BitVec 12 × Colour) :=
  (s.cols.filter (fun k => k.2.part == n && !k.2.frames.isEmpty)).map (fun k => (BitVec.ofNat 12 k.1, k.2))

/-- The queue of an instance: priority and colour index of its lead. -/
def queueOf (p : Part) (k : Colour) : Nat × Nat := (recPrio (taskOf k), p.idx k.lead.toNat)

/-- Put a queue into a list without repeats: the highest priority first, then the lowest colour index. -/
def queueIns (q : Nat × Nat) : List (Nat × Nat) → List (Nat × Nat)
  | [] => [q]
  | x :: xs =>
    if q = x then x :: xs
    else if x.1 < q.1 ∨ (q.1 = x.1 ∧ q.2 < x.2) then q :: x :: xs else x :: queueIns q xs

/-- The task queues of a partition: those that its scheduler area describes, and those with running instances (R272; log entry 76). -/
def queuesIn (s : State) (p : Part) (ks : List (BitVec 12 × Colour)) : List (Nat × Nat) :=
  let set := (List.range p.block).flatMap (fun i => ((List.range 8).filter (fun q => (readDesc s (taskDescAt p i q)).usable)).map (fun q => (q, i)))
  (ks.map (fun k => queueOf p k.2) ++ set).foldl (fun l q => queueIns q l) []

/-- The running instances of a queue. -/
def instancesOf (p : Part) (ks : List (BitVec 12 × Colour)) (q : Nat × Nat) : List (BitVec 12 × Colour) :=
  ks.filter (fun k => queueOf p k.2 == q)

/-- ALLOW of a priority: 0 RUN, 1 CKPT, 2 DISC (Table 11.9). -/
def allowed (p : Part) (prio course : Nat) : Bool := p.allow.getLsbD (3 * prio + course)

/-- Bytes that a save of a colour writes now: its dirty blocks and its frame part (R272). -/
def dirtyBytes (s : State) (c : BitVec 12) (k : Colour) : Nat :=
  let blocks := (mapVals k.anchors).map (fun t => ((dirtyBlocks (s.tile t).dirty).map (fun b => (blockPlace b).2)).sum)
  let held := (s.reqs.filter (fun r => r.2.colour == c)).length
  let tickets := ((s.clus.flatMap (fun x => x.2.tickets)).filter (fun t => t.colour == c)).length
  blocks.sum + framePartSize k held tickets

/-- Firings of a colour in the last 2^16 clk. -/
def recentFirings (s : State) (k : Colour) : Nat := (k.fireLog.filter (fun t => decide (s.clk < t + 65536))).length

/-! ## Times: in units of 1/(6000·SAVEBW) ns -/

/-- SAVEBW in bytes per ns (R272). -/
def saveBw (p : Part) : Nat := min (640 * p.clusters.length) 16000

/-- Units in a ns. -/
def perNs (p : Part) : Nat := 6000 * saveBw p

/-- Microseconds in units. -/
def usUnits (p : Part) (n : Nat) : Nat := n * 1000 * perNs p

/-- Cd: bytes of the partition's slice ways and L1Ds on a die (R272). -/
def cleanBytes (p : Part) (d : Nat) : Nat :=
  ((bitList 32 (mapGet p.ways d 0).toNat).length + (p.clusters.filter (fun c => dieOfClu c == d)).length) * 2 ^ 21

/-- tClean. -/
def tClean (p : Part) : Nat := (65536000 + ((List.range 4).map (cleanBytes p)).foldl max 0) * saveBw p

/-- tDisc. -/
def tDisc (p : Part) : Nat := max (usUnits p 42) (tClean p) + usUnits p 8

/-- What a CKPT fallback needs for `b` bytes. -/
def ckptTime (p : Part) (b : Nat) : Nat := usUnits p 52 + b * 6000 + tClean p + usUnits p 4

/-- fbFits of R272. -/
def fbFits (p : Part) (lead : Nat) (fb : Course) (b : Nat) : Bool :=
  match fb with
  | .ckpt => decide (ckptTime p b ≤ lead)
  | .disc => decide (tDisc p ≤ lead)
  | .run => false

/-- The remaining firings of an instance run out in time: maxRun + tClean + 4 ≤ lead, for one instance. -/
def runFits (s : State) (p : Part) (lead : Nat) (k : Colour) : Bool :=
  let hint := recPhint (taskOf k)
  let recent := recentFirings s k
  let rest := tClean p + usUnits p 4
  hint != 0 && recent != 0 && decide (rest ≤ lead) &&
    decide ((hint * 256 - k.fired) * 131072 * perNs p ≤ (lead - rest) * (3 * recent))

/-! ## The evaluation (R272, R275) -/

/-- The course and the fallback of one queue, with the save bytes reserved after it; none where none fits. Where DISC is allowed and a
CKPT does not fit, DISC is the fallback, as the bounds of R274 need (log entry 76). -/
def evalQueue (s : State) (p : Part) (lead b : Nat) (q : Nat × Nat) (ks : List (BitVec 12 × Colour)) : Option (Course × Course × Nat) :=
  let fbs : List (Course × Nat) :=
    (if allowed p q.1 1 && ks.all (fun k => recCkpt (taskOf k.2)) then [(.ckpt, (ks.map (fun k => dirtyBytes s k.1 k.2)).sum)] else []) ++
      (if allowed p q.1 2 then [(.disc, 0)] else [])
  match fbs.find? (fun x => fbFits p lead x.1 (b + x.2)) with
  | none => none
  | some (f, n) =>
    if allowed p q.1 0 && ks.all (fun k => runFits s p lead k.2 && !preempted k.2) then some (.run, f, b + n)
    else some (f, f, b + n)

/-- Every queue in order. -/
def evalQueues (s : State) (p : Part) (lead : Nat) (ks : List (BitVec 12 × Colour)) : List (Nat × Nat) → Nat → Option (List QCourse × Nat)
  | [], b => some ([], b)
  | q :: rest, b =>
    match evalQueue s p lead b q (instancesOf p ks q) with
    | none => none
    | some (c, f, b1) => match evalQueues s p lead ks rest b1 with
      | none => none
      | some (l, b2) =>
        some ((instancesOf p ks q).map (fun k => { colour := k.1, course := c, fallback := f, vacated := false }) ++ l, b2)

/-! ## DISC (R271) -/

/-- Push a record back to the head of its queue with its stamp; none where the queue is full or gone. -/
def pushBack (s : State) (k : Colour) (x : Frame) : Option State :=
  let p := s.part k.part
  let d := readDesc s (taskDescAt p (p.idx k.lead.toNat) (recPrio x.task))
  let h := d.head + 2 ^ 32 - 1
  if !d.usable || d.full then none
  else some (setHead (physPut (physWr s (d.slot h) (dataBytes x.task 64)) (d.stampAt h) 8 x.stamp) d h)

/-- Kill one frame of an instance that is discarded: a root frame's record goes back where it may, and its job fails with
QUENCHED otherwise (R271). -/
def discFrame (s : State) (c : BitVec 12) (k : Colour) (x : Frame) : State :=
  let back := if x.root && recIdemp x.task then pushBack s k x else none
  match back with
  | some s1 => killFrame (updFrame s1 c x.num (fun y => { y with root := false })) c x.num true 4
  | none => killFrame s c x.num true 4

/-- Two events more find room. -/
def twoRaise (s : State) (v : Nat) : Bool :=
  let f := s.vf v
  if f.pause then decide (f.held.length < 1023) else decide (f.q.evbuf.length < 63)

/-- The frames of a colour, root frames last. -/
def discOrder (k : Colour) : List Frame :=
  let fs := (mapVals k.frames).filter (fun f => f.phase != .purging)
  fs.filter (fun f => !f.root) ++ fs.filter (·.root)

/-- Kill the frames of a discarded instance while their events find room. -/
def discStep (s : State) (c : BitVec 12) : State :=
  match s.col? c.toNat with
  | none => s
  | some k => (discOrder k).foldl (fun s x => if twoRaise s k.vf then discFrame s c k x else s) s

/-- A DISC begins: a guest switch of the colour fails, and a save in progress never commits (R275, R276). -/
def discBegin (s : State) (c : BitVec 12) : State :=
  match s.col? c.toNat with
  | none => s
  | some k =>
    let s1 := if gswCutting (s.vf k.vf) s c then gswFail s k.vf 4 else s
    let s2 := match k.ctx with
      | some i => if preempted k then setDirState s1 (s1.vf k.vf) i 2 else s1
      | none => s1
    discStep s2 c

/-! ## Courses -/

/-- A colour enters its course. -/
def startCourse (s : State) (q : QCourse) : State :=
  if q.vacated then s
  else match q.course with
    | .run => s
    | .ckpt => match (s.col? q.colour.toNat).bind preemptWhy with
      | some .slice | some (.swap _) => setWhy s q.colour .quench
      | _ => preemptFor s q.colour .quench
    | .disc => discBegin s q.colour

/-- Counts of the instances by course. -/
def countCourse (l : List QCourse) (c : Course) : BitVec 16 := BitVec.ofNat 16 (l.filter (fun q => q.course == c)).length

/-- A posting is accepted (R272, R274). -/
def acceptPosting (s : State) (n : Nat) (d : W64) (new : List QCourse) (b : Nat) : State :=
  let kept := if (s.part n).state = .accepted then (s.part n).courses.filter (·.vacated) else []
  let all := kept ++ new
  new.foldl startCourse ((noteLoads s n).updPart n (fun p => { p with
    qndl := d, state := .accepted, reason := 0, merged := false, rej := false, courses := all, bytes := b,
    nrun := countCourse all .run, nckpt := countCourse all .ckpt, ndisc := countCourse all .disc }))

/-- A posting is rejected (R272, R275): a deadline in force stays so. -/
def rejectPosting (s : State) (n : Nat) (reason : BitVec 4) : State :=
  s.updPart n (fun p => if p.state = .accepted then { p with rej := true, merged := false, reason := reason }
    else { p with state := .infeasible, rej := false, merged := false, reason := reason })

/-- QNDL_WRITE (R270 to R275): a posting is evaluated. -/
def postDeadline (s : State) (n : Nat) (d : W64) : State :=
  let p := s.part n
  if p.state = .accepted && decide (p.qndl.toNat ≤ d.toNat) then s.updPart n (fun p => { p with merged := true, rej := false })
  else
    let now := s.time.toNat
    let ks := runningCols s n
    if d.toNat < now + 60000 then rejectPosting s n 1
    else match evalQueues s p ((d.toNat - now) * perNs p) ks (queuesIn s p ks) 0 with
      | none => rejectPosting s n 2
      | some (l, b) => acceptPosting s n d l b

/-- QNDL_WRITE (R259, R270 to R275). -/
def execQndlWrite (p v : W64) (s : State) : Host.Outcome State Fault Refusal :=
  .next (if 64 ≤ p.toNat then s else postDeadline s p.toNat v)

/-! ## Fallbacks (R273) -/

/-- The time before the deadline at which a RUN instance takes its fallback. -/
def fallbackLead (p : Part) (fb : Course) : Nat :=
  match fb with
  | .ckpt => ckptTime p p.bytes
  | _ => tDisc p

/-- The moment of a fallback has come. -/
def fallbackDue (s : State) (p : Part) (q : QCourse) : Bool :=
  decide (p.qndl.toNat * perNs p ≤ s.time.toNat * perNs p + fallbackLead p q.fallback)

/-- QUENCH_FALLBACK (R271, R273): a RUN instance that has not finished takes its fallback; a discarded instance whose events had no
room goes on. -/
def execQuenchFallback (p colour : W64) (s : State) : Host.Outcome State Fault Refusal :=
  let n := p.toNat
  let c : BitVec 12 := colour.setWidth 12
  .next (match courseOf (s.part n) c with
    | none => s
    | some q =>
      if (s.part n).state ≠ .accepted || q.vacated then s
      else match q.course with
        | .run =>
          if fallbackDue s (s.part n) q then
            let q1 := { q with course := q.fallback }
            startCourse (s.updPart n (fun p => { p with
              courses := p.courses.map (fun x => if x.colour == c then q1 else x) })) q1
          else s
        | .ckpt => startCourse s q
        | .disc => discStep s c)

/-! ## Vacancy (R274) -/

/-- The instances of a partition that have finished or have been discarded are unbound. -/
def unbindDone (s : State) (n : Nat) : State :=
  (s.cols.filter (fun k => k.2.part == n)).foldl (fun s x =>
    let c := BitVec.ofNat 12 x.1
    let disc := match courseOf (s.part n) c with
      | some q => q.course == .disc
      | none => false
    match s.col? x.1 with
    | none => s
    | some k =>
      if k.isIdle && k.join.isNone && (disc || !preempted k) && (k.swap.isNone || canRaise s k.vf) then
        vacate (unbindColour (forgetOut (dropSwap (dropSolder (endSave s k 4) c) c k .quench) c) c) n c
      else s) s

/-- Write the partition's lines back: its clusters' L1Ds and its slice ways are clean. -/
def cleanPart (s : State) (n : Nat) : State :=
  let s1 := (s.part n).clusters.foldl (fun s c => (s.clu c).l1.foldl (fun s l => l1Evict s c l.line) s) s
  s1.dies.foldl (fun s d => (d.2.slice.filter (fun l => l.part == n && l.dirty)).foldl (fun s l =>
    sliceUpd (hbmPutLine s l.line l.data l.bad) l.line (fun y => { y with dirty := false })) s) s1

/-- The event of vacancy (R274, Table 12.5). -/
def quenchEvent (s : State) (n : Nat) : Event := { Event.zero with ty := 10, info := (s.part n).qnWord }

/-- QUENCH_VACANCY (R274): what is left of the partition's work goes; once nothing is, the partition is vacant. -/
def execQuenchVacancy (p : W64) (s : State) : Host.Outcome State Fault Refusal :=
  let n := p.toNat
  .next (if (s.part n).state ≠ .accepted then s
    else
      let s1 := unbindDone s n
      if s1.cols.any (fun k => k.2.part == n) || !pfRoom s1 then s1
      else
        let s2 := (cleanPart s1 n).updPart n (fun p => { p with state := .vacant, qndone := s1.time })
        if isVacant s2 n then raisePf s2 (quenchEvent s2 n) else s1)

end Sys2Proof.Machine
end

