-- ==== Sys2Proof/Machine/Commands.lean ====
section
/-! DEFINITION. The commands of the physical function's submission queue (R38, R50, R231, R263, R268, R295, R304, R324 to R331,
R511, R513). -/

namespace Sys2Proof.Machine

/-! ## Command descriptors (Tables 12.6, 12.9) -/

/-- OP. -/
def cmdOp (d : W512) : Nat := fld d 0 16
/-- VF number. -/
def cmdVf (d : W512) : Nat := fld d 16 16
/-- CMDID. -/
def cmdId (d : W512) : BitVec 32 := d.extractLsb' 32 32

/-- Every byte from 8 on that the command does not use is zero: the fields in use as byte offset and length. -/
def cmdZeros (d : W512) (used : List (Nat × Nat)) : Bool :=
  used.foldl (fun v f => setFld v (8 * f.1) (8 * f.2) 0) d >>> 64 == 0

/-- The bytes in use, by OP. -/
def cmdUsed (op : Nat) : List (Nat × Nat) :=
  match op with
  | 1 => [(8, 4), (16, 8)]
  | 2 => [(8, 2), (10, 2), (12, 4)]
  | 3 | 4 => [(8, 2)]
  | 5 => [(8, 2), (10, 1)]
  | 6 => [(8, 8), (16, 8)]
  | _ => []

/-- A command that is refused before it is looked at: a reserved OP, or a byte that must be zero. -/
def cmdBad (d : W512) : Bool := decide (cmdOp d = 0 ∨ 6 < cmdOp d) || !cmdZeros d (cmdUsed (cmdOp d))

/-- The command at the head of the queue, when the physical function takes commands and its event finds room, with the state after the
read of its slot (R341); a slot that cannot be read puts the queue in error (R524). -/
def pfHead (s : State) : Option W512 × State :=
  let q := s.pf.q
  if s.pf.ready && !q.sqerr && ringSet q.sqbase && q.sqhead != q.sqtail && pfRoom s then
    match ringRead s pfQ (ringSlot q.sqbase q.sqhead.toNat 64) 64 with
    | .ok bs s1 => (some (bytesData bs), s1)
    | .wait s1 => (none, s1)
    | .fault c r a s1 => (none, raisePf (s1.updPf (fun p => { p with q := { p.q with sqerr := true } }))
        { Event.zero with ty := 8, cause := c, reason := r, addr := BitVec.ofNat 64 a })
  else (none, s)

/-- The head command has been taken. -/
def takeCmd (s : State) : State := s.updPf (fun p => { p with q := { p.q with sqhead := p.q.sqhead + 1 } })

/-- A command ends with its event. -/
def endCmd (s : State) (d : W512) (status : BitVec 8) : State := raisePf (takeCmd s) (cmdEvent (cmdId d) status)

/-- Run the head command when it is of an operation; a refused one ends whichever step meets it. -/
def cmdStep (s : State) (op : Nat) (run : State → W512 → State) : State :=
  match pfHead s with
  | (none, s1) => s1
  | (some d, s1) => if cmdBad d then endCmd s1 d 11 else if cmdOp d = op then run s1 d else s1

/-! ## WVREG (R329 to R331) -/

/-- A colour of the VF is bound to the weave. -/
def weaveBound (s : State) (v : Nat) (id : BitVec 32) : Bool := s.cols.any (fun k => k.2.vf == v && k.2.weave == id)

/-- Register a weave, in the place of an earlier one. -/
def addWeave (s : State) (v : Nat) (w : Weave) : State :=
  (s.updVf v (fun f => { f with weaves := f.weaves.filter (fun x => x.id != w.id) ++ [w] })).updPf (fun p => { p with nextReg := p.nextReg + 1 })

/-- LOADDIAG (Table 13.11). -/
def loadDiag (d : W512) (e : LoadFail) : W64 := BitVec.ofNat 64 ((cmdId d).toNat * 2 ^ 32 + e.1 % 16 * 2 ^ 28 + e.2 % 2 ^ 28)

/-- An image is rejected with its LOADDIAG (R330). -/
def loadErr (s : State) (d : W512) (e : LoadFail) : State := endCmd (s.updPf (fun p => { p with loaddiag := loadDiag d e })) d 10

/-- The bytes of an image have been read: it is validated and registered (R329, R331). -/
def wvregImage (s : State) (d : W512) (v : Nat) (id : BitVec 32) (g : Reader) : State :=
  match validate s.mgmt g id (weaveBound s v id) with
  | some e => loadErr s d e
  | none => endCmd (addWeave s v (weaveOf g id s.pf.nextReg)) d 0

/-- WVREG of a descriptor: the header is read, and, where it passes, the whole image; one that cannot be read is rejected at its start (log
entry 62). -/
def wvregCmd (s : State) (d : W512) : State :=
  let v := cmdVf d
  let id : BitVec 32 := d.extractLsb' 64 32
  let pa := fld d 128 64
  if 1024 ≤ v ∨ pa % 64 ≠ 0 then endCmd s d 11
  else match paPeek s pfUnit pa 128 with
    | .wait s1 => s1
    | .fault _ _ _ s1 => loadErr s1 d (1, 0)
    | .ok head s1 => match checkHeader (readerOf head) id (weaveBound s1 v id) with
      | some e => loadErr s1 d e
      | none => match paRead s1 pfUnit pa (imageEnd (readerOf head)) with
        | .wait s2 => s2
        | .fault _ _ _ s2 => loadErr s2 d (1, 0)
        | .ok bs s2 => wvregImage s2 d v id (readerOf bs)

/-- WVREG (R324 to R331). -/
def execWvreg (s : State) : Host.Outcome State Fault Refusal := .next (cmdStep s 1 wvregCmd)

/-! ## BIND and UNBIND (R38, R40, R50, R231, R263) -/

/-- Bytes that the contexts of some numbers of logical tiles take in a context area. -/
def ctxTotal (ns : List Nat) : Nat := 0x10000 + (ns.map (fun n => ctxAlign (ctxSize n))).sum

/-- The contexts of the VF's bound colours and one of `n` logical tiles exceed SIZE (R263). -/
def ctxFull (s : State) (v n : Nat) : Bool :=
  decide ((s.vf v).ctxBytes < ctxTotal (n :: ((mapVals s.cols).filter (fun k => k.vf == v)).map (·.nlt)))

/-- The lead colour of a bind: the colour itself, or the bound lead of a group with room, of the same VF and weave (R50). -/
def leadOk (s : State) (v : Nat) (id : BitVec 32) (c lead : BitVec 12) : Bool :=
  lead == c || match s.col? lead.toNat with
    | some k => k.vf == v && k.weave == id && k.lead == lead && decide ((s.cols.filter (fun x => x.2.lead == lead)).length < 16)
    | none => false

/-- A context that the device will resume on its own holds the colour index of a VF. -/
def idxHeld (s : State) (v idx : Nat) : Bool := (autoSaved s v).any (fun x => x.colidx == idx)

/-- A queue descriptor of a colour index lies on a stack that is not ready (R341). -/
def descsWait (s : State) (p : Part) (idx : Nat) : Bool := physWaits s (taskDescAt p idx 0) 256 || physWaits s (userDescAt p idx 0) 512

/-- BIND of a descriptor. -/
def bindCmd (s : State) (d : W512) : State :=
  let v := cmdVf d
  let f := s.vf v
  let n := f.part.toNat
  let p := s.part n
  let idx := fld d 64 16
  let lidx := fld d 80 16
  let id : BitVec 32 := d.extractLsb' 96 32
  let c := p.tbase + BitVec.ofNat 12 idx
  let lead := p.tbase + BitVec.ofNat 12 lidx
  match weave? s v id with
  | none => endCmd s d 11
  | some w =>
    if decide (idx < p.block) && descsWait s p idx then s
    else if 1024 ≤ v || !f.runs || !p.en || p.block ≤ idx || p.block ≤ lidx || (s.col? c.toNat).isSome || idxHeld s v idx ||
        !leadOk s v id c lead then endCmd s d 11
    else if descsBad s p idx then endCmd s d 7
    else if ctxFull s v w.nlt then endCmd s d 8
    else
      let s1 := { s with cols := mapPut s.cols c.toNat (newColour v n w lead s.clk) }
      endCmd (install s1 c w) d 0

/-- BIND (R38, R43, R50, R231, R237, R263, R511): the weave goes into shadow banks at once, or when tiles are free. -/
def execBind (s : State) : Host.Outcome State Fault Refusal := .next (cmdStep s 2 bindCmd)

/-- The colour of a VF that a command names, when it is bound. -/
def cmdColour (s : State) (d : W512) : Option (BitVec 12 × Colour) :=
  let v := cmdVf d
  let p := s.part (s.vf v).part.toNat
  let idx := fld d 64 16
  let c := p.tbase + BitVec.ofNat 12 idx
  if 1024 ≤ v ∨ p.block ≤ idx then none
  else match s.col? c.toNat with
    | some k => if k.vf = v then some (c, k) else none
    | none => none

/-- UNBIND of a descriptor. -/
def unbindCmd (s : State) (d : W512) : State :=
  match cmdColour s d with
  | none => endCmd s d 11
  | some (c, k) =>
    if k.isIdle && k.join.isNone && !preempted k && k.cut.isNone then
      (if mayUnbind s k then endCmd (unbindIdle s c k) d 0 else s)
    else endCmd s d 11

/-- UNBIND (R40, R295). -/
def execUnbind (s : State) : Host.Outcome State Fault Refusal := .next (cmdStep s 3 unbindCmd)

/-! ## SAVE and RESUME (R259, R268, R269, R513) -/

/-- SAVE of a descriptor: its event follows the commit. -/
def saveCmd (s : State) (d : W512) : State :=
  match cmdColour s d with
  | none => endCmd s d 11
  | some (c, k) =>
    if (preempted k && preemptWhy k != some .guest) || areaWaits s (s.vf k.vf) then s
    else if (placeCtx s k).isNone then endCmd s d 8
    else preemptFor (takeCmd s) c (.save (cmdId d))

/-- SAVE (R40, R259). -/
def execSave (s : State) : Host.Outcome State Fault Refusal := .next (cmdStep s 4 saveCmd)

/-- VFs that name a partition. -/
def vfsOf (s : State) (n : Nat) : Nat := (s.vfs.filter (fun f => f.2.en && f.2.part.toNat == n)).length

/-- The conditions of a move but for the fit (R513). -/
def mayMoveVf (s : State) (v q : Nat) : Bool :=
  (colsOf s v).isEmpty && (s.vf v).tdi == .configUnlocked && (s.part q).en && decide (vfsOf s q < 16)

/-- Write back and invalidate the lines of ART ranges in a partition's clusters and slices (step 1 of R513). -/
def flushRanges (s : State) (n : Nat) (as : List Art) : State :=
  let s1 := (s.part n).clusters.foldl (fun s c => ((s.clu c).l1.filter (fun l => lineIn as l.line)).foldl (fun s l => l1Evict s c l.line) s) s
  s1.dies.foldl (fun s d => (d.2.slice.filter (fun l => l.part == n && lineIn as l.line)).foldl (fun s l => sliceEvict s d.1 l) s) s1

/-- Copy bytes from one physical address to another for the device itself. -/
def physCopy (s : State) (src dst n : Nat) : State := physWr s dst ((cohRd s src n).map Prod.fst)

/-- Copy the queue descriptors of a colour index between scheduler areas (step 3 of R513). -/
def copyDescs (s : State) (p q : Part) (idx : Nat) : State :=
  physCopy (physCopy s (taskDescAt p idx 0) (taskDescAt q idx 0) 256) (userDescAt p idx 0) (userDescAt q idx 0) 512

/-- The colour indices of a VF's directory. -/
def dirIdxs (s : State) (f : Vf) : List Nat := ((List.range (dirCount s f)).map (dirCol s f)).foldl setIns []

/-- A queue descriptor that a move copies lies on a stack that is not ready (R341). -/
def moveWaits (s : State) (f : Vf) (q : Nat) : Bool :=
  (dirIdxs s f).any (fun i => descsWait s (s.part f.part.toNat) i || descsWait s (s.part q) i)

/-- Steps 1 to 3 of R513. -/
def moveVf (s : State) (v q : Nat) : State :=
  let f := s.vf v
  let n := f.part.toNat
  let s1 := flushRanges s n ((artsOf f).map (artOf s))
  let s2 := (artsOf f).foldl (fun s a => putArt s a { artOf s a with part := BitVec.ofNat 6 q })
    (s1.updVf v (fun f => { f with part := BitVec.ofNat 6 q, holds := false }))
  (dirIdxs s2 f).foldl (fun s i => copyDescs s (s.part n) (s.part q) i) s2

/-- A VF whose context has been resumed takes its partition when none holds it. -/
def resumed (s : State) (v : Nat) : State := if holdsPart s v then takePartition s v else s

/-- RESUME of a descriptor. A move that has to wait for an answer from outside the package is made again once it has come: till then
only its messages stand. -/
def resumeCmd (s : State) (d : W512) : State :=
  let v := cmdVf d
  let f := s.vf v
  let i := fld d 64 16
  let q := fld d 80 8
  if 1024 ≤ v || !f.runs || decide (126 < i) || decide (63 < q) then endCmd s d 11
  else if areaWaits s f then s
  else if dirCount s f ≤ i || dirState s f i != 1 then endCmd s d 9
  else if q = f.part.toNat then
    match resumeOwn s v i noShadow with
    | .done s1 => endCmd (resumed s1 v) d 0
    | .wait s1 => s1
    | .fault _ _ _ s1 => endCmd s1 d 9
    | .noFit => endCmd s d 9
  else if !mayMoveVf s v q then endCmd s d 11
  else if moveWaits s f q then s
  else match resumeOwn (moveVf s v q) v i noShadow with
    | .done s1 => endCmd (resumed s1 v) d 0
    | .wait s1 => { s with host := s1.host, wick := s1.wick }
    | _ => endCmd s d 11

/-- RESUME (R42, R56, R267 to R269, R276, R511 to R513). -/
def execResume (s : State) : Host.Outcome State Fault Refusal := .next (cmdStep s 5 resumeCmd)

/-! ## CKPTALL (R304) -/

/-- The enabled ranges of some partitions in physical-address order. -/
def rangesOf (s : State) (mask : W64) : List Art :=
  let ins (a : Art) (l : List Art) : List Art :=
    l.takeWhile (fun x => decide (x.lo ≤ a.lo)) ++ a :: l.dropWhile (fun x => decide (x.lo ≤ a.lo))
  (s.pf.arts.filter (fun a => a.en && mask.getLsbD a.part.toNat)).foldl (fun l a => ins a l) []

/-- Each range with its place in the pool: one after the other behind the manifest, 4 KiB aligned (log entry 9). -/
def poolRuns : Nat → List Art → List (Nat × Nat × Nat)
  | _, [] => []
  | at_, a :: rest =>
    let n := a.hi + 1 - a.lo
    (a.lo, at_, n) :: poolRuns (at_ + (n + 4095) / 4096 * 4096) rest

/-- The manifest (R304; its layout by log entry 9). -/
def manifestBytes (s : State) (k : Ckpt) : List Byte :=
  let as := rangesOf s k.mask
  let runs := poolRuns (k.pool + 4096) as
  padTo 4096 (natBytes 8 k.seq ++ natBytes 8 s.time.toNat ++ natBytes 8 runs.length ++ List.replicate 8 0 ++
    runs.flatMap (fun r => natBytes 8 r.1 ++ natBytes 8 (r.1 + r.2.2 - 1) ++ natBytes 8 r.2.1 ++ List.replicate 8 0))

/-- Colours of the partitions of a mask. -/
def maskCols (s : State) (mask : W64) : List (BitVec 12) :=
  (s.cols.filter (fun k => mask.getLsbD k.2.part)).map (fun k => BitVec.ofNat 12 k.1)

/-- Pre-empt every colour of the partitions. -/
def ckptCut (s : State) (k : Ckpt) : State :=
  (maskCols s k.mask).foldl (fun s c => preemptFor s c (.ckpt k.cmd)) ((bitList 64 k.mask.toNat).foldl noteLoads s)

/-- Change the CKPTALL in progress. -/
def updCkpt (s : State) (f : Ckpt → Ckpt) : State := s.updPf (fun p => { p with ckpt := p.ckpt.map f })

/-- The number of the copy engines as a unit that runs a CKPTALL. -/
def ckptUnit : Nat := 8193

/-- The writes of a CKPTALL have all been acknowledged. -/
def poolAcked (s : State) : Bool := !s.wick.out.any (fun o => o.who == .device ckptUnit && o.kind.writes)

/-- Send bytes, at most 64, to pooled memory. -/
def poolWrite (s : State) (off : Nat) (bs : List Byte) : State :=
  (sendOut s 0 (.device ckptUnit) (.write bs.length (BitVec.ofNat 64 (2 ^ bs.length - 1))) (poolBase + off) (bytesData bs) none none).1

/-- The checkpoint is over: the colours are resumed and the command ends (step 4 of R304). -/
def ckptEnd (s : State) (d : W512) (k : Ckpt) : State :=
  let vs := (s.saved.filter (fun x => x.2.why == .ckpt k.cmd)).map (fun x => x.2.vf) ++ mapKeys (s.vfs.filter (fun f => f.2.gsw == .load))
  let s1 := s.updPf (fun p => { p with ckpt := none })
  endCmd ((vs.foldl setIns []).foldl (fun s v => if holdsPart s v then resumeAuto s v else s) s1) d 0

/-- One piece of the copy, or of the manifest; a piece on a stack that is not ready waits (R341). -/
def ckptPiece (s : State) (d : W512) (k : Ckpt) : State :=
  match k.runs with
  | (pa, off, n) :: rest =>
    let m := min 64 n
    if physWaits s pa m || !rangeFree s pa m then s
    else updCkpt (poolWrite s off ((cohRd s pa m).map Prod.fst)) (fun k => { k with
      runs := if n ≤ 64 then rest else (pa + 64, off + 64, n - 64) :: rest })
  | [] => match k.manifest with
    | none => if poolAcked s then updCkpt s (fun x => { x with manifest := some (k.pool, manifestBytes s k) }) else s
    | some (_, []) => if poolAcked s then ckptEnd s d k else s
    | some (off, bs) => updCkpt (poolWrite s off (bs.take 64)) (fun k => { k with manifest := some (off + 64, bs.drop 64) })

/-- One step of a CKPTALL in progress. -/
def ckptStep (s : State) (d : W512) (k : Ckpt) : State :=
  if k.copying then ckptPiece s d k
  else if (maskCols s k.mask).isEmpty then updCkpt s (fun k => { k with copying := true, runs := poolRuns (k.pool + 4096) (rangesOf s k.mask) })
  else ckptCut s k

/-- CKPTALL of a descriptor: it stays at the head until its copy is done. -/
def ckptCmd (s : State) (d : W512) : State :=
  match s.pf.ckpt with
  | some k => ckptStep s d k
  | none =>
    let pool := fld d 128 64
    let k : Ckpt := { cmd := cmdId d, mask := d.extractLsb' 64 64, pool := pool, seq := s.pf.q.sqhead.toNat, runs := [],
                      copying := false, manifest := none }
    if cmdVf d ≠ 0 ∨ pool % 4096 ≠ 0 ∨ 2 ^ 49 ≤ pool then endCmd s d 11
    else ckptCut (s.updPf (fun p => { p with ckpt := some k })) k

/-- CKPTALL (R304). -/
def execCkptall (s : State) : Host.Outcome State Fault Refusal := .next (cmdStep s 6 ckptCmd)

end Sys2Proof.Machine
end

