-- ==== Sys2Proof/Machine/Ports.lean ====
section
/-! DEFINITION. The host port and the wicker links: inbound requests, answers to the device's own, translations of host pages and
replays of flits (R176, R186, R190, R278, R279, R298, R301 to R303, R349). -/

namespace Sys2Proof.Machine

/-! ## Accesses at a physical address from outside -/

/-- What an access from outside meets. -/
inductive PortRes where
  /-- Done, with the bytes read. -/
  | ok (bs : List Byte) (s : State)
  /-- An uncorrectable error, or no range covers it. -/
  | ue (s : State)
  /-- It waits, in its place at the lines that it needs (R201). -/
  | wait (s : State)

/-- Perform an access of a request from outside at a physical address, once it has its turn at every line (R186, R201); a miss counts on a
die. -/
def portAccess (s : State) (num pa n die : Nat) (body : State → PortRes) : PortRes :=
  let lines := if isHbm pa then linesOf pa n else []
  if hbmWaits s pa then .wait s
  else if !hbmUsable s pa then .ue (countMiss s pa die)
  else
    let turn := enterLines s (.port num) lines
    if !turn.1 then .wait turn.2
    else match body turn.2 with
      | .ok bs s1 => .ok bs (leaveLines s1 (.port num) lines)
      | .ue s1 => .ue (leaveLines s1 (.port num) lines)
      | .wait s1 => .wait s1

/-- Read bytes at a physical address. -/
def portRead (s : State) (num pa n die : Nat) : PortRes :=
  portAccess s num pa n die (fun s =>
    let s1 := recallRange s pa n
    let bs := homeRd s1 pa n
    if anyBad bs then .ue (noteUe s1 pa n) else .ok (bs.map Prod.fst) s1)

/-- Write the bytes of a message whose mask bits are set. -/
def portWrite (s : State) (num pa : Nat) (bs : List Byte) (mask : W64) (die : Nat) : PortRes :=
  portAccess s num pa bs.length die (fun s => .ok [] (homeWr (recallRange s pa bs.length) pa
    ((bs.zipIdx).map (fun b => if mask.getLsbD b.2 then some b.1 else none)) false))

/-- The operands of an atomic that has come in: of a CAS the expected value lies in the low 64 bits and the new value above. -/
def atqOperand (opc : Nat) (data : W512) : W512 := if opc = 0x7C then data &&& BitVec.ofNat 512 (2 ^ 64 - 1) else data

/-- Perform an atomic: the bytes of its answer are those of its result. -/
def portRmw (s : State) (num pa n die opc : Nat) (ty : Ty) (aop : Nat) (data : W512) : PortRes :=
  portAccess s num pa n die (fun s =>
    let s1 := recallRange s pa n
    let bs := homeRd s1 pa n
    if anyBad bs then .ue (noteUe s1 pa n)
    else
      let r := rmwBytes opc ty aop n (bs.map Prod.fst) (atqOperand opc data) (data >>> 64)
      .ok (dataBytes r.2 64) (homeWr s1 pa (wrAll r.1) false))

/-- Read the rest of a request's bytes, in parts of at most 64; the fuel is the number of parts. -/
def portReads : Nat → State → Inbound → Nat → Nat → Nat → PortRes × Inbound
  | 0, s, x, _, _, _ => (.wait s, x)
  | k + 1, s, x, pa, n, die =>
    let off := x.got.length
    if n ≤ off then (.ok x.got s, x)
    else match portRead s x.num (pa + off) (min (64 - (pa + off) % 64) (n - off)) die with
      | .ok bs s1 => portReads k s1 { x with got := x.got ++ bs } pa n die
      | r => (r, x)

/-- Perform what a request from outside asks for at a physical address. -/
def performIn (s : State) (x : Inbound) (pa die : Nat) : PortRes × Inbound :=
  match x.kind with
  | .read n => portReads (n / 64 + 3) s x pa n die
  | .write n mask => (portWrite s x.num pa (dataBytes x.data n) mask die, x)
  | .atomic opc ty aop n => (portRmw s x.num pa n die opc.toNat ty aop x.data, x)

/-! ## Wicker links: windows and answers (R301 to R303) -/

/-- A wicker port. -/
def wport (s : State) (p : Nat) : WPort := mapGet s.wick.ports p WPort.reset

/-- Change a wicker port. -/
def updPort (s : State) (p : Nat) (f : WPort → WPort) : State :=
  { s with wick := { s.wick with ports := mapPut s.wick.ports p (f (wport s p)) } }

/-- The address that an offset names through the lowest enabled window that covers it, with the window; the range there is of the
window's partition (R301, Table 12.3). -/
def windowFor (s : State) (off : Nat) : Option (Nat × Win) :=
  (s.pf.wins.find? (fun w => w.en && decide (w.base.toNat * 256 + off ≤ w.lim.toNat * 256 + 0xFF) &&
    (match ownerPart s (w.base.toNat * 256 + off) with
      | some o => o.1 == w.part.toNat
      | none => true))).map (fun w => (w.base.toNat * 256 + off, w))

/-- The bit of PERM that a request needs: R, W or A. -/
def MsgKind.perm : MsgKind → Nat
  | .read _ => 0
  | .write _ _ => 1
  | .atomic _ _ _ _ => 2

/-- Where an incoming request goes, or the status that refuses it: 1 NOWIN, 2 NOPERM. -/
def windowAt (s : State) (off perm : Nat) : Except (BitVec 2) Nat :=
  match windowFor s off with
  | none => .error 1
  | some (pa, w) => if w.perm.getLsbD perm then .ok pa else .error 2

/-- The message that answers a request. -/
def answerTy : MsgKind → BitVec 3
  | .read _ => 1
  | .write _ _ => 3
  | .atomic opc _ _ _ => if opc = 0x7E ∨ opc = 0x7F then 3 else 5

/-- Bytes of the data slots of an answer. -/
def answerSize : MsgKind → Nat
  | .read n => n
  | .write _ _ => 0
  | .atomic opc _ _ _ => if opc = 0x7E ∨ opc = 0x7F then 0 else 16

/-- Answer a request that came in on a wicker port. -/
def wickAnswer (s : State) (x : Inbound) (st : BitVec 2) (data : W512) : State :=
  wickSend s (x.port - 1)
    { ty := answerTy x.kind, src := x.src, dst := some Config.devNumber, tag := x.tag, reis := false, off := x.addr,
      size := answerSize x.kind, op := none, mask := 0, status := st, data := data }

/-- A performed write or atomic in a port's completion cache. -/
def cached (s : State) (p dev tag : Nat) : Option Done := (wport s p).cache.find? (fun d => d.dev == dev && d.tag == tag)

/-- Keep the result of a write or atomic until REL (R303). -/
def cachePut (s : State) (p dev tag : Nat) (st : BitVec 2) (data : W512) : State :=
  updPort s p (fun w => { w with cache := w.cache ++ [{ dev := dev, tag := tag, status := st, data := data }] })

/-- The port exists and a source device number names a peer. -/
def wickOk (port srcdev : W64) : Bool := decide (port.toNat < 36) && decide (srcdev.toNat < 192)

/-- The die of a wicker port: nine on each. -/
def portDie (p : Nat) : Nat := p / 9

/-- A request has performed or failed: a write or an atomic is cached, and the answer goes out (R303). -/
def wickDone (s : State) (x : Inbound) (st : BitVec 2) (data : W512) : State :=
  wickAnswer (if x.kind.writes then cachePut s (x.port - 1) x.src x.tag st data else s) x st data

/-! ## The requests that have arrived (R186, R201, R303) -/

/-- Send bytes to the host: a posted write, or the completion of a read. -/
def hostSend (s : State) (a : Nat) (bs : List Byte) (stream : Option W64) : State :=
  { s with host := { s.host with sent := { addr := a, bs := bs, stream := stream } :: s.host.sent } }

/-- How a request that has arrived goes on. -/
inductive ServeRes where
  | done (s : State)
  | wait (x : Inbound) (s : State)

/-- A request of the host: a read is answered with its bytes. -/
def serveHost (s : State) (x : Inbound) : ServeRes :=
  match performIn s x x.addr 0 with
  | (.ok bs s1, _) => .done (if x.kind.writes then s1 else hostSend s1 x.addr bs none)
  | (.ue s1, _) => .done s1
  | (.wait s1, y) => .wait y s1

/-- A request of a peer: one whose key is cached returns the cached response, a full cache withholds a write or an atomic, and a window must
cover it and grant its kind (R301, R303). -/
def serveWick (s : State) (x : Inbound) : ServeRes :=
  let p := x.port - 1
  match if x.kind.writes then cached s p x.src x.tag else none with
  | some d => .done (wickAnswer s x d.status d.data)
  | none =>
    if x.kind.writes && (wport s p).cacheFull then .wait x s
    else match windowAt s x.addr x.kind.perm with
      | .error st => .done (wickAnswer s x st 0)
      | .ok pa => match performIn s x pa (portDie p) with
        | (.ok bs s1, _) => .done (wickDone s1 x 0 (if answerSize x.kind = 0 then 0 else bytesData bs))
        | (.ue s1, _) => .done (wickDone s1 x 3 0)
        | (.wait s1, y) => .wait y s1

/-- An earlier request that still waits keeps a later one waiting: at the host port a posted write of the same requester, unless the later
one has Relaxed Ordering; on a link one to the same 64-byte line (R186, R303). -/
def Inbound.before (y x : Inbound) : Bool :=
  y.port == x.port && (if x.port = 0 then y.kind.writes && y.src == x.src && !x.ro else y.addr / 64 == x.addr / 64)

/-- Serve the requests that have arrived, in order: those that still wait stay. -/
def serveAll : List Inbound → List Inbound → State → State
  | [], left, s => { s with inq := left }
  | x :: rest, left, s =>
    if left.any (fun y => y.before x) then serveAll rest (left ++ [x]) s
    else match if x.port = 0 then serveHost s x else serveWick s x with
      | .done s1 => serveAll rest left s1
      | .wait y s1 => serveAll rest (left ++ [y]) s1

/-- Serve every request that has arrived. -/
def serveIn (s : State) : State := serveAll s.inq [] s

/-- A request arrives. -/
def arriveIn (s : State) (x : Inbound) : State := serveIn { s with inq := s.inq ++ [{ x with num := s.nextIn }], nextIn := s.nextIn + 1 }

/-! ## Inbound requests of the host (R186, R278, R298) -/

/-- A register read: bit 63 of the address is set, bits [42:32] name the function (0 the PF, v + 1 VF v) and bits [31:0] the offset; bit 62
is the T bit and bits [55:48] the IDE stream (log entry 1). -/
def hostRegRead (s : State) (addr : W64) : State :=
  let space := (addr.extractLsb' 32 11).toNat
  let v := if space = 0 then pfQ else space - 1
  barReq s v addr (fun s => hostSend s addr.toNat (natBytes 8 (regRead s space (addr.extractLsb' 0 32).toNat).toNat)
    (if space = 0 then none else vfStream s (some (space - 1))))

/-- HOST_INBOUND_REQUEST (R162, R186, R201, R278, R298): bits [7:0] of `write` are 0 for a read of at most 4,096 bytes, 1 for a posted
write, whose payload comes in parts of at most 64 bytes, 2 for an AtomicOp, which completes with Unsupported Request and does nothing, and 3
where nothing arrives; bits [31:16] are the requester ID and bit 32 is Relaxed Ordering (log entry 1). Every step serves the requests that
wait. -/
def execHostInboundRequest (write addr size : W64) (data : W512) (s : State) : Host.Outcome State Fault Refusal :=
  let n := size.toNat
  let x (kind : MsgKind) : Inbound :=
    { num := 0, port := 0, src := (write.extractLsb' 16 16).toNat, tag := 0, ro := write.getLsbD 32, kind := kind, addr := addr.toNat,
      data := data, got := [] }
  .next (match (write.extractLsb' 0 8).toNat with
    | 0 =>
      if addr.getLsbD 63 then hostRegRead s addr
      else if n = 0 ∨ 4096 < n then hostUr s addr
      else arriveIn s (x (.read n))
    | 1 => if addr.getLsbD 63 ∨ n = 0 ∨ 64 < n then serveIn s else arriveIn s (x (.write n (fullMask n)))
    | 2 => hostUr s addr
    | _ => serveIn s)

/-! ## Answers from the host (R83, R175, R176, R190, R279) -/

/-- Keep a result in the port's store (R176). -/
def storeResult (s : State) (tag : Nat) (v : Option W512) (f : Option (BitVec 8 × BitVec 8)) : State :=
  { s with host := { s.host with store := s.host.store.map (fun e => if e.tag = tag then { e with result := v, fault := f } else e) } }

/-- What a read of the device itself has brought, or the refusal that it met (R524). -/
def devAnswer (s : State) (unit : Nat) (o : Outbound) (data : W512) (bad : Option (BitVec 8 × BitVec 8)) : State :=
  match o.kind with
  | .read n => { s with host := { s.host with
      devData := mapPut s.host.devData (devKey unit (o.addr / 64)) { bs := dataBytes data n, bad := bad } } }
  | _ => s

/-- An answer reaches what awaits it. -/
def deliverOut (s : State) (o : Outbound) (data : W512) (bad : Option (BitVec 8 × BitVec 8)) : State :=
  match o.who with
  | .device u => if o.recorded then s else devAnswer s u o data bad
  | _ => answerOut s o.colour o data bad

/-- The unit that awaits an answer has forwarded its marker in a cut that may serve a save: the answer is held back (R83). -/
def comesLate (s : State) (o : Outbound) : Bool :=
  match s.col? o.colour.toNat with
  | none => false
  | some k =>
    let whole : Bool := match k.cut with
      | some x => x.whole
      | none => false
    o.awaitedBy o.colour && cutStops k && (match o.who with
      | .req id _ => match (s.req? id).bind (fun r => stake? s o.colour r.lstake) with
        | some st => st.unitMark.isNone && (whole || st.round != k.round)
        | none => false
      | _ => whole)

/-- An acknowledgement takes its write out of ACKOUT, and a reissue that waits for room may follow (R175). -/
def ackBack (s : State) (o : Outbound) : State :=
  if o.epoch.isNone then s else reissueMore (ackDown s o.colour.toNat o.epoch) o.colour

/-- An invalidation that waits for accesses waits no more for one of them; one that waits for none completes (R279). -/
def invStep (s : State) (tag : Nat) : State :=
  let q := s.host.invq.map (fun i => (i.1, i.2.1, i.2.2.erase tag))
  { s with host := { s.host with
    invq := q.filter (fun i => !i.2.2.isEmpty)
    invdone := ((q.filter (fun i => i.2.2.isEmpty)).map (fun i => (i.1, i.2.1))).reverse ++ s.host.invdone } }

/-- HOST_COMPLETION (R83, R175, R176, R190, R279): a status other than 0 is an error. -/
def execHostCompletion (tag status : W64) (data : W512) (s : State) : Host.Outcome State Fault Refusal :=
  let t := tag.toNat
  let bad : Option (BitVec 8 × BitVec 8) := if status = 0 then none else some (cUE, 0)
  let gone (s : State) : State := { s with host := { s.host with out := s.host.out.filter (fun x => x.tag != t) } }
  .next (match s.host.out.find? (fun o => o.tag == t) with
    | none => s
    | some o =>
      if o.late.isSome then s
      else
        let s1 := invStep s t
        if comesLate s o then
          ackBack { s1 with host := { s1.host with out := s1.host.out.map (fun x =>
            if x.tag = t then { x with late := some (data, bad), epoch := none } else x) } } o
        else if o.recorded then storeResult (ackBack (gone s1) o) t (if status = 0 then some data else none) bad
        else deliverOut (ackBack (gone s1) o) o data bad)

/-! ## Translations of host pages (R279) -/

/-- Put a translation into the cache of 2,048 entries. -/
def atsPut (l : List Ats) (e : Ats) : List Ats := (e :: l.filter (fun x => x.page != e.page)).take 2048

/-- ATS_TRANSLATION_RESPONSE (R279): bit 0 of `perm` grants reads and bit 1 writes; where a waiting access lacks its permission a
page request is sent, unless 512 are outstanding, and then the access asks again (R278). -/
def execAtsTranslationResponse (page perm xlat : W64) (s : State) : Host.Outcome State Fault Refusal :=
  let p := page.toNat
  let asked := s.host.atsAsked.filter (fun a => a.1 == p)
  let lacks := asked.any (fun a => !(if a.2 then perm.getLsbD 1 else perm.getLsbD 0))
  let e : Ats := { page := p, xlat := xlat.toNat, r := perm.getLsbD 0, w := perm.getLsbD 1 }
  .next (if asked.isEmpty then s
    else { s with host := { s.host with
      atsAsked := s.host.atsAsked.filter (fun a => a.1 != p)
      ats := if e.r || e.w then atsPut s.host.ats e else s.host.ats
      priAsked := if lacks && decide (s.host.priAsked.length < 512) then setIns s.host.priAsked p else s.host.priAsked } })

/-- PRI_PAGE_RESPONSE (R279): after a failure the access faults with HOSTPF; otherwise it asks again. -/
def execPriPageResponse (page ok : W64) (s : State) : Host.Outcome State Fault Refusal :=
  let p := page.toNat
  .next (if s.host.priAsked.contains p then
    { s with host := { s.host with
      priAsked := setDel s.host.priAsked p
      priFailed := if ok = 0 then setIns s.host.priFailed p else s.host.priFailed } }
  else s)

/-- ATS_INVALIDATION (R278, R279): the cache holds no entry of the range any more; it completes once every access translated through one
has performed. Of those that wait 32 are queued, and one more is not taken. -/
def execAtsInvalidation (base log2l : W64) (s : State) : Host.Outcome State Fault Refusal :=
  let lo := base.toNat % 2 ^ 50
  let hit (page : Nat) : Bool := overlaps (page * 4096) 4096 lo (2 ^ log2l.toNat)
  let old := (s.host.out.filter (fun o => o.late.isNone && o.page.any hit)).map (·.tag)
  let cut (h : HostPort) : HostPort := { h with ats := h.ats.filter (fun e => !hit e.page) }
  .next (if old.isEmpty then { s with host := { cut s.host with invdone := (lo, log2l.toNat) :: s.host.invdone } }
    else if 32 ≤ s.host.invq.length then s
    else { s with host := { cut s.host with invq := s.host.invq ++ [(lo, log2l.toNat, old)] } })

/-! ## Wicker links: requests that arrive (R301 to R303) -/

/-- A request arrives on a wicker port. -/
def wickArrive (s : State) (port srcdev tag off : W64) (kind : MsgKind) (data : W512) : State :=
  arriveIn s { num := 0, port := port.toNat + 1, src := srcdev.toNat, tag := tag.toNat % 2 ^ 32, ro := false, kind := kind,
               addr := off.toNat % 2 ^ 40, data := data, got := [] }

/-- RDQ (R162, R186, R301, R302): a read of 1 to 64 bytes. -/
def execRdq (port srcdev tag off size : W64) (s : State) : Host.Outcome State Fault Refusal :=
  let n := size.toNat
  .next (if !wickOk port srcdev || n == 0 || decide (64 < n) then s else wickArrive s port srcdev tag off (.read n) 0)

/-- WRQ (R186, R301, R303): the bytes whose mask bits are set. -/
def execWrq (port srcdev tag off mask : W64) (data : W512) (s : State) : Host.Outcome State Fault Refusal :=
  let n := (bitList 64 mask.toNat).getLastD 0 + 1
  .next (if !wickOk port srcdev then s else wickArrive s port srcdev tag off (.write n mask) data)

/-- ATQ (R186, R193, R301, R303): `op` holds the opcode in bits [7:0], TY in [11:8], AOP in [15:12] and the size in bytes in [23:16] (log
entry 1). -/
def execAtq (port srcdev tag off op : W64) (data : W512) (s : State) : Host.Outcome State Fault Refusal :=
  let opc : BitVec 8 := op.extractLsb' 0 8
  let n := (op.extractLsb' 16 8).toNat
  let kind : MsgKind := .atomic opc (Ty.ofCode (op.extractLsb' 8 4)) (op.extractLsb' 12 4).toNat n
  .next (if !wickOk port srcdev || !([0x7A, 0x7B, 0x7C, 0x7E, 0x7F].contains opc.toNat) || n == 0 || decide (64 < n) then s
    else wickArrive s port srcdev tag off kind data)

/-- REL (R303): the source has consumed a response; what waited for room in the cache goes on. -/
def execRel (port srcdev tag : W64) (s : State) : Host.Outcome State Fault Refusal :=
  .next (if wickOk port srcdev then serveIn (updPort s port.toNat (fun w => { w with
    cache := w.cache.filter (fun d => !(d.dev == srcdev.toNat && d.tag == tag.toNat)) }))
  else s)

/-! ## Wicker links: answers to the device (R83, R175, R301 to R303) -/

/-- What a status says: 1 and 2 refuse with PERM, reason REMOTE, 3 is an uncorrectable error. -/
def wickStatus (status : W64) : Option (BitVec 8 × BitVec 8) :=
  match status.toNat with
  | 0 => none
  | 1 | 2 => some (cPERM, rREMOTE)
  | _ => some (cUE, 0)

/-- An answer of a type comes back on a port: a response that a cut has recorded is discarded, one behind the marker of a cut is held back
(R83, R176); REL follows the response of a write or an atomic. -/
def wickBack (s : State) (port : Nat) (ty : BitVec 3) (tag status : W64) (data : W512) : State :=
  let t := tag.toNat
  let gone (s : State) : State := { s with wick := { s.wick with out := s.wick.out.filter (fun x => x.tag != t) } }
  match s.wick.out.find? (fun o => o.tag == t && answerTy o.kind == ty && portFor o.addr == port) with
  | none => s
  | some o =>
    if o.late.isSome then s
    else if comesLate s o then
      ackBack { s with wick := { s.wick with out := s.wick.out.map (fun x =>
        if x.tag = t then { x with late := some (data, wickStatus status), epoch := none } else x) } } o
    else if o.recorded && !o.own then ackBack (gone s) o
    else deliverOut (sendRel (ackBack (gone s) o) o) o data (wickStatus status)

/-- RDR (R301, R302, R512). -/
def execRdr (port tag status : W64) (data : W512) (s : State) : Host.Outcome State Fault Refusal :=
  .next (wickBack s port.toNat 1 tag status data)

/-- WRA (R175, R303). -/
def execWra (port tag status : W64) (s : State) : Host.Outcome State Fault Refusal :=
  .next (wickBack s port.toNat 3 tag status 0)

/-- ATR (R175, R195, R302, R303). -/
def execAtr (port tag status : W64) (data : W512) (s : State) : Host.Outcome State Fault Refusal :=
  .next (wickBack s port.toNat 5 tag status data)

/-- A port sends the flits again that it has kept from a sequence number on; one that it keeps no more is not sent (R302). -/
def WPort.replay (w : WPort) (seq : BitVec 12) : WPort :=
  let n := (w.seq - seq).toNat
  let l := if n ≤ w.kept.length then w.kept.take n else []
  { w with sent := l.map (·.msg) ++ w.sent, replayed := countUp w.replayed l.length }

/-- FLIT_REPLAY_REQUEST (R302, R349): the other end of a link has met a CRC failure, and the flits from a sequence number on, of the 64
kept, are sent again. -/
def execFlitReplayRequest (port seq : W64) (s : State) : Host.Outcome State Fault Refusal :=
  .next (if 36 ≤ port.toNat then s
    else updPort s port.toNat (fun w => { w.replay (seq.setWidth 12) with crc := countUp w.crc 1 }))

/-- WICKER_LINK_DOWN (R349): at the port that is the step's place. -/
def execWickerLinkDown (s : State) : Host.Outcome State Fault Refusal :=
  .next (if 36 ≤ s.cur.place then s else updPort s s.cur.place (fun w => { w with downs := countUp w.downs 1 }))

end Sys2Proof.Machine
end

