-- ==== Sys2Proof/Machine/VfCfg.lean ====
section
/-! DEFINITION. Writes to VFCFG: enabling, disabling, pausing and unpausing a virtual function (R283, R292, R293, R298). -/

namespace Sys2Proof.Machine

/-- The fields of VFCFG + 0x8 that can be written only while EN = 0 (R283). -/
def Vf.withCfg (f : Vf) (w : W64) : Vf := { f with artm := w.extractLsb' 16 16, part := w.extractLsb' 0 6 }

/-- PTROOT lies in an enabled ART entry of a partition (R283). -/
def rootIn (s : State) (p : BitVec 6) (root : W64) : Bool :=
  s.pf.arts.any (fun a => a.en && a.part == p && decide (a.lo ≤ root.toNat) && decide (root.toNat ≤ a.hi))

/-- The checks of a write that sets EN (R283). -/
def vfOk (s : State) (f : Vf) : Bool :=
  decide (vfsOf s f.part.toNat < 16) && rootIn s f.part f.ptroot && (artsOf f).all (fun n => (artOf s n).part == f.part)

/-- The device pre-empts the colours of a pausing VF; PAUSED becomes 1 once they are all saved (R292). -/
def startPause (s : State) (v : Nat) : State :=
  let s1 := (noteLoad s v).updVf v (fun f => { f with pause := true })
  pauseDone ((colsOf s1 v).foldl (fun s c => preemptFor s c .pause) s1) v

/-- The held events are posted in their order, ahead of any new one, and what the pause has saved may run again (R292). -/
def endPause (s : State) (v : Nat) : State :=
  let s1 := s.updVf v (fun f => { f with
    pause := false, paused := false, held := [], q := { f.q with evbuf := f.q.evbuf ++ f.held } })
  let s2 := { s1 with saved := s1.saved.map (fun x => (x.1, if x.2.vf = v && x.2.why = .pause then { x.2 with why := .slice } else x.2)) }
  if (s2.vf v).runs && holdsPart s2 v then resumeAuto (takePartition s2 v) v else s2

/-- The PAUSE bit of a written value takes effect. -/
def setPause (s : State) (v : Nat) (p : Bool) : State :=
  if p = (s.vf v).pause then s else if p then startPause s v else endPause s v

/-- A write of VFCFG + 0x8 (R283, R292, R293). A VF that is frozen for a TDI takes no write (R298). -/
def vfcfgWrite (s : State) (v : Nat) (w : W64) : State :=
  guardWrite s (frozenVf v) (fun s =>
    let f := s.vf v
    let g := f.withCfg w
    if f.en then
      if g != f then s.pfErr
      else if w.getLsbD 63 then setPause s v (w.getLsbD 62)
      else setPause (vfReset (s.updVf v (fun f => { f with en := false })) v) v (w.getLsbD 62)
    else
      let s1 := setPause (s.updVf v (fun _ => g)) v (w.getLsbD 62)
      if !w.getLsbD 63 then s1
      else if vfOk s g then s1.updVf v (fun f => { f with en := true, enabled := true })
      else s1.pfErr)

/-- Which writes of VFCFG + 0x8 a step stands for: EN before and in the value, and PAUSE before and in the value. -/
def vfcfgStep (s : State) (vf w : W64) (en : Bool → Bool → Bool) (pause : Bool → Bool → Bool) : State :=
  let v := vf.toNat
  let f := s.vf v
  if decide (v < 1024) && en f.en (w.getLsbD 63) && pause f.pause (w.getLsbD 62) then vfcfgWrite s v w else s

/-- VFCFG_ENABLE (R283): a write that sets EN. -/
def execVfcfgEnable (vf v : W64) (s : State) : Host.Outcome State Fault Refusal :=
  .next (vfcfgStep s vf v (fun o n => !o && n) (fun _ _ => true))

/-- VFCFG_DISABLE (R293): a write that clears EN. -/
def execVfcfgDisable (vf v : W64) (s : State) : Host.Outcome State Fault Refusal :=
  .next (vfcfgStep s vf v (fun o n => o && !n) (fun _ _ => true))

/-- VF_PAUSE (R292): a write that sets PAUSE and leaves EN. -/
def execVfPause (vf v : W64) (s : State) : Host.Outcome State Fault Refusal :=
  .next (vfcfgStep s vf v (fun o n => o == n) (fun o n => !o && n))

/-- VF_UNPAUSE (R292): a write that clears PAUSE and leaves EN. -/
def execVfUnpause (vf v : W64) (s : State) : Host.Outcome State Fault Refusal :=
  .next (vfcfgStep s vf v (fun o n => o == n) (fun o n => o && !n))

end Sys2Proof.Machine
end

