-- ==== Sys2Proof/Machine/RegWrite.lean ====
section
/-! DEFINITION. REGISTER_WRITE: a write to a register whose write has no step of its own (R8, R9, R160, R230, R263, R270, R276,
R280, R281, R283, R284, R296, R298, R301). A write to a read-only register or to a reserved offset does nothing. -/

namespace Sys2Proof.Machine

/-! ## Queue registers -/

/-- EQHEAD, EQCTL and the RW1C bit of VFSTAT, for a VF and for the physical function's own queues (Table 12.4). -/
def queueWrite (s : State) (n off : Nat) (v : W64) : State :=
  match off with
  | 0x30 => updQueues s n (fun q => { q with eqhead := v.setWidth 32 })
  | 0x38 => updQueues s n (fun q => { q with modus := v.extractLsb' 16 16, ien := v.getLsbD 8, vec := v.extractLsb' 0 2 })
  | 0x40 => if v.getLsbD 3 then updQueues s n (fun q => { q with cfgerr := false }) else s
  | _ => s

/-- A register of a VF's block (Tables 11.10 and 12.4), by a request to its BAR. -/
def vfBarWrite (s : State) (n : Nat) (x : W64) (off : Nat) (v : W64) : State :=
  barReq s n x (fun s => match off with
    | 0x1A0 => s.updVf n (fun f => { f with gswSave := v })
    | 0x1A8 => s.updVf n (fun f => { f with gswLoad := v })
    | _ => queueWrite s n off v)

/-! ## Registers of the physical function -/

/-- Bits [51:12] of a value. -/
def pageBits (v : W64) : W64 := v &&& 0x000FFFFFFFFFF000

/-- PTROOT: while EN = 0 only (R283). -/
def ptrootWrite (s : State) (n : Nat) (v : W64) : State :=
  guardWrite s (frozenVf n) (fun s =>
    if (s.vf n).en then s.pfErr else s.updVf n (fun f => { f with ptroot := pageBits v }))

/-- VFCFG + 0x8 where neither EN nor PAUSE changes; a change of either has a step of its own. -/
def vfcfgFields (s : State) (n : Nat) (v : W64) : State :=
  vfcfgStep s (BitVec.ofNat 64 n) v (fun o n => o == n) (fun o n => o == n)

/-- CTXBASE (Table 11.6). -/
def ctxbaseWrite (s : State) (n : Nat) (v : W64) : State :=
  guardWrite s (frozenVf n) (fun s => s.updVf n (fun f => { f with ctxbase := v.setWidth 52 |>.setWidth 64 }))

/-- SCHEDBASE: 4 KiB aligned (R230). -/
def schedbaseWrite (s : State) (n : Nat) (v : W64) : State :=
  guardWrite s (frozenPart n) (fun s => s.updPart n (fun p => { p with schedbase := pageBits v }))

/-- QNPOL (Table 11.9); quench registers are not frozen (R298). -/
def qnpolWrite (s : State) (n : Nat) (v : W64) : State := s.updPart n (fun p => { p with allow := v.setWidth 24 })

/-- HAMCTL: a zero DLY or TH lies outside the field's range (Table 12.3). -/
def hamctlWrite (s : State) (d : Nat) (v : W64) : State :=
  if v.extractLsb' 32 32 = 0 || v.extractLsb' 0 16 = 0 then s.pfErr
  else s.updDie d (fun x => { x with dly := v.extractLsb' 32 32, th := v.extractLsb' 0 16 })

/-- A register of a window: frozen for the VFs of the window's partition (R299). -/
def winWrite (s : State) (n r : Nat) (v : W64) : State :=
  let w := s.pf.wins.getD n Win.reset
  let put (w : Win) (s : State) : State := s.updPf (fun p => { p with wins := p.wins.set n w })
  guardWrite s (frozenPart w.part.toNat) (match r with
    | 0 => put { w with base := v.extractLsb' 8 44 }
    | 1 => put { w with lim := v.extractLsb' 8 44 }
    | 2 => put { w with en := v.getLsbD 63, perm := v.extractLsb' 32 3, part := v.extractLsb' 0 6 }
    | _ => id)

/-- A register from 0x3_0000 to 0x3_FFFF, by its offset from there. -/
def unitWrite (s : State) (o : Nat) (v : W64) : State :=
  if o < 0x2000 then s
  else if o < 0x2400 then (if o % 0x10 = 8 then schedbaseWrite s ((o - 0x2000) / 0x10) v else s)
  else if o < 0x4000 then s
  else if o < 0x5000 then (if o % 0x40 = 8 then qnpolWrite s ((o - 0x4000) / 0x40) v else s)
  else if o < 0x6000 then s
  else if o < 0x7000 then
    (if o % 8 = 0 then guardWrite s (frozenPart ((o - 0x6000) / 0x40)) (fun s => partWrite s ((o - 0x6000) / 0x40) (o % 0x40 / 8) v)
      else s)
  else if o < 0x8000 then s
  else if o < 0xA000 then (if o % 8 = 0 then ctxbaseWrite s ((o - 0x8000) / 8) v else s)
  else if o < 0xE000 then
    (match o % 0x10 with
      | 0 => ptrootWrite s ((o - 0xA000) / 0x10) v
      | 8 => vfcfgFields s ((o - 0xA000) / 0x10) v
      | _ => s)
  else if o < 0xE040 then (if o % 0x10 = 0 then hamctlWrite s ((o - 0xE000) / 0x10) v else s)
  else if 0xF000 ≤ o && o < 0xF200 && o % 8 = 0 then winWrite s ((o - 0xF000) / 0x20) (o / 8 % 4) v
  else s

/-- A register of the physical function's BAR0 (Table 12.2). -/
def pfBarWrite (s : State) (off : Nat) (v : W64) : State :=
  if off < 0x200 then queueWrite s pfQ off v
  else if off = 0x1008 then (if v.getLsbD 1 then s.updPf (fun p => { p with err := false }) else s)
  else if off < 0x20000 then s
  else if off < 0x20200 then
    (if off % 8 = 0 then guardWrite s (frozenArt ((off - 0x20000) / 0x20)) (fun s => artWrite s ((off - 0x20000) / 0x20) (off / 8 % 4) v)
      else s)
  else if 0x30000 ≤ off && off < 0x40000 then unitWrite s (off - 0x30000) v
  else s

/-- A selective IDE stream, 0 to 7, is bound to a VF, or freed of it, by bit 63; a locked TDI keeps its stream (R278, R298; log entry
1). -/
def streamBind (s : State) (stream : Nat) (v : W64) : State :=
  let n := (v.extractLsb' 0 10).toNat
  let id := BitVec.ofNat 64 stream
  if 8 ≤ stream ∨ (s.vf n).locked then s
  else if v.getLsbD 63 then s.updVf n (fun f => { f with stream := some id })
  else if (s.vf n).stream = some id then s.updVf n (fun f => { f with stream := none }) else s

/-- A write to configuration space: 0 to 1,023 a VF's BAR0, 64 KiB aligned, which a locked TDI does not take (Table 12.7); 1,024 the
host port's AtomicOp Requester Enable (R190); 1,025 an IDE stream, numbered by the offset. -/
def cfgSpaceWrite (s : State) (n off : Nat) (v : W64) : State :=
  if n < 1024 then guardWrite s (frozenVf n) (fun s => s.updVf n (fun f => { f with bar0 := v &&& 0xFFFFFFFFFFFF0000 }))
  else if n = 1024 then { s with host := { s.host with atomEn := v.getLsbD 0 } }
  else if n = 1025 then streamBind s off v
  else s

/-- REGISTER_WRITE (R8): `space` 0 is the physical function, v + 1 virtual function v, 2,048 + n configuration space (log
entry 1). -/
def execRegisterWrite (space off v : W64) (s : State) : Host.Outcome State Fault Refusal :=
  let n := barNum space
  .next (if n = 0 then pfBarWrite s off.toNat v
    else if n ≤ 1024 then vfBarWrite s (n - 1) space off.toNat v
    else if 2048 ≤ n then cfgSpaceWrite s (n - 2048) off.toNat v
    else s)

end Sys2Proof.Machine
end

