-- ==== Sys2Proof/Machine/Dispatch.lean ====
section
/-! DEFINITION. The meaning of every instruction, one arm for each constructor. -/

namespace Sys2Proof.Machine

def exec (i : Instr) (s : State) : Host.Outcome State Fault Refusal :=
      match i with
      | .const c x => Sys2Proof.Machine.execConst c x s
      | .mov c x => Sys2Proof.Machine.execMov c x s
      | .steer c x => Sys2Proof.Machine.execSteer c x s
      | .select c x => Sys2Proof.Machine.execSelect c x s
      | .merge c => Sys2Proof.Machine.execMerge c s
      | .sink c => Sys2Proof.Machine.execSink c s
      | .movid c ident => Sys2Proof.Machine.execMovid c ident s
      | .waveadv c => Sys2Proof.Machine.execWaveadv c s
      | .framenew c join => Sys2Proof.Machine.execFramenew c join s
      | .frameend c => Sys2Proof.Machine.execFrameend c s
      | .retag c rsel => Sys2Proof.Machine.execRetag c rsel s
      | .kgate c bound => Sys2Proof.Machine.execKgate c bound s
      | .kdone c gate => Sys2Proof.Machine.execKdone c gate s
      | .bar c barn => Sys2Proof.Machine.execBar c barn s
      | .barleave c barn => Sys2Proof.Machine.execBarleave c barn s
      | .taskpush c x => Sys2Proof.Machine.execTaskpush c x s
      | .taskjoin c => Sys2Proof.Machine.execTaskjoin c s
      | .taskend c => Sys2Proof.Machine.execTaskend c s
      | .qpop c qsel => Sys2Proof.Machine.execQpop c qsel s
      | .qpush c qsel => Sys2Proof.Machine.execQpush c qsel s
      | .fmtcast c sty => Sys2Proof.Machine.execFmtcast c sty s
      | .add c x => Sys2Proof.Machine.execAdd c x s
      | .sub c x => Sys2Proof.Machine.execSub c x s
      | .adds c x => Sys2Proof.Machine.execAdds c x s
      | .subs c x => Sys2Proof.Machine.execSubs c x s
      | .mul c x => Sys2Proof.Machine.execMul c x s
      | .mulh c x => Sys2Proof.Machine.execMulh c x s
      | .mad c x => Sys2Proof.Machine.execMad c x s
      | .div c x => Sys2Proof.Machine.execDiv c x s
      | .rem c x => Sys2Proof.Machine.execRem c x s
      | .min c x => Sys2Proof.Machine.execMin c x s
      | .max c x => Sys2Proof.Machine.execMax c x s
      | .abs c x => Sys2Proof.Machine.execAbs c x s
      | .neg c x => Sys2Proof.Machine.execNeg c x s
      | .and c x => Sys2Proof.Machine.execAnd c x s
      | .or c x => Sys2Proof.Machine.execOr c x s
      | .xor c x => Sys2Proof.Machine.execXor c x s
      | .andn c x => Sys2Proof.Machine.execAndn c x s
      | .shl c x => Sys2Proof.Machine.execShl c x s
      | .shr c x => Sys2Proof.Machine.execShr c x s
      | .sar c x => Sys2Proof.Machine.execSar c x s
      | .rol c x => Sys2Proof.Machine.execRol c x s
      | .clz c x => Sys2Proof.Machine.execClz c x s
      | .popc c x => Sys2Proof.Machine.execPopc c x s
      | .cmp c x => Sys2Proof.Machine.execCmp c x s
      | .lea c x => Sys2Proof.Machine.execLea c x s
      | .sext c sty => Sys2Proof.Machine.execSext c sty s
      | .zext c sty => Sys2Proof.Machine.execZext c sty s
      | .bfx c x => Sys2Proof.Machine.execBfx c x s
      | .bfi c x => Sys2Proof.Machine.execBfi c x s
      | .fadd c x => Sys2Proof.Machine.execFadd c x s
      | .fsub c x => Sys2Proof.Machine.execFsub c x s
      | .fmul c x => Sys2Proof.Machine.execFmul c x s
      | .ffma c x => Sys2Proof.Machine.execFfma c x s
      | .fdiv c x => Sys2Proof.Machine.execFdiv c x s
      | .fsqrt c x => Sys2Proof.Machine.execFsqrt c x s
      | .fmin c x => Sys2Proof.Machine.execFmin c x s
      | .fmax c x => Sys2Proof.Machine.execFmax c x s
      | .fcmp c x => Sys2Proof.Machine.execFcmp c x s
      | .fabs c x => Sys2Proof.Machine.execFabs c x s
      | .fneg c x => Sys2Proof.Machine.execFneg c x s
      | .frcp c x => Sys2Proof.Machine.execFrcp c x s
      | .frsq c x => Sys2Proof.Machine.execFrsq c x s
      | .fexp2 c x => Sys2Proof.Machine.execFexp2 c x s
      | .flog2 c x => Sys2Proof.Machine.execFlog2 c x s
      | .fsin c x => Sys2Proof.Machine.execFsin c x s
      | .fcos c x => Sys2Proof.Machine.execFcos c x s
      | .ftanh c x => Sys2Proof.Machine.execFtanh c x s
      | .fclass c x => Sys2Proof.Machine.execFclass c x s
      | .fcvt c sty => Sys2Proof.Machine.execFcvt c sty s
      | .f2i c sty => Sys2Proof.Machine.execF2i c sty s
      | .i2f c sty => Sys2Proof.Machine.execI2f c sty s
      | .frnd c x => Sys2Proof.Machine.execFrnd c x s
      | .vred c x => Sys2Proof.Machine.execVred c x s
      | .vscan c x => Sys2Proof.Machine.execVscan c x s
      | .vperm c x => Sys2Proof.Machine.execVperm c x s
      | .vbcast c x => Sys2Proof.Machine.execVbcast c x s
      | .vext c x => Sys2Proof.Machine.execVext c x s
      | .vins c x => Sys2Proof.Machine.execVins c x s
      | .vpack c sty => Sys2Proof.Machine.execVpack c sty s
      | .vunpk c sty => Sys2Proof.Machine.execVunpk c sty s
      | .vquant c sty => Sys2Proof.Machine.execVquant c sty s
      | .vdeq c sty => Sys2Proof.Machine.execVdeq c sty s
      | .vchain c x => Sys2Proof.Machine.execVchain c x s
      | .vsel c x => Sys2Proof.Machine.execVsel c x s
      | .vhdr c => Sys2Proof.Machine.execVhdr c s
      | .rng c stream => Sys2Proof.Machine.execRng c stream s
      | .ld c x => Sys2Proof.Machine.execLd c x s
      | .st c x => Sys2Proof.Machine.execSt c x s
      | .ldt c x => Sys2Proof.Machine.execLdt c x s
      | .stt c x => Sys2Proof.Machine.execStt c x s
      | .ldf c x => Sys2Proof.Machine.execLdf c x s
      | .ste c x => Sys2Proof.Machine.execSte c x s
      | .memnop c x => Sys2Proof.Machine.execMemnop c x s
      | .pref c x => Sys2Proof.Machine.execPref c x s
      | .fence c x => Sys2Proof.Machine.execFence c x s
      | .fwait c => Sys2Proof.Machine.execFwait c s
      | .atom c x => Sys2Proof.Machine.execAtom c x s
      | .fatom c x => Sys2Proof.Machine.execFatom c x s
      | .cas c x => Sys2Proof.Machine.execCas c x s
      | .mcas c x => Sys2Proof.Machine.execMcas c x s
      | .red c x => Sys2Proof.Machine.execRed c x s
      | .fred c x => Sys2Proof.Machine.execFred c x s
      | .cpy c x => Sys2Proof.Machine.execCpy c x s
      | .cpywp c x => Sys2Proof.Machine.execCpywp c x s
      | .qfence c x => Sys2Proof.Machine.execQfence c x s
      | .tmld c x => Sys2Proof.Machine.execTmld c x s
      | .tmst c x => Sys2Proof.Machine.execTmst c x s
      | .tmset c tmn => Sys2Proof.Machine.execTmset c tmn s
      | .tmnar c tmn => Sys2Proof.Machine.execTmnar c tmn s
      | .tmget c tmn => Sys2Proof.Machine.execTmget c tmn s
      | .mzero c x => Sys2Proof.Machine.execMzero c x s
      | .mma c x => Sys2Proof.Machine.execMma c x s
      | .msnap c x => Sys2Proof.Machine.execMsnap c x s
      | .mdrain c x => Sys2Proof.Machine.execMdrain c x s
      | .mldacc c x => Sys2Proof.Machine.execMldacc c x s
      | .rdctl c ctl => Sys2Proof.Machine.execRdctl c ctl s
      | .wrctl c ctl => Sys2Proof.Machine.execWrctl c ctl s
      | .rdtime c => Sys2Proof.Machine.execRdtime c s
      | .trap c code => Sys2Proof.Machine.execTrap c code s
      | .brk c code => Sys2Proof.Machine.execBrk c code s
      | .event c code => Sys2Proof.Machine.execEvent c code s
      | .cfgswap c weaveId => Sys2Proof.Machine.execCfgswap c weaveId s
      | .mark c => Sys2Proof.Machine.execMark c s
      | .rplay c => Sys2Proof.Machine.execRplay c s
      | .hint c hint => Sys2Proof.Machine.execHint c hint s
      | .unitReady kind idx ok => Sys2Proof.Machine.execUnitReady kind idx ok s
      | .thermalShutdown temp => Sys2Proof.Machine.execThermalShutdown temp s
      | .dutyRaise avgw temp => Sys2Proof.Machine.execDutyRaise avgw temp s
      | .dutyLower avgw temp => Sys2Proof.Machine.execDutyLower avgw temp s
      | .pwrctlWrite v => Sys2Proof.Machine.execPwrctlWrite v s
      | .firmwareUpdate img ver secver key => Sys2Proof.Machine.execFirmwareUpdate img ver secver key s
      | .spdmRequest kind arg => Sys2Proof.Machine.execSpdmRequest kind arg s
      | .registerWrite space off v => Sys2Proof.Machine.execRegisterWrite space off v s
      | .artEnable n v => Sys2Proof.Machine.execArtEnable n v s
      | .wshareWrite p d v => Sys2Proof.Machine.execWshareWrite p d v s
      | .partctlEnable p v => Sys2Proof.Machine.execPartctlEnable p v s
      | .partctlDisable p v => Sys2Proof.Machine.execPartctlDisable p v s
      | .vfcfgEnable vf v => Sys2Proof.Machine.execVfcfgEnable vf v s
      | .vfcfgDisable vf v => Sys2Proof.Machine.execVfcfgDisable vf v s
      | .functionLevelReset vf => Sys2Proof.Machine.execFunctionLevelReset vf s
      | .vfPause vf v => Sys2Proof.Machine.execVfPause vf v s
      | .vfUnpause vf v => Sys2Proof.Machine.execVfUnpause vf v s
      | .schedctlWrite p v => Sys2Proof.Machine.execSchedctlWrite p v s
      | .qndlWrite p v => Sys2Proof.Machine.execQndlWrite p v s
      | .quenchFallback p colour => Sys2Proof.Machine.execQuenchFallback p colour s
      | .quenchVacancy p => Sys2Proof.Machine.execQuenchVacancy p s
      | .sqbaseWrite vf v => Sys2Proof.Machine.execSqbaseWrite vf v s
      | .eqbaseWrite vf v => Sys2Proof.Machine.execEqbaseWrite vf v s
      | .sqDoorbell vf v => Sys2Proof.Machine.execSqDoorbell vf v s
      | .sqheadWrite vf v => Sys2Proof.Machine.execSqheadWrite vf v s
      | .invalWrite vf v => Sys2Proof.Machine.execInvalWrite vf v s
      | .invalidationComplete vf => Sys2Proof.Machine.execInvalidationComplete vf s
      | .trapresResume vf v => Sys2Proof.Machine.execTrapresResume vf v s
      | .trapresKill vf v => Sys2Proof.Machine.execTrapresKill vf v s
      | .gswctlGo vf v => Sys2Proof.Machine.execGswctlGo vf v s
      | .launch vf => Sys2Proof.Machine.execLaunch vf s
      | .replay vf => Sys2Proof.Machine.execReplay vf s
      | .patch vf => Sys2Proof.Machine.execPatch vf s
      | .launchPushRetry vf => Sys2Proof.Machine.execLaunchPushRetry vf s
      | .taskTakeup colour => Sys2Proof.Machine.execTaskTakeup colour s
      | .taskjoinRetry colour => Sys2Proof.Machine.execTaskjoinRetry colour s
      | .eventWrite vf => Sys2Proof.Machine.execEventWrite vf s
      | .eventSlotRetry vf => Sys2Proof.Machine.execEventSlotRetry vf s
      | .msixMessage vf => Sys2Proof.Machine.execMsixMessage vf s
      | .hostInboundRequest write addr size d => Sys2Proof.Machine.execHostInboundRequest write addr size d s
      | .hostCompletion tag status d => Sys2Proof.Machine.execHostCompletion tag status d s
      | .atsTranslationResponse page perm xlat => Sys2Proof.Machine.execAtsTranslationResponse page perm xlat s
      | .priPageResponse page ok => Sys2Proof.Machine.execPriPageResponse page ok s
      | .atsInvalidation base log2l => Sys2Proof.Machine.execAtsInvalidation base log2l s
      | .lockInterfaceRequest vf nonce stream => Sys2Proof.Machine.execLockInterfaceRequest vf nonce stream s
      | .startInterfaceRequest vf nonce => Sys2Proof.Machine.execStartInterfaceRequest vf nonce s
      | .stopInterfaceRequest vf => Sys2Proof.Machine.execStopInterfaceRequest vf s
      | .ideIntegrityFailure vf => Sys2Proof.Machine.execIdeIntegrityFailure vf s
      | .rdq port srcdev tag off size => Sys2Proof.Machine.execRdq port srcdev tag off size s
      | .wrq port srcdev tag off mask d => Sys2Proof.Machine.execWrq port srcdev tag off mask d s
      | .atq port srcdev tag off op d => Sys2Proof.Machine.execAtq port srcdev tag off op d s
      | .rel port srcdev tag => Sys2Proof.Machine.execRel port srcdev tag s
      | .rdr port tag status d => Sys2Proof.Machine.execRdr port tag status d s
      | .wra port tag status => Sys2Proof.Machine.execWra port tag status s
      | .atr port tag status d => Sys2Proof.Machine.execAtr port tag status d s
      | .flitReplayRequest port seq => Sys2Proof.Machine.execFlitReplayRequest port seq s
      | .tokenArrival colour src dst => Sys2Proof.Machine.execTokenArrival colour src dst s
      | .spillWriteRetry colour => Sys2Proof.Machine.execSpillWriteRetry colour s
      | .spillReinject colour => Sys2Proof.Machine.execSpillReinject colour s
      | .misfitForward colour lstake port => Sys2Proof.Machine.execMisfitForward colour lstake port s
      | .strayReject colour src dst => Sys2Proof.Machine.execStrayReject colour src dst s
      | .weaveLoad colour => Sys2Proof.Machine.execWeaveLoad colour s
      | .waleMarkerArrival colour src dst => Sys2Proof.Machine.execWaleMarkerArrival colour src dst s
      | .roundEntry colour lstake => Sys2Proof.Machine.execRoundEntry colour lstake s
      | .markerInjection colour => Sys2Proof.Machine.execMarkerInjection colour s
      | .unitMarkerForward colour lstake => Sys2Proof.Machine.execUnitMarkerForward colour lstake s
      | .frameQuiesced colour frame => Sys2Proof.Machine.execFrameQuiesced colour frame s
      | .purgeSweepDone colour frame => Sys2Proof.Machine.execPurgeSweepDone colour frame s
      | .kgateDecrement colour gate => Sys2Proof.Machine.execKgateDecrement colour gate s
      | .wsbRequestArrival colour lstake => Sys2Proof.Machine.execWsbRequestArrival colour lstake s
      | .wsbLink colour frame => Sys2Proof.Machine.execWsbLink colour frame s
      | .frameStopAck colour frame tile => Sys2Proof.Machine.execFrameStopAck colour frame tile s
      | .trapRaise colour frame => Sys2Proof.Machine.execTrapRaise colour frame s
      | .trapDelivery colour frame => Sys2Proof.Machine.execTrapDelivery colour frame s
      | .replaySlotRetry colour frame => Sys2Proof.Machine.execReplaySlotRetry colour frame s
      | .replayAreaWriteRetry colour frame => Sys2Proof.Machine.execReplayAreaWriteRetry colour frame s
      | .controlRequestSend req => Sys2Proof.Machine.execControlRequestSend req s
      | .accessPerform req => Sys2Proof.Machine.execAccessPerform req s
      | .fullEmptyPerform req => Sys2Proof.Machine.execFullEmptyPerform req s
      | .ldtLineWrite req => Sys2Proof.Machine.execLdtLineWrite req s
      | .sttLineWrite req => Sys2Proof.Machine.execSttLineWrite req s
      | .syReleaseDrain req => Sys2Proof.Machine.execSyReleaseDrain req s
      | .atomicRmw req => Sys2Proof.Machine.execAtomicRmw req s
      | .pageWalk cluster va => Sys2Proof.Machine.execPageWalk cluster va s
      | .walkComplete cluster va => Sys2Proof.Machine.execWalkComplete cluster va s
      | .reclassifyRequest cluster va => Sys2Proof.Machine.execReclassifyRequest cluster va s
      | .gets cluster line => Sys2Proof.Machine.execGets cluster line s
      | .getx cluster line => Sys2Proof.Machine.execGetx cluster line s
      | .putx cluster line => Sys2Proof.Machine.execPutx cluster line s
      | .directoryRmw line => Sys2Proof.Machine.execDirectoryRmw line s
      | .directoryEviction line => Sys2Proof.Machine.execDirectoryEviction line s
      | .probe cluster line => Sys2Proof.Machine.execProbe cluster line s
      | .probeAck line => Sys2Proof.Machine.execProbeAck line s
      | .lockRequest cluster slot => Sys2Proof.Machine.execLockRequest cluster slot s
      | .lockGrant cluster slot => Sys2Proof.Machine.execLockGrant cluster slot s
      | .mcasChecks req => Sys2Proof.Machine.execMcasChecks req s
      | .writeAndUnlock cluster slot line => Sys2Proof.Machine.execWriteAndUnlock cluster slot line s
      | .unlockAck cluster slot => Sys2Proof.Machine.execUnlockAck cluster slot s
      | .lockWithdrawal cluster slot => Sys2Proof.Machine.execLockWithdrawal cluster slot s
      | .copyCommandAccept req => Sys2Proof.Machine.execCopyCommandAccept req s
      | .copyPiece colour queue => Sys2Proof.Machine.execCopyPiece colour queue s
      | .qfenceRelease colour idx => Sys2Proof.Machine.execQfenceRelease colour idx s
      | .throttledActivation row => Sys2Proof.Machine.execThrottledActivation row s
      | .mzeroPerform tile bank => Sys2Proof.Machine.execMzeroPerform tile bank s
      | .mldaccPerform tile bank => Sys2Proof.Machine.execMldaccPerform tile bank s
      | .msnapStart tile bank => Sys2Proof.Machine.execMsnapStart tile bank s
      | .mdrainPerform tile bank => Sys2Proof.Machine.execMdrainPerform tile bank s
      | .sliceExpiry p => Sys2Proof.Machine.execSliceExpiry p s
      | .forcedCut colour => Sys2Proof.Machine.execForcedCut colour s
      | .saveCommit colour => Sys2Proof.Machine.execSaveCommit colour s
      | .cfgswapSwitch colour => Sys2Proof.Machine.execCfgswapSwitch colour s
      | .migrationRound colour => Sys2Proof.Machine.execMigrationRound colour s
      | .stakeMove colour lstake tile slot => Sys2Proof.Machine.execStakeMove colour lstake tile slot s
      | .watchdogExpiry colour => Sys2Proof.Machine.execWatchdogExpiry colour s
      | .schedulerUnbind colour => Sys2Proof.Machine.execSchedulerUnbind colour s
      | .resetRelease => Sys2Proof.Machine.execResetRelease s
      | .warmReset => Sys2Proof.Machine.execWarmReset s
      | .pldmMonitorRequest => Sys2Proof.Machine.execPldmMonitorRequest s
      | .sliceShrinkSweep => Sys2Proof.Machine.execSliceShrinkSweep s
      | .sliceShrinkComplete => Sys2Proof.Machine.execSliceShrinkComplete s
      | .wvreg => Sys2Proof.Machine.execWvreg s
      | .bind => Sys2Proof.Machine.execBind s
      | .unbind => Sys2Proof.Machine.execUnbind s
      | .save => Sys2Proof.Machine.execSave s
      | .resume => Sys2Proof.Machine.execResume s
      | .ckptall => Sys2Proof.Machine.execCkptall s
      | .strayReturn => Sys2Proof.Machine.execStrayReturn s
      | .upsettArrival => Sys2Proof.Machine.execUpsettArrival s
      | .fenceSlotGrant => Sys2Proof.Machine.execFenceSlotGrant s
      | .scrubGranule => Sys2Proof.Machine.execScrubGranule s
      | .hammerWindowEnd => Sys2Proof.Machine.execHammerWindowEnd s
      | .mmaStepStart => Sys2Proof.Machine.execMmaStepStart s
      | .mmaStepCommit => Sys2Proof.Machine.execMmaStepCommit s
      | .wickerLinkDown => Sys2Proof.Machine.execWickerLinkDown s

end Sys2Proof.Machine
end

