-- ==== Sys2Proof/Machine/Step.lean ====
section
/-! DEFINITION. One step: the head of the schedule is fetched, decoded and run (log entry 1). -/

namespace Sys2Proof.Machine

/-- The stake word in a slot of the active bank of a tile; none in an empty slot (R14, R247). -/
def fetch (s : State) (ptile slot : Nat) : Option StakeWord := (mapGet? (s.tile ptile).active.slots slot).map (·.word)

/-- Run a decoded word at a place. -/
def runAt (s : State) (place slot : Nat) (r : Except DecodeError Instr) : Host.Outcome State Fault Refusal :=
  match r with
  | .ok i => exec i { s with cur := { place := place, slot := slot } }
  | .error e => .refused (.undecodable e)

/-- Run one item of the schedule. -/
def stepItem (s : State) (x : StepItem) : Host.Outcome State Fault Refusal :=
  match x with
  | .fire t n =>
    if 2048 ≤ t ∨ 128 ≤ n then .fault (.noSuchSlot t n)
    else match fetch s t n with
      | some w => runAt s t n (decodeStake w)
      | none => .next s
  | .event p w => runAt s p 0 (decode w)
  | .wait n => .next (tick s n)

/-- One step: the head of the schedule moves; with nothing scheduled, one clk passes. -/
def step (s : State) : Host.Outcome State Fault Refusal :=
  match s.agenda with
  | [] => .next (tick s 1)
  | x :: rest => stepItem { s with agenda := rest } x

/-- The weave of one stake, for `State.withFetchWord`. -/
def probeWeave (w : StakeWord) : Weave :=
  { id := 1, reg := 0, nlt := 1, stakes := [{ word := w, lstake := 0, flags := 1, hint := none, da := 4, db := 4, dc := 4, dt := 0 }],
    lregs := [], tms := [], fpctl := 0x100, colkey := 0, spillbase := 8, msquota := 16, trapvec := 0, data := [] }

/-- A stake word placed in slot 0 of the active bank of tile 0, as the only stake of colour 0, with an operand set of zeros
ready for frame 0 (log entry 1). -/
def probeStake (s : State) (w : StakeWord) : State :=
  let st0 := ({ word := w, lstake := 0, flags := 9, hint := none, da := 4, db := 4, dc := 4, dt := 0 } : StakeRec).fresh []
  let z := mkToken 0 0 0 0 0 0
  let set := (usedPorts st0).foldl (fun o p => o.put p { z with port := BitVec.ofNat 2 p }) OpSet.empty
  let st := { st0 with ready := [set] }
  let k := { newColour 0 0 (probeWeave w) 0 s.clk with
    smap := [(0, { fix := false, ptile := 0, pslot := 0 })], anchors := [(0, 0)], loadReq := false, nextSeq := 1,
    frames := [(0, newFrame 0 0 0 0 0 0 true false 0)] }
  { s.updTile 0 (fun t => t.setActive { colour := some 0, ltile := 0, slots := [(0, st)] }) with
    cols := mapPut s.cols 0 k, agenda := .fire 0 0 :: s.agenda }

/-- The state with one instruction where the next step fetches it: a device step at the head of the schedule, or a stake word
in a slot that the schedule fires next (log entry 1). -/
def State.withFetchWord (s : State) (nbits w : Nat) : State :=
  let word : StepWord := BitVec.ofNat 1152 (w % 2 ^ nbits)
  if word.extractLsb' 120 8 = 0 then { s with agenda := .event 0 word :: s.agenda }
  else probeStake s (word.setWidth 128)

end Sys2Proof.Machine
end

