-- ==== Sys2Proof/Safety.lean ====
section
/-! DEFINITION. The words in which claims are stated: safe runs, a firing that may begin, and what it emits or sends. -/

namespace Sys2Proof.Machine

/-- A step answers a next state. -/
def Steps (s s' : State) : Prop := step s = .next s'

/-- A state that some number of steps reaches. -/
inductive Reaches : State → State → Prop where
  /-- No step. -/
  | refl (s : State) : Reaches s s
  /-- One step more. -/
  | tail {a b c : State} : Reaches a b → Steps b c → Reaches a c

/-- A run is safe when it neither faults nor is refused within `k` steps. -/
def SafeFor (k : Nat) (s : State) : Prop := ∃ s', Sys2Proof.core.run k s = .next s'

/-- The list of HBM4's bytes has its canonical form, and the granules that have been scrubbed stand in rising order. -/
def State.memOk (s : State) : Prop := Memory.wf s.mem = true ∧ s.scrubbed.Pairwise (· < ·)

/-! ## Firings -/

/-- A firing may begin at the cursor: its operand set is complete, every input passes its checks, what the instruction waits for
(`gate`) holds, and a firing slot of the tile falls to it in this clk (R31, R57, R69, R72). -/
structure Fires (gate : State → Fire → Bool) (s : State) (f : Fire) : Prop where
  /-- The stake at the cursor has an operand set for a frame that may fire. -/
  picked : pick s = some f
  /-- Every input passes its checks. -/
  inputs : f.ops.toks.all Token.ok = true
  /-- What the instruction waits for holds. -/
  ready : gate s f = true
  /-- A slot of this clk falls to it. -/
  turn : hasTurn s f = true

/-- The state in which a firing takes its effect, when it leaves its stake as `st`: the firing is counted, in its tile's slots too. -/
def Fire.begunWith (f : Fire) (st : StakeSt) (s : State) : State :=
  noteFiring (putStake s f.colour { st with fresh := false }) f.tile f.colour f.st.lstake

/-- The state in which a firing takes its effect: its inputs are out of the stake's buffers. -/
def Fire.begun (f : Fire) (s : State) : State := f.begunWith (takeSet f.st f.ops) s

/-- The state after a firing whose effect leaves `t`. -/
def Fire.done (f : Fire) (t : State) : State := settleAfter t f

/-- The lowest `n` lanes of `w` bits are the given numbers, and every bit above them is 0 (R61, R310). -/
def LanesAre (w n : Nat) (v : W512) (g : Nat → Nat) : Prop := (∀ i, i < n → lane v w i = g i) ∧ v.toNat < 2 ^ (w * n)

/-- The instruction answers the state in which the firing has emitted one token with this DATA and FMT, under its own tag
word and with a fresh CHK, on every result destination, and has changed nothing else. -/
def Emits (i : Instr) (s : State) (f : Fire) (v : W512) (fmt : BitVec 3) : Prop :=
  exec i s = .next (f.done (emitResult (f.begun s) f (f.token v fmt)))

/-- The instruction answers the state in which the firing has emitted one token of `n` lanes of `t`, lane i with the value
that `g i` gives, and has set in FPCTL the flags of every lane. -/
def EmitsFloat (i : Instr) (s : State) (f : Fire) (t : Ty) (n : Nat) (fmt : BitVec 3) (g : Nat → Nat × Flags) : Prop :=
  ∃ v, exec i s = .next (f.done (raiseFlags (emitResult (f.begun s) f (f.token v fmt)) f.colour
      ((List.range n).foldl (fun a k => a ||| (g k).2) 0))) ∧
    LanesAre t.width n v (fun k => (g k).1 % 2 ^ t.width)

/-- The instruction answers the state in which the firing has sent one request, and has changed nothing else. -/
def Sends (i : Instr) (s : State) (f : Fire) (r : Request) : Prop := exec i s = .next (f.done (sendReq (f.begun s) r))

/-- The instruction answers the state in which the firing has trapped with a cause and has emitted nothing (R32). -/
def Traps (i : Instr) (s : State) (f : Fire) (cause : BitVec 8) : Prop :=
  exec i s = .next (f.done (trapFire (f.begun s) f cause))

/-- The value of a finite number. -/
def FVal.q : FVal → Rat
  | .num neg n d => mkRat (if neg then -(n : Int) else n) d
  | _ => 0

/-- A finite number. -/
def FVal.isNum : FVal → Bool
  | .num _ _ _ => true
  | _ => false

/-- `z` is the integer to which a rounding mode takes `x`; RSR rounds as RNE (R98, R108, R407). -/
def RoundsTo (rm : Rm) (x : Rat) (z : Int) : Prop :=
  match rm with
  | .rtz => z = if x < 0 then x.ceil else x.floor
  | .rup => z = x.ceil
  | .rdn => z = x.floor
  | _ => (z : Rat) - x ≤ 1 / 2 ∧ x - (z : Rat) ≤ 1 / 2 ∧ ((z : Rat) - x = 1 / 2 ∨ x - (z : Rat) = 1 / 2 → z % 2 = 0)

end Sys2Proof.Machine
end

