-- ==== Sys2Proof/Certificates/Slice0/Obligations.lean ====
section
/-! DEFINITION. The statements for the provers. `Sys2Proof.Claims` holds the parts of the statements that have several; each
statement of OBLIGATIONS.json is a definition under `Obligations`. -/

open Sys2Proof Sys2Proof.Machine

/-! ## Words -/

/-- R307, R310 to R312, R333 and Tables 5.2, 7.5, 8.2, 9.1, 13.1 to 13.4: words written out bit by bit from the spec's tables decode
to the instructions that they stand for. -/
def Sys2Proof.Claims.WordsDecode : Prop :=
  (∃ c : Common, decodeStake 0x4089_0217_4000_A600_0C00_0000_3FC0_0000#128 = .ok (.fadd c ⟨0, 0x3FC0_0000⟩) ∧ c.ty = .f32 ∧ c.md = 9 ∧
    c.acc = 2 ∧ c.sa = .port ∧ c.sb = .imm ∧ c.sc = .zero ∧ c.d0.lstake = 5 ∧ c.d1.v = true ∧ c.d1.q = true ∧ c.d1.lstake = 6 ∧ c.d2 = Dest.none) ∧
  (∃ c : Common, decodeStake 0x2748_000F_4002_2000_0000_0000_0000_0000#128 = .ok (.div c ⟨0, 0⟩) ∧ c.ty = .i32 ∧ c.md = 8 ∧ c.acc = 0 ∧
    c.sb = .l2 ∧ c.d0.lstake = 0x11) ∧
  (∃ c : Common, decodeStake 0x7081_005B_4002_A000_0000_0000_0002_0259#128 = .ok (.ld c ⟨0, 1, 2, 2, 6, 1⟩) ∧ c.ty = .f32 ∧ c.sa = .l1 ∧
    c.d0.isResult = true) ∧
  (∃ c : Common, decodeStake 0x0350_0003_4002_4600_2600_0000_0000_0000#128 = .ok (.steer c ⟨0, 0⟩) ∧ c.d0.q = false ∧ c.d1.q = true) ∧
  (∃ c : Common, decodeStake 0x9B91_003F_4006_0400_6380_0002_0000_0000#128 = .ok (.mdrain c ⟨1, .i8⟩) ∧ c.ty = .bf16) ∧
  (∃ c : Common, decodeStake 0x72B0_001B_4005_E000_0000_0007_F801_FE18#128 = .ok (.ldt c (MemX.ofBits 0x7_F801_FE18)) ∧ c.ty = .e4m3) ∧
  (∃ c : Common, decodeStake 0x0CF0_001B_4002_2000_0000_0000_0000_0004#128 = .ok (.kgate c 4) ∧ c.ty = .x)

/-- R332, R333: a word whose opcode Table 14.1 reserves is no instruction, nor is a legal word with a bit changed that its layout
leaves to no field; what decodes is well formed and is the very word that the encoder writes. -/
def Sys2Proof.Claims.OtherWordsAreRefused : Prop :=
  (∀ w : StakeWord, (w.extractLsb' 120 8).toNat ∈ [0x00, 0x16, 0x17, 0x18, 0x19, 0x1A, 0x1B, 0x1C, 0x1D, 0x1E, 0x1F, 0x3D, 0x3E, 0x3F, 0x57,
      0x58, 0x59, 0x5A, 0x5B, 0x5C, 0x5D, 0x5E, 0x5F, 0x6E, 0x6F, 0x83, 0x84, 0x85, 0x86, 0x87, 0x88, 0x89, 0x8A, 0x8B, 0x8C, 0x8D, 0x8E, 0x8F,
      0x95, 0x96, 0x97, 0x9D, 0x9E, 0x9F, 0xAA, 0xAB, 0xAC, 0xAD, 0xAE, 0xAF] ∨ 0xB0 ≤ (w.extractLsb' 120 8).toNat →
    ∀ i, decodeStake w ≠ .ok i) ∧
  (∀ (w : StepWord) (i : Instr), decode w = .ok i → encode i = w ∧ i.wf = true) ∧
  (∀ (c : Common) (xf : BitVec 35), xf ≠ 0 → ∀ opc ∈ [0x05#8, 0x06#8, 0x08#8, 0x0A#8, 0x11#8, 0x12#8, 0x6C#8, 0x79#8, 0xA2#8, 0xA7#8, 0xA8#8],
    ∀ i, decode (packStake opc c xf) ≠ .ok i)

/-- The spec's words decode to the instructions that it lists, and no other word decodes. -/
def Obligations.WordsDecodeAsTheSpecEncodesThem : Prop :=
  Sys2Proof.Claims.WordsDecode ∧ Sys2Proof.Claims.OtherWordsAreRefused

/-- R305 to R316, R333: the decoder reads every well-formed instruction back from its word, with every operand at every value that
the encoding admits, from the word itself and from the table's numbering of its bits. -/
def Obligations.DecodeAndEncodeAgree : Prop :=
  ∀ i : Instr, i.wf = true → decode (encode i) = .ok i ∧ decodeTableWord 1152 (encode i).toNat = some i ∧
    ((Instr.common? i).isSome = true → decodeStake ((encode i).setWidth 128) = .ok i ∧ decodeTableWord 128 (encode i).toNat = some i)

/-! ## The step -/

/-- R14, R31, R247, R332 and log entry 1: a step takes the head of the schedule and runs the instruction that its word decodes
to at the place that it names; a slot that holds no stake fires nothing, and a word that is no instruction is refused. -/
def Obligations.StepRunsTheScheduledInstruction : Prop :=
  ∀ (s : State) (rest : List StepItem) (t n : Nat) (w : StakeWord) (ew : StepWord) (i : Instr) (e : DecodeError),
    (s.agenda = .fire t n :: rest → t < 2048 → n < 128 → fetch s t n = some w → decodeStake w = .ok i →
      step s = exec i { s with agenda := rest, cur := ⟨t, n⟩ }) ∧
    (s.agenda = .event t ew :: rest → decode ew = .ok i → step s = exec i { s with agenda := rest, cur := ⟨t, 0⟩ }) ∧
    (s.agenda = .fire t n :: rest → t < 2048 → n < 128 → fetch s t n = none → step s = .next { s with agenda := rest }) ∧
    (s.agenda = .fire t n :: rest → t < 2048 → n < 128 → fetch s t n = some w → decodeStake w = .error e → step s = .refused (.undecodable e)) ∧
    (s.agenda = .event t ew :: rest → decode ew = .error e → step s = .refused (.undecodable e)) ∧
    (s.agenda = .fire t n :: rest → 2048 ≤ t ∨ 128 ≤ n → step s = .fault (.noSuchSlot t n)) ∧
    (s.agenda = .wait n :: rest → ∃ u, step s = .next u ∧ u.clk = s.clk + n ∧ u.agenda = rest ∧ u.mem = s.mem ∧ u.net = s.net) ∧
    (s.agenda = [] → ∃ u, step s = .next u ∧ u.clk = s.clk + 1 ∧ u.agenda = [] ∧ u.mem = s.mem ∧ u.net = s.net)

/-! ## Reset and memory -/

/-- Tables 6.9, 10.4, 11.9, 12.3, 15.2 and 15.3: right after reset every register that they give a value reads that value, and the
memory list has its canonical form. -/
def Obligations.ResetLeavesTheTablesValues : Prop :=
  State.reset.memOk ∧
  (regRead State.reset 0 0x1000).extractLsb' 48 16 = 0x7D40#16 ∧ regRead State.reset 0 0x1018 = 0 ∧ regRead State.reset 0 0x1020 = 0 ∧
  regRead State.reset 0 0x1040 = 0x0000_000A_0000_0A28 ∧ regRead State.reset 0 0x1048 = 0 ∧
  regRead State.reset 0 0x20000 = 0 ∧ regRead State.reset 0 0x20008 = 0x0000_00BF_FFFF_FF00 ∧
  regRead State.reset 0 0x20010 = 0x80FF_F000_0000_000C ∧ regRead State.reset 0 0x20018 = 0xFFFF_FFFF ∧
  (∀ n : Nat, 1 ≤ n → n < 16 → ∀ r : Nat, r < 4 → regRead State.reset 0 (0x20000 + 32 * n + 8 * r) = 0) ∧
  (∀ p : Nat, p < 64 → regRead State.reset 0 (0x32000 + 16 * p) = 0x0000_03E8_8010_0012 ∧ regRead State.reset 0 (0x34000 + 64 * p) = 0 ∧
    regRead State.reset 0 (0x34008 + 64 * p) = 0xFF_FFFF ∧ regRead State.reset 0 (0x34010 + 64 * p) = 0 ∧
    regRead State.reset 0 (0x34018 + 64 * p) = 0 ∧ regRead State.reset 0 (0x36000 + 64 * p) = 0 ∧
    regRead State.reset 0 (0x36008 + 64 * p) = 0 ∧ regRead State.reset 0 (0x36010 + 64 * p) = 1) ∧
  (∀ v : Nat, v < 1024 → regRead State.reset 0 (0x3A000 + 16 * v) = 0 ∧ regRead State.reset 0 (0x3A008 + 16 * v) = 0)

/-- R342: at cold reset every scrub bit is set, so that memory is usable as soon as its stack is ready, reads return zero and a
write zeroes its granule first; a warm reset leaves the bitmap as it stood. A byte that has been written reads back. -/
def Obligations.MemoryReadsZeroThenWhatWasWritten : Prop :=
  (∀ g, State.reset.scrubbed.contains g = false) ∧ (∀ (s : State) (pa : Nat), s.scrubbed = State.reset.scrubbed → hbmGet s pa = 0) ∧
  (∀ (s : State) (pa : Nat) (a : Art), artFor s.pf.arts pa = some a → s.pf.stkFailed.getLsbD (stackOf (a.place pa)) = false →
    hbmUsable s pa = s.pf.stk.getLsbD (stackOf (a.place pa))) ∧
  (∀ s : State, ∃ t, exec .warmReset s = .next t ∧ t.scrubbed = s.scrubbed ∧ t.mem = s.mem) ∧
  ∀ (s : State) (pa da : Nat) (b : Byte), s.memOk → placeOf s pa = .at da → let t := hbmPut s pa b
    t.memOk ∧ hbmGet t pa = b ∧ t.scrubbed.contains (da / 2 ^ 21) = true ∧
    (s.scrubbed.contains (da / 2 ^ 21) = false → ∀ x, x / 2 ^ 21 = da / 2 ^ 21 → x ≠ da → dramGet s x = 0 ∧ dramGet t x = 0) ∧
    (∀ pa', placeOf s pa' ≠ .at da → hbmGet t pa' = hbmGet s pa') ∧
    { t with mem := s.mem, poison := s.poison, scrubbed := s.scrubbed } = s

/-- R294 and log entry 4: whatever a step does, the list of HBM4's bytes keeps its canonical form and the granules that have been
scrubbed stand in rising order. -/
def Obligations.EveryStepKeepsMemoryCanonical : Prop :=
  ∀ s s' : State, s.memOk → Steps s s' → s'.memOk

/-! ## Frames -/

/-- The instructions that emit one result and never trap. -/
def Sys2Proof.Claims.emitting (c : Common) (x : ImmX) (y : BfX) (sty : Ty) (ident : BitVec 4) (ctl : BitVec 8) (tmn : BitVec 4) :
    List Instr × List Instr :=
  ([.const c x, .mov c x, .select c x, .movid c ident, .waveadv c, .add c x, .sub c x, .adds c x, .subs c x, .mul c x, .mulh c x, .mad c x,
    .div c x, .rem c x, .min c x, .max c x, .abs c x, .neg c x, .and c x, .or c x, .xor c x, .andn c x, .shl c x, .shr c x, .sar c x, .rol c x,
    .clz c x, .popc c x, .cmp c x, .lea c x, .sext c sty, .zext c sty, .bfx c y, .bfi c y, .fabs c x, .fneg c x, .fclass c x, .vperm c x,
    .vbcast c x, .vext c x, .vins c x, .vsel c x, .tmget c tmn, .rdctl c ctl, .rdtime c],
   [.fadd c x, .fsub c x, .fmul c x, .ffma c x, .fdiv c x, .fsqrt c x, .fmin c x, .fmax c x, .fcmp c x, .frcp c x, .frsq c x, .fexp2 c x,
    .flog2 c x, .fsin c x, .fcos c x, .ftanh c x, .fcvt c sty, .f2i c sty, .i2f c sty, .frnd c x, .vred c x, .vscan c x, .vpack c sty, .vchain c x])

/-- R31, R57, R72, R100, R113: the frame of the instructions that emit one result, at a stake that, like each of them, is no header
consumer. A firing changes its own stake, the dirty bits of its anchor, the firing slots of its tile, the channels of its result
destinations and its colour's counts of firings; a floating-point one may also set flags in FPCTL. Every byte of memory, every other
stake, channel, colour and register is as before. -/
def Obligations.EmittingInstructionsLeaveTheRestAlone : Prop :=
  ∀ (s : State) (f : Fire) (c : Common) (x : ImmX) (y : BfX) (sty : Ty) (ident : BitVec 4) (ctl : BitVec 8) (tmn : BitVec 4) (i : Instr),
    Fires destsReady s f → headerPorts f.st.opc = [] → (∀ d ∈ resultDests f.st.common, chanExt s (destKey f.colour .stake f.st.lstake d.1 d.2) = false) →
    let is := Sys2Proof.Claims.emitting c x y sty ident ctl tmn
    i ∈ is.1 ∨ i ∈ is.2 → ∃ (t : State) (k : Colour) (fl : Flags), exec i s = .next t ∧
      { t with tiles := s.tiles, cols := s.cols, net := s.net } = s ∧
      (∀ key, (∀ d ∈ resultDests f.st.common, key ≠ destKey f.colour .stake f.st.lstake d.1 d.2) → chanItems t key = chanItems s key) ∧
      (∀ n, n ≠ f.colour.toNat → t.col? n = s.col? n) ∧ t.col? f.colour.toNat = some k ∧
      { k with fired := f.k.fired, fireLog := f.k.fireLog, wdFrom := f.k.wdFrom, wdExt := f.k.wdExt, wdPosted := f.k.wdPosted,
               fpctl := f.k.fpctl } = f.k ∧ k.fpctl = f.k.fpctl ||| fl.setWidth 64 ∧ (i ∈ is.1 → fl = 0) ∧
      (∀ n, { t.tile n with bank0 := (s.tile n).bank0, bank1 := (s.tile n).bank1, dirty := (s.tile n).dirty,
                            slotClk := (s.tile n).slotClk, slotUse := (s.tile n).slotUse } = s.tile n) ∧
      (∀ n, n ≠ f.tile → (t.tile n).slotUse = (s.tile n).slotUse) ∧
      (∀ c' l, c' ≠ f.colour → findStake t c' l = findStake s c' l) ∧
      (∀ l tl sl st tl' sl' st', findStake s f.colour f.st.lstake = some (tl, sl, st) → findStake s f.colour l = some (tl', sl', st') →
        (tl', sl') ≠ (tl, sl) → findStake t f.colour l = findStake s f.colour l)

/-- R133, R147, R150, R164, R471, R472: a store that performs changes the bytes from its address on, as many as its SZ says, and no other
byte: in the line that its cluster owns, which moves to M, or in the scratch of its logical tile. -/
def Obligations.StoresChangeTheirBytesAlone : Prop :=
  ∀ (s : State) (req : W64) (k : Colour) (r : Request) (pa : Nat) (pte : W64) (l : L1Line) (a : Nat), let id := req.toNat
    let n := 2 ^ r.mem.sz.toNat; let step := exec (.accessPerform req) s; let v (i : Nat) : Byte := BitVec.ofNat 8 (r.opb.toNat / 2 ^ (8 * i))
    let off := pa % 2 ^ 19
    s.req? id = some r → s.col? r.colour.toNat = some k → r.opcode = 0x71 → r.phase = .issued → r.done = 0 → r.tags = [] → r.data = 0 →
    n ≤ 64 → accessGate s r = true → pagePa r.pages (n64 r.opa 0).toNat = some (pa, pte) →
    (∀ d ∈ resultDests r.common, chanExt s (destKey r.colour .unit r.lstake d.1 d.2) = false) →
      (isHbm pa = true → hbmUsable s pa = true → effHome pte pa ≠ 3 → l1Find s r.home (pa / 128) = some l → l.st ≠ .s → locked s (pa / 128) = false →
        l.bad = 0 → pa % 128 + n ≤ 128 → (s.clus.map Prod.fst).Pairwise (· < ·) → ∃ t y, step = .next t ∧
          t.mem = s.mem ∧ t.tiles = s.tiles ∧ t.dies = s.dies ∧ t.pf = s.pf ∧ t.vfs = s.vfs ∧
          (∀ b, b / 128 ≠ pa / 128 → cohByte t b = cohByte s b) ∧ l1Find t r.home (pa / 128) = some y ∧ y.st = .m ∧ y.bad = 0 ∧
          ∀ i, i < 128 → lineByte y.data y.bad i = if pa % 128 ≤ i ∧ i < pa % 128 + n then (v (i - pa % 128), false) else lineByte l.data l.bad i) ∧
      (isScratch pa = true → anchorOf k (pa / 2 ^ 19 % 512) = some a → off + n ≤ 2 ^ 19 → ∃ t, step = .next t ∧
          t.mem = s.mem ∧ t.clus = s.clus ∧ t.pf = s.pf ∧ t.vfs = s.vfs ∧ (∀ d, { t.die d with hbmUnc := (s.die d).hbmUnc } = s.die d) ∧
          (∀ u b, u ≠ a ∨ ((b < off ∨ off + n ≤ b) ∧ (s.tile u).bad.contains (b / 32) = false) → scrByte (t.tile u) b = scrByte (s.tile u) b) ∧
          (((s.tile a).scratch.map Prod.fst).Pairwise (· < ·) → ∀ i, i < n → scrGet (t.tile a) (off + i) = v i))

/-! ## Arithmetic on lanes -/

/-- R352, R359, R360, R382, R440, R447, R448, R452, R453: an integer arithmetic firing that may begin emits one token whose
lanes are the exact result narrowed to the lane. -/
def Obligations.IntegerArithmeticLanes : Prop :=
  ∀ (s : State) (f : Fire) (c : Common) (x : ImmX), Fires destsReady s f → c.ty.isInt = true →
    let w := c.ty.width
    let n := laneCount c
    let a (i : Nat) : Nat := f.lane c.ty x.imm c.sa 0 i
    let b (i : Nat) : Nat := f.lane c.ty x.imm c.sb 1 i
    let d (i : Nat) : Nat := f.lane c.ty x.imm c.sc 2 i
    let sa (i : Nat) : Int := laneInt c.ty (a i)
    let sb (i : Nat) : Int := laneInt c.ty (b i)
    let lo : Int := if c.ty.isSigned then -2 ^ (w - 1) else 0
    let hi : Int := if c.ty.isSigned then 2 ^ (w - 1) - 1 else 2 ^ w - 1
    (∃ v, Emits (.add c x) s f v 0 ∧ LanesAre w n v (fun i => (a i + b i) % 2 ^ w)) ∧
    (∃ v, Emits (.sub c x) s f v 0 ∧ LanesAre w n v (fun i => (((a i : Int) - (b i : Int)) % 2 ^ w).toNat)) ∧
    (∃ v, Emits (.mul c x) s f v 0 ∧ LanesAre w n v (fun i => a i * b i % 2 ^ w)) ∧
    (∃ v, Emits (.mad c x) s f v 0 ∧ LanesAre w n v (fun i => (a i * b i + d i) % 2 ^ w)) ∧
    (∃ v, Emits (.neg c x) s f v 0 ∧ LanesAre w n v (fun i => ((-(a i : Int)) % 2 ^ w).toNat)) ∧
    (∃ v, Emits (.abs c x) s f v 0 ∧ LanesAre w n v (fun i => (sa i).natAbs % 2 ^ w)) ∧
    (∃ v, Emits (.mulh c x) s f v 0 ∧ LanesAre w n v (fun i => (sa i * sb i / 2 ^ w % 2 ^ w).toNat)) ∧
    (∃ v r, Emits (.adds c x) s f v 0 ∧ LanesAre w n v r ∧ ∀ i, i < n → laneInt c.ty (r i) = max lo (min hi (sa i + sb i))) ∧
    (∃ v r, Emits (.subs c x) s f v 0 ∧ LanesAre w n v r ∧ ∀ i, i < n → laneInt c.ty (r i) = max lo (min hi (sa i - sb i))) ∧
    (∃ v, Emits (.div c x) s f v 0 ∧ LanesAre w n v (fun i =>
      if b i = 0 then 2 ^ w - 1 else ((sa i).tdiv (sb i) % 2 ^ w).toNat)) ∧
    (∃ v, Emits (.rem c x) s f v 0 ∧ LanesAre w n v (fun i =>
      if b i = 0 then a i else ((sa i - sb i * (sa i).tdiv (sb i)) % 2 ^ w).toNat)) ∧
    (∃ v r, Emits (.min c x) s f v 0 ∧ LanesAre w n v r ∧ ∀ i, i < n → laneInt c.ty (r i) = min (sa i) (sb i)) ∧
    (∃ v r, Emits (.max c x) s f v 0 ∧ LanesAre w n v r ∧ ∀ i, i < n → laneInt c.ty (r i) = max (sa i) (sb i))

/-- R358, R359, R360, R386, R402, each whole: the opcode, the types and the modifiers of ABS, ADD, ADDS, FABS and FNEG, and the value of
every lane of their results; none of the five sets a flag. -/
def Obligations.FiveLaneRulesHoldWhole : Prop :=
  (∀ (c : Common) (x : ImmX), (encode (.abs c x)).extractLsb' 120 8 = 0x2B#8 ∧ (encode (.add c x)).extractLsb' 120 8 = 0x20#8 ∧
    (encode (.adds c x)).extractLsb' 120 8 = 0x22#8 ∧ (encode (.fabs c x)).extractLsb' 120 8 = 0x49#8 ∧
    (encode (.fneg c x)).extractLsb' 120 8 = 0x4A#8 ∧
    ((Instr.abs c x).wf = true → c.ty ∈ [.i8, .i16, .i32, .i64] ∧ (c.md = 0#4 ∨ c.md = 0b1000#4)) ∧
    ((Instr.add c x).wf = true → c.ty.code.toNat ≤ 7) ∧ ((Instr.adds c x).wf = true → c.ty.code.toNat ≤ 7) ∧
    ((Instr.fabs c x).wf = true → c.ty ∈ [.f32, .bf16, .f16, .f64] ∧ c.md.extractLsb' 0 3 = 0) ∧
    ((Instr.fneg c x).wf = true → c.ty ∈ [.f32, .bf16, .f16, .f64] ∧ c.md.extractLsb' 0 3 = 0)) ∧
  ∀ (s : State) (f : Fire) (c : Common) (x : ImmX), Fires destsReady s f →
    let w := c.ty.width
    let n := laneCount c
    let a (i : Nat) : Nat := f.lane c.ty x.imm c.sa 0 i
    let b (i : Nat) : Nat := f.lane c.ty x.imm c.sb 1 i
    let sum (i : Nat) : Int := laneInt c.ty (a i) + laneInt c.ty (b i)
    let lo : Int := if c.ty.isSigned then -2 ^ (w - 1) else 0
    let hi : Int := if c.ty.isSigned then 2 ^ (w - 1) - 1 else 2 ^ w - 1
    let emits (i : Instr) (fmt : BitVec 3) (p : Nat → Nat → Prop) : Prop :=
      ∃ v r, Emits i s f v fmt ∧ LanesAre w n v r ∧ ∀ j, j < n → p j (r j)
    (c.ty.isSigned = true → emits (.abs c x) 0 (fun j r => r = (laneInt c.ty (a j)).natAbs % 2 ^ w ∧ (a j = 2 ^ (w - 1) → r = 2 ^ (w - 1)))) ∧
    (c.ty.isInt = true → emits (.add c x) 0 (fun j r => r = (a j + b j) % 2 ^ w)) ∧
    (c.ty.isInt = true → emits (.adds c x) 0 (fun j r => laneInt c.ty r = if sum j < lo then lo else if hi < sum j then hi else sum j)) ∧
    (c.ty.isFlt = true → emits (.fabs c x) c.ty.fmt (fun j r => ∀ m, m < w → r.testBit m = if m = w - 1 then false else (a j).testBit m)) ∧
    (c.ty.isFlt = true → emits (.fneg c x) c.ty.fmt (fun j r => ∀ m, m < w → r.testBit m = if m = w - 1 then !(a j).testBit m else (a j).testBit m))

/-- R361, R362, R368, R369, R374, R375, R429, R452: the bitwise, shift, count, compare, address and field instructions emit one
token; each lane is told bit by bit, by its value or by its defining inequality. -/
def Obligations.BitwiseAndFieldLanes : Prop :=
  ∀ (s : State) (f : Fire) (c : Common) (x : ImmX) (y : BfX) (sty : Ty), Fires destsReady s f → c.ty.isInt = true →
    let w := c.ty.width
    let n := laneCount c
    let a (i : Nat) : Nat := f.lane c.ty x.imm c.sa 0 i
    let b (i : Nat) : Nat := f.lane c.ty x.imm c.sb 1 i
    let a0 (i : Nat) : Nat := f.lane c.ty 0 c.sa 0 i
    let b0 (i : Nat) : Nat := f.lane c.ty 0 c.sb 1 i
    let k (i : Nat) : Nat := b i % w
    let p := y.pos.toNat
    let l := y.len.toNat
    (∃ v r, Emits (.and c x) s f v 0 ∧ LanesAre w n v r ∧ ∀ i j, i < n → (r i).testBit j = ((a i).testBit j && (b i).testBit j)) ∧
    (∃ v r, Emits (.or c x) s f v 0 ∧ LanesAre w n v r ∧ ∀ i j, i < n → (r i).testBit j = ((a i).testBit j || (b i).testBit j)) ∧
    (∃ v r, Emits (.xor c x) s f v 0 ∧ LanesAre w n v r ∧ ∀ i j, i < n → (r i).testBit j = ((a i).testBit j ^^ (b i).testBit j)) ∧
    (∃ v r, Emits (.andn c x) s f v 0 ∧ LanesAre w n v r ∧ ∀ i j, i < n → j < w →
      (r i).testBit j = ((a i).testBit j && !(b i).testBit j)) ∧
    (∃ v r, Emits (.shl c x) s f v 0 ∧ LanesAre w n v r ∧ ∀ i j, i < n → j < w →
      (r i).testBit j = (decide (k i ≤ j) && (a i).testBit (j - k i))) ∧
    (∃ v r, Emits (.shr c x) s f v 0 ∧ LanesAre w n v r ∧ ∀ i j, i < n → j < w → (r i).testBit j = (a i).testBit (j + k i)) ∧
    (∃ v r, Emits (.sar c x) s f v 0 ∧ LanesAre w n v r ∧ ∀ i j, i < n → j < w →
      (r i).testBit j = if j + k i < w then (a i).testBit (j + k i) else (a i).testBit (w - 1)) ∧
    (∃ v r, Emits (.rol c x) s f v 0 ∧ LanesAre w n v r ∧ ∀ i j, i < n → j < w →
      (r i).testBit j = (a i).testBit ((j + w - k i) % w)) ∧
    (∃ v r, Emits (.clz c x) s f v 0 ∧ LanesAre w n v r ∧ ∀ i, i < n →
      (a i = 0 → r i = w) ∧ (a i ≠ 0 → 2 ^ (w - 1 - r i) ≤ a i ∧ a i < 2 ^ (w - r i))) ∧
    (∃ v, Emits (.popc c x) s f v 0 ∧ LanesAre w n v (fun i => ((List.range w).filter (fun j => (a i).testBit j)).length)) ∧
    (∃ v, Emits (.cmp c x) s f v 0 ∧ LanesAre w n v (fun i => if (match x.sub.toNat with
        | 0 => decide (laneInt c.ty (a i) = laneInt c.ty (b i))
        | 1 => decide (laneInt c.ty (a i) ≠ laneInt c.ty (b i))
        | 2 => decide (laneInt c.ty (a i) < laneInt c.ty (b i))
        | 3 => decide (laneInt c.ty (a i) ≤ laneInt c.ty (b i))
        | 4 => decide (laneInt c.ty (a i) > laneInt c.ty (b i))
        | 5 => decide (laneInt c.ty (a i) ≥ laneInt c.ty (b i))
        | _ => false) = true then 2 ^ w - 1 else 0)) ∧
    (w = 64 → ∃ v, Emits (.lea c x) s f v 0 ∧ LanesAre w n v (fun i => (a i + b i * 2 ^ x.sub.toNat) % 2 ^ 64)) ∧
    (1 ≤ l → p + l ≤ w → (∃ v r, Emits (.bfx c y) s f v 0 ∧ LanesAre w n v r ∧ ∀ i j, i < n → j < w →
      (r i).testBit j = if j < l then (a0 i).testBit (p + j) else c.ty.isSigned && (a0 i).testBit (p + l - 1))) ∧
    (1 ≤ l → p + l ≤ w → (∃ v r, Emits (.bfi c y) s f v 0 ∧ LanesAre w n v r ∧ ∀ i j, i < n → j < w →
      (r i).testBit j = if p ≤ j ∧ j < p + l then (b0 i).testBit (j - p) else (a0 i).testBit j)) ∧
    (sty.isInt = true → sty.width < w → (∃ v r, Emits (.sext c sty) s f v 0 ∧ LanesAre w (laneCount2 c sty) v r ∧
      ∀ i, i < laneCount2 c sty → toSigned w (r i) = toSigned sty.width (f.lane sty 0 c.sa 0 i))) ∧
    (sty.isInt = true → sty.width < w → (∃ v, Emits (.zext c sty) s f v 0 ∧
      LanesAre w (laneCount2 c sty) v (fun i => f.lane sty 0 c.sa 0 i)))

/-! ## Floating point -/

/-- R354, R355 and Table 16.1: FADD, FSUB, FMUL, FFMA, FDIV and FSQRT complete, and on finite operands each lane is the exact
rational result (for a root that is not rational, a value within 2^−2000 of it), rounded once. -/
def Obligations.FloatArithmeticRoundsOnce : Prop :=
  ∀ (s : State) (f : Fire) (c : Common) (x : ImmX), Fires destsReady s f → c.ty.isFlt = true →
    let n := laneCount c
    let env := f.env c.rnd false
    let a (i : Nat) : FVal := decodeIn env c.ty (f.lane c.ty x.imm c.sa 0 i)
    let b (i : Nat) : FVal := decodeIn env c.ty (f.lane c.ty x.imm c.sb 1 i)
    let d (i : Nat) : FVal := decodeIn env c.ty (f.lane c.ty x.imm c.sc 2 i)
    (∃ g, EmitsFloat (.fadd c x) s f c.ty n c.ty.fmt g ∧ ∀ i, i < n → (a i).isNum → (b i).isNum →
      ∃ v, v.isNum ∧ v.q = (a i).q + (b i).q ∧ g i = roundTo env c.ty false v) ∧
    (∃ g, EmitsFloat (.fsub c x) s f c.ty n c.ty.fmt g ∧ ∀ i, i < n → (a i).isNum → (b i).isNum →
      ∃ v, v.isNum ∧ v.q = (a i).q - (b i).q ∧ g i = roundTo env c.ty false v) ∧
    (∃ g, EmitsFloat (.fmul c x) s f c.ty n c.ty.fmt g ∧ ∀ i, i < n → (a i).isNum → (b i).isNum →
      ∃ v, v.isNum ∧ v.q = (a i).q * (b i).q ∧ v.isNeg = ((a i).isNeg != (b i).isNeg) ∧ g i = roundTo env c.ty false v) ∧
    (∃ g, EmitsFloat (.ffma c x) s f c.ty n c.ty.fmt g ∧ ∀ i, i < n → (a i).isNum → (b i).isNum → (d i).isNum →
      ∃ v, v.isNum ∧ v.q = (a i).q * (b i).q + (d i).q ∧ g i = roundTo env c.ty false v) ∧
    (∃ g, EmitsFloat (.fdiv c x) s f c.ty n c.ty.fmt g ∧ ∀ i, i < n → (a i).isNum → (b i).isNum →
      ((b i).q ≠ 0 → ∃ v, v.isNum ∧ v.q = (a i).q / (b i).q ∧ v.isNeg = ((a i).isNeg != (b i).isNeg) ∧
        g i = roundTo env c.ty false v) ∧
      ((b i).q = 0 → (a i).q ≠ 0 → g i = (signOf c.ty ((a i).isNeg != (b i).isNeg) + infCode c.ty, flagDZ)) ∧
      ((b i).q = 0 → (a i).q = 0 → g i = (nanCode c.ty, flagNV))) ∧
    (∃ g, EmitsFloat (.fsqrt c x) s f c.ty n c.ty.fmt g ∧ ∀ i, i < n → (a i).isNum →
      ((a i).q < 0 → g i = (nanCode c.ty, flagNV)) ∧
      ((a i).q = 0 → g i = (signOf c.ty (a i).isNeg, 0)) ∧
      (0 < (a i).q → ∃ v, v.isNum ∧ 0 < v.q ∧ g i = roundTo env c.ty false v ∧
        (v.q * v.q = (a i).q ∨ ∃ r : Rat, 0 ≤ r ∧ r < v.q ∧ v.q < r + 1 / 2 ^ 2000 ∧ r * r ≤ (a i).q ∧
          (a i).q ≤ (r + 1 / 2 ^ 2000) * (r + 1 / 2 ^ 2000))))

/-- R101: a NaN operand of FADD, FSUB, FMUL or FDIV gives the first NaN operand with its top fraction bit set, or the canonical
NaN under DN, and NV is set when an operand is signalling. -/
def Obligations.FloatNaNOperandsGiveAQuietNaN : Prop :=
  ∀ (s : State) (f : Fire) (c : Common) (x : ImmX), Fires destsReady s f → c.ty.isFlt = true →
    let n := laneCount c
    let env := f.env c.rnd false
    let a (i : Nat) : FVal := decodeIn env c.ty (f.lane c.ty x.imm c.sa 0 i)
    let b (i : Nat) : FVal := decodeIn env c.ty (f.lane c.ty x.imm c.sb 1 i)
    let nan (i : Nat) : Nat × Flags :=
      ((roundTo env c.ty false (if env.dn then FVal.canon else if (a i).isNan then (a i).quiet else (b i).quiet)).1,
        if (a i).isSnan || (b i).isSnan then flagNV else 0)
    ∃ g1 g2 g3 g4, EmitsFloat (.fadd c x) s f c.ty n c.ty.fmt g1 ∧ EmitsFloat (.fsub c x) s f c.ty n c.ty.fmt g2 ∧
      EmitsFloat (.fmul c x) s f c.ty n c.ty.fmt g3 ∧ EmitsFloat (.fdiv c x) s f c.ty n c.ty.fmt g4 ∧
      ∀ i, i < n → ((a i).isNan || (b i).isNan) = true → g1 i = nan i ∧ g2 i = nan i ∧ g3 i = nan i ∧ g4 i = nan i

/-- R386, R389, R390, R398, R402: the instructions that do not round. FMIN and FMAX deliver one of two finite operands, FCMP all
ones or zero, FABS and FNEG change the sign bit alone, and FCLASS tells the class. -/
def Obligations.FloatComparisonsAndSigns : Prop :=
  ∀ (s : State) (f : Fire) (c : Common) (x : ImmX), Fires destsReady s f → c.ty.isFlt = true →
    let w := c.ty.width
    let n := laneCount c
    let env := f.env c.rnd false
    let la (i : Nat) : Nat := f.lane c.ty x.imm c.sa 0 i
    let a (i : Nat) : FVal := decodeIn env c.ty (la i)
    let b (i : Nat) : FVal := decodeIn env c.ty (f.lane c.ty x.imm c.sb 1 i)
    (∃ g, EmitsFloat (.fmin c x) s f c.ty n c.ty.fmt g ∧ ∀ i, i < n →
      (((a i).isSnan || (b i).isSnan) = true → g i = (nanCode c.ty, flagNV)) ∧
      ((a i).isNum → (b i).isNum → ∃ v, (v = a i ∨ v = b i) ∧ v.q = min (a i).q (b i).q ∧ g i = (codeOf c.ty v, 0))) ∧
    (∃ g, EmitsFloat (.fmax c x) s f c.ty n c.ty.fmt g ∧ ∀ i, i < n →
      (((a i).isSnan || (b i).isSnan) = true → g i = (nanCode c.ty, flagNV)) ∧
      ((a i).isNum → (b i).isNum → ∃ v, (v = a i ∨ v = b i) ∧ v.q = max (a i).q (b i).q ∧ g i = (codeOf c.ty v, 0))) ∧
    (∃ g, EmitsFloat (.fcmp c x) s f c.ty n 0 g ∧ ∀ i, i < n →
      (((a i).isNan || (b i).isNan) = true →
        g i = (if x.sub.toNat = 1 ∨ 6 ≤ x.sub.toNat then 2 ^ w - 1 else 0,
          if 2 ≤ x.sub.toNat ∧ x.sub.toNat ≤ 5 ∨ ((a i).isSnan || (b i).isSnan) = true then flagNV else 0)) ∧
      ((a i).isNum → (b i).isNum → g i = (if (match x.sub.toNat with
        | 0 => decide ((a i).q = (b i).q)
        | 1 => decide ((a i).q ≠ (b i).q)
        | 2 => decide ((a i).q < (b i).q)
        | 3 => decide ((a i).q ≤ (b i).q)
        | 4 => decide ((a i).q > (b i).q)
        | 5 => decide ((a i).q ≥ (b i).q)
        | _ => false) = true then 2 ^ w - 1 else 0, 0))) ∧
    (∃ v r, Emits (.fabs c x) s f v c.ty.fmt ∧ LanesAre w n v r ∧ ∀ i j, i < n →
      (r i).testBit j = (decide (j < w - 1) && (la i).testBit j)) ∧
    (∃ v r, Emits (.fneg c x) s f v c.ty.fmt ∧ LanesAre w n v r ∧ ∀ i j, i < n → j < w →
      (r i).testBit j = ((la i).testBit j != decide (j = w - 1))) ∧
    (∃ v r, Emits (.fclass c x) s f v 0 ∧ LanesAre w n v r ∧ ∀ i, i < n →
      (r i).testBit 0 = (la i).testBit (w - 1) ∧
      (r i).testBit 1 = (decodeF c.ty (la i)).isZero ∧
      (r i).testBit 2 = isSubnormal c.ty (la i) ∧
      (r i).testBit 3 = ((decodeF c.ty (la i)).isNum && !(decodeF c.ty (la i)).isZero && !isSubnormal c.ty (la i)) ∧
      (r i).testBit 4 = (decodeF c.ty (la i)).isInf ∧
      (r i).testBit 5 = (decodeF c.ty (la i)).isNan ∧
      (r i).testBit 6 = (decodeF c.ty (la i)).isSnan)

/-- R356, R357 and Table 16.3: the approximate functions complete on every operand, and give the stated results for zeros,
infinities and negative operands. -/
def Obligations.ApproximateFunctionsAtTheirSpecialOperands : Prop :=
  ∀ (s : State) (f : Fire) (c : Common) (x : ImmX), Fires destsReady s f → c.ty.isFlt3 = true →
    let n := laneCount c
    let env := f.env c.rnd false
    let t := c.ty
    let a (i : Nat) : FVal := decodeIn env c.ty (f.lane c.ty x.imm c.sa 0 i)
    let one : Nat := bias t * 2 ^ fracBits t
    (∃ g, EmitsFloat (.frcp c x) s f t n t.fmt g ∧ ∀ i, i < n →
      ((a i).isZero → g i = (signOf t (a i).isNeg + infCode t, flagDZ)) ∧ ((a i).isInf → g i = (signOf t (a i).isNeg, 0))) ∧
    (∃ g, EmitsFloat (.frsq c x) s f t n t.fmt g ∧ ∀ i, i < n →
      ((a i).isZero → g i = (signOf t (a i).isNeg + infCode t, flagDZ)) ∧ ((a i).q < 0 → g i = (nanCode t, flagNV)) ∧
      ((a i).isInf → g i = if (a i).isNeg then (nanCode t, flagNV) else (0, 0))) ∧
    (∃ g, EmitsFloat (.fexp2 c x) s f t n t.fmt g ∧ ∀ i, i < n →
      ((a i).isZero → g i = (one, 0)) ∧ ((a i).isInf → g i = if (a i).isNeg then (0, 0) else (infCode t, 0))) ∧
    (∃ g, EmitsFloat (.flog2 c x) s f t n t.fmt g ∧ ∀ i, i < n →
      ((a i).isZero → g i = (signBit t + infCode t, flagDZ)) ∧ ((a i).q < 0 → g i = (nanCode t, flagNV)) ∧
      ((a i).isInf → g i = if (a i).isNeg then (nanCode t, flagNV) else (infCode t, 0))) ∧
    (∃ g, EmitsFloat (.fsin c x) s f t n t.fmt g ∧ ∀ i, i < n →
      ((a i).isZero → g i = (signOf t (a i).isNeg, 0)) ∧ ((a i).isInf → g i = (nanCode t, flagNV))) ∧
    (∃ g, EmitsFloat (.fcos c x) s f t n t.fmt g ∧ ∀ i, i < n →
      ((a i).isZero → g i = (one, 0)) ∧ ((a i).isInf → g i = (nanCode t, flagNV))) ∧
    (∃ g, EmitsFloat (.ftanh c x) s f t n t.fmt g ∧ ∀ i, i < n →
      ((a i).isZero → g i = (signOf t (a i).isNeg, 0)) ∧ ((a i).isInf → g i = (signOf t (a i).isNeg + one, 0)))

/-- R107, R108, R385, R392, R407, R416: the conversions complete; a finite operand is converted exactly and rounded once, and an
integer result is rounded by the mode and saturated. -/
def Obligations.ConversionsRoundOrSaturate : Prop :=
  ∀ (s : State) (f : Fire) (c : Common) (sty : Ty) (x : ImmX), Fires destsReady s f →
    let w := c.ty.width
    let n := laneCount2 c sty
    let la (i : Nat) : Nat := f.lane sty 0 c.sa 0 i
    let lo : Int := if c.ty.isSigned then -2 ^ (w - 1) else 0
    let hi : Int := if c.ty.isSigned then 2 ^ (w - 1) - 1 else 2 ^ w - 1
    (c.ty.isFloat = true → sty.isFloat = true →
      let env := f.env c.rnd (narrowsFloat c.ty sty)
      ∃ g, EmitsFloat (.fcvt c sty) s f c.ty n c.ty.fmt g ∧ ∀ i, i < n → (decodeIn env sty (la i)).isNum →
        g i = roundTo env c.ty false (decodeIn env sty (la i)) (plaitLane f i)) ∧
    (c.ty.isInt = true → sty.isFlt = true →
      let env := f.env c.rnd false
      ∃ g, EmitsFloat (.f2i c sty) s f c.ty n 0 g ∧ ∀ i, i < n →
        ((decodeIn env sty (la i)).isNan → g i = (0, flagNV)) ∧
        ((decodeIn env sty (la i)).isNum → ∃ z : Int, RoundsTo env.rm (decodeIn env sty (la i)).q z ∧
          laneInt c.ty (g i).1 = max lo (min hi z) ∧
          (g i).2 = if z < lo ∨ hi < z then flagNV else if (z : Rat) = (decodeIn env sty (la i)).q then 0 else flagNX)) ∧
    (c.ty.isFlt = true → sty.isInt = true →
      ∃ g, EmitsFloat (.i2f c sty) s f c.ty n c.ty.fmt g ∧ ∀ i, i < n →
        ∃ v, v.isNum ∧ v.q = (laneInt sty (la i) : Rat) ∧
          g i = roundTo (f.env c.rnd (narrowsInt c.ty sty)) c.ty false v (plaitLane f i)) ∧
    (c.ty.isFlt = true →
      let env := f.env c.rnd false
      let a (i : Nat) : FVal := decodeIn env c.ty (f.lane c.ty x.imm c.sa 0 i)
      ∃ g, EmitsFloat (.frnd c x) s f c.ty (laneCount c) c.ty.fmt g ∧ ∀ i, i < laneCount c → (a i).isNum →
        ∃ (z : Int) (v : FVal), RoundsTo env.rm (a i).q z ∧ v.isNum ∧ v.q = (z : Rat) ∧ v.isNeg = (a i).isNeg ∧
          (g i).1 = (roundTo env c.ty false v).1)

/-! ## Routing, tags and identifiers -/

/-- R376, R444, R469, R470, R474: CONST and MOV emit their operand whole, SELECT one of two by its condition, STEER its data on
one side of its destinations, and SINK nothing. An immediate stands in lane 0; a token keeps its FMT. -/
def Sys2Proof.Claims.RoutingInstructionsMoveWholeOperands : Prop :=
  ∀ (s : State) (f : Fire) (c : Common) (x : ImmX), Fires destsReady s f →
    let whole (sel : Sel) (pos : Nat) : W512 :=
      if sel = .imm then BitVec.ofNat 512 (immLane c.ty x.imm % 2 ^ c.ty.width) else f.src sel pos
    let tag (sel : Sel) (pos : Nat) : BitVec 3 := match sel, f.ops.get pos with
      | .port, some t => t.fmt
      | .port, none => 0
      | _, _ => c.ty.fmt
    let cond (sel : Sel) (pos : Nat) : Nat := (whole sel pos).toNat % 2 ^ (if c.ty = .x then 64 else c.ty.width)
    Emits (.const c x) s f (whole c.sa 0) (tag c.sa 0) ∧
    Emits (.mov c x) s f (whole c.sa 0) (tag c.sa 0) ∧
    (cond c.sc 2 ≠ 0 → Emits (.select c x) s f (whole c.sa 0) (tag c.sa 0)) ∧
    (cond c.sc 2 = 0 → Emits (.select c x) s f (whole c.sb 1) (tag c.sb 1)) ∧
    (exec (.steer c x) s = .next (f.done (((allDests f.st.common).filter (fun d => d.2.q == (cond c.sb 1 == 0))).foldl
      (fun t d => stakeEmit t f d (f.token (whole c.sa 0) (tag c.sa 0))) (f.begun s)))) ∧
    (exec (.sink c) s = .next (f.done (f.begun s)))

/-- R41, R124, R445, R464, R505: MOVID emits an identifier of Table 2.2; WAVEADV emits its input under the next wave, modulo
2^24; RETAG emits it under the wave, the frame or both that its operand gives, and traps with ILLOP where the operand has a
stray bit or names a frame that is not live. -/
def Obligations.TagInstructionsRelabelTheirInput : Prop :=
  ∀ (s : State) (f : Fire) (c : Common) (ident : BitVec 4) (rsel : BitVec 2), Fires destsReady s f →
    let v := (n64 (f.src c.sb 1) 0).toNat
    let relabel (i : Instr) (frame : BitVec 12) (wave : BitVec 24) : Prop :=
      exec i s = .next (f.done (emitResult (f.begun s) f
        (mkToken f.first.data f.first.fmt f.colour frame wave f.tile)))
    Emits (.movid c ident) s f (BitVec.ofNat 512 ((match ident.toNat with
      | 0 => f.colour.toNat
      | 1 => f.frame.toNat
      | 2 => f.wave.toNat
      | 3 => f.st.lstake.toNat / 128
      | 4 => f.st.lstake.toNat
      | 5 => f.k.part
      | 6 => f.k.vf
      | 7 => f.tile / 512
      | _ => f.tile / 32) % 2 ^ 32)) 0 ∧
    relabel (.waveadv c) f.frame (f.wave + 1) ∧
    (rsel = 0 → v < 2 ^ 24 → relabel (.retag c rsel) f.frame (BitVec.ofNat 24 v)) ∧
    (rsel = 1 → v < 2 ^ 12 → f.k.isLive (BitVec.ofNat 12 v) = true → relabel (.retag c rsel) (BitVec.ofNat 12 v) f.wave) ∧
    (rsel = 2 → v < 2 ^ 36 → f.k.isLive (BitVec.ofNat 12 (v / 2 ^ 24)) = true →
      relabel (.retag c rsel) (BitVec.ofNat 12 (v / 2 ^ 24)) (BitVec.ofNat 24 v)) ∧
    (rsel = 0 → 2 ^ 24 ≤ v → Traps (.retag c rsel) s f cILLOP) ∧
    (rsel = 1 → (2 ^ 12 ≤ v ∨ f.k.isLive (BitVec.ofNat 12 v) = false) → Traps (.retag c rsel) s f cILLOP)

/-- R438, R439, R419, R420: MERGE emits the token of its only filled port unchanged, and of two filled ports takes a and b in
turn; KGATE emits the oldest frame's token while fewer than its bound are admitted and counts it; KDONE emits its input and
sends one decrement to its gate. -/
def Sys2Proof.Claims.MergeAndAdmissionForwardTheirInput : Prop :=
  ∀ (s : State) (col : BitVec 12) (k : Colour) (st : StakeSt) (c : Common), cursorStake s = some (col, k, st) →
    let emits (i : Instr) (g : Fire) (st' : StakeSt) : Prop :=
      destsReady s g = true → hasTurn s g = true →
        exec i s = .next (g.done (emitResult (g.begunWith st' s) g (g.token g.first.data g.first.fmt)))
    (∀ a b : OpSet, a.toks.all Token.ok = true → b.toks.all Token.ok = true →
      (mergeHead k st s.cur.place 0 = some a → mergeHead k st s.cur.place 1 = some b →
        if st.mergeB then emits (.merge c) (fireOf s col k st b) (mergeTake st 1 b false)
        else emits (.merge c) (fireOf s col k st a) (mergeTake st 0 a true)) ∧
      (mergeHead k st s.cur.place 0 = some a → mergeHead k st s.cur.place 1 = none →
        emits (.merge c) (fireOf s col k st a) (mergeTake st 0 a false)) ∧
      (mergeHead k st s.cur.place 0 = none → mergeHead k st s.cur.place 1 = some b →
        emits (.merge c) (fireOf s col k st b) (mergeTake st 1 b false))) ∧
    (∀ (i : PItem) (o : OpSet) (bound : BitVec 12), kgateSet k st s.cur.place = some (i, o) → o.toks.all Token.ok = true →
      let g := fireOf s col k st o
      (st.kn < bound.toNat → destsReady s g = true → hasTurn s g = true →
        exec (.kgate c bound) s = .next (g.done (emitResult
          (updStake (g.begunWith (kgateTake st i) s) col st.lstake (fun y => { y with kn := y.kn + 1 })) g
          (g.token g.first.data g.first.fmt)))) ∧
      (bound.toNat ≤ st.kn → exec (.kgate c bound) s = .next s)) ∧
    (∀ (f : Fire) (gate : BitVec 16), Fires destsReady s f →
      ∃ u, u = emitResult (f.begun s) f (f.token f.first.data f.first.fmt) ∧
        exec (.kdone c gate) s = .next (f.done { u with
          kdecs := u.kdecs ++ [{ gate := gate, lstake := f.st.lstake, tok := f.first }] }))

/-- Routing, merging and admission move whole operands. -/
def Obligations.OperandsAreRoutedWhole : Prop :=
  Sys2Proof.Claims.RoutingInstructionsMoveWholeOperands ∧ Sys2Proof.Claims.MergeAndAdmissionForwardTheirInput

/-! ## Frames, barriers and tasks -/

/-- R33 to R36, R44, R54, R403, R404, R478: FRAMENEW makes the lowest free FRAME live as a child of the firing's frame, joins it
to the barriers of its mask and emits its input under it in wave 0; FRAMEEND ends a frame that is no root and TASKEND a root
frame, and each traps with ILLOP on the other kind. -/
def Obligations.FramesBeginAndEnd : Prop :=
  ∀ (s : State) (f : Fire) (c : Common) (join : BitVec 16) (p : Frame), frame? s f.colour f.frame = some p →
    s.col? f.colour.toNat = some f.k →
    (Fires framenewReady s f → ∃ (n : BitVec 12) (u : State) (x : Frame),
      mapGet? f.k.frames n.toNat = none ∧ (∀ m, m < n.toNat → (mapGet? f.k.frames m).isSome = true) ∧
      exec (.framenew c join) s = .next (f.done (emitResult u f
        (mkToken f.first.data f.first.fmt f.colour n 0 f.tile))) ∧
      frame? u f.colour n = some x ∧ x.num = n ∧ x.phase = .live ∧ x.parent = f.frame ∧ x.mask = join ∧ x.arrived = 0 ∧
      x.home = f.tile / 32 ∧ x.seq = f.k.nextSeq ∧ x.root = false ∧ x.cw = 0 ∧ x.last = none ∧ x.nxt = none ∧
      ∀ b, b < 16 → (barOf u f.colour b).expect = (barOf s f.colour b).expect + (if join.getLsbD b then 1 else 0)) ∧
    (Fires endReady s f →
      (p.root = true → Traps (.frameend c) s f cILLOP) ∧
      (p.root = false → Traps (.taskend c) s f cILLOP) ∧
      (p.root = false → ∃ u x, exec (.frameend c) s = .next (f.done u) ∧ frame? u f.colour f.frame = some x ∧
        x.ended = true ∧ x.tend = false ∧ (p.phase = .live → x.phase = .ending) ∧ u.mem = s.mem ∧ u.net = s.net) ∧
      (p.root = true → ∃ u x, exec (.taskend c) s = .next (f.done u) ∧ frame? u f.colour f.frame = some x ∧
        x.ended = true ∧ x.tend = true ∧ (p.phase = .live → x.phase = .ending) ∧ u.mem = s.mem ∧ u.net = s.net))

/-- R44 to R48, R364, R367: BAR joins its frame to the barrier where it is no member, counts its arrival and completes the
generation when the last expected frame arrives; a frame that arrives twice in a generation traps with ILLOP. BARLEAVE emits
its input and takes its frame out, and traps with ILLOP where the frame is no member. -/
def Sys2Proof.Claims.BarriersCountArrivals : Prop :=
  ∀ (s : State) (f : Fire) (c : Common) (barn : BitVec 4) (x : Frame), frame? s f.colour f.frame = some x →
    s.net.all (fun x => !x.ext) = true →
    let n := barn.toNat
    let b := barOf s f.colour n
    let member := x.mask.getLsbD n
    let expect := if member then b.expect else b.expect + 1
    (Fires (barGate n) s f →
      (member = true → x.arrived.getLsbD n = true → Traps (.bar c barn) s f cILLOP) ∧
      ((member && x.arrived.getLsbD n) = false → ∃ u y, exec (.bar c barn) s = .next (f.done u) ∧
        frame? u f.colour f.frame = some y ∧ y.mask = x.mask ||| 1#16 <<< n ∧ (barOf u f.colour n).expect = expect ∧
        (b.arrived + 1 = expect → expect ≠ 0 → (barOf u f.colour n).gen = b.gen + 1 ∧ (barOf u f.colour n).arrived = 0 ∧
          (barOf u f.colour n).waiters = [] ∧ y.arrived.getLsbD n = false) ∧
        (b.arrived + 1 ≠ expect → (barOf u f.colour n).gen = b.gen ∧ (barOf u f.colour n).arrived = b.arrived + 1 ∧
          (barOf u f.colour n).waiters = b.waiters ++ [{ lstake := f.st.lstake, frame := f.frame, wave := f.wave }] ∧
          y.arrived = x.arrived ||| 1#16 <<< n ∧ u.net = s.net))) ∧
    (Fires destsReady s f →
      (member = false → Traps (.barleave c barn) s f cILLOP) ∧
      (member = true → ∃ u y, exec (.barleave c barn) s = .next (f.done u) ∧
        frame? u f.colour f.frame = some y ∧ y.mask = x.mask &&& ~~~(1#16 <<< n) ∧ y.arrived.getLsbD n = false ∧
        (barOf u f.colour n).expect = b.expect - 1 ∧
        let arrived := if x.arrived.getLsbD n then b.arrived - 1 else b.arrived
        (arrived = b.expect - 1 → arrived ≠ 0 → (barOf u f.colour n).gen = b.gen + 1 ∧ (barOf u f.colour n).arrived = 0) ∧
        (arrived ≠ b.expect - 1 → (barOf u f.colour n).gen = b.gen ∧ (barOf u f.colour n).arrived = arrived ∧
          (barOf u f.colour n).waiters = b.waiters.filter (fun w => w.frame != f.frame))))

/-- R46: a generation that completes leaves GEN one higher, ARRIVED 0, EXPECT as it was and no waiter, and no frame of the
colour is marked as arrived. -/
def Sys2Proof.Claims.BarrierCompletionStartsTheNextGeneration : Prop :=
  ∀ (s : State) (c : BitVec 12) (n : Nat) (broken : Bool) (k : Colour), s.col? c.toNat = some k → s.net.all (fun x => !x.ext) = true →
    let b := barOf s c n
    let r := barOf (barComplete s c n broken) c n
    r.gen = b.gen + 1 ∧ r.arrived = 0 ∧ r.expect = b.expect ∧ r.waiters = [] ∧ r.broken = (b.broken || broken)

/-- Barriers count arrivals, and a completed generation starts the next. -/
def Obligations.BarriersCountArrivalsAndComplete : Prop :=
  Sys2Proof.Claims.BarriersCountArrivals ∧ Sys2Proof.Claims.BarrierCompletionStartsTheNextGeneration

/-- R450, R457, R458, R467, R479, R481: the control requests. Each firing sends one request that carries its stake word, its
tag and its operand; TASKPUSH also carries its colour number, and traps with ILLOP where that has more than 12 bits. -/
def Obligations.ControlInstructionsSendTheirRequest : Prop :=
  ∀ (s : State) (f : Fire) (c : Common) (x : ImmX) (qsel : BitVec 4), Fires reqRoom s f →
    let tgt := (f.ctlOp c.ty x.imm c.sb 1).toNat % 2 ^ 32
    let carries (r : Request) : Prop := r.ctl = true ∧ r.word = f.st.word ∧ r.lstake = f.st.lstake ∧ r.colour = f.colour ∧
      r.frame = f.frame ∧ r.wave = f.wave ∧ r.opa = f.src c.sa 0 ∧ r.fa = f.first.fmt ∧ r.home = f.home ∧ r.phase = .chan ∧
      r.cause = 0 ∧ r.done = 0
    (∃ r, Sends (.taskjoin c) s f r ∧ carries r) ∧
    (∃ r, Sends (.qpop c qsel) s f r ∧ carries r) ∧
    (∃ r, Sends (.qpush c qsel) s f r ∧ carries r) ∧
    (∃ r, Sends (.rplay c) s f r ∧ carries r) ∧
    (tgt < 2 ^ 12 → ∃ r, Sends (.taskpush c x) s f r ∧ carries r ∧ r.opb = BitVec.ofNat 512 tgt) ∧
    (2 ^ 12 ≤ tgt → Traps (.taskpush c x) s f cILLOP)

/-! ## Vectors -/

/-- R309, R491, R495, R497, R499, R503: VBCAST, VEXT, VINS, VPERM and VSEL copy lanes: which lane of which operand each lane of
the result is. -/
def Sys2Proof.Claims.VectorMovesCopyLanes : Prop :=
  ∀ (s : State) (f : Fire) (c : Common) (x : ImmX), Fires destsReady s f → c.ty ≠ .x →
    let w := c.ty.width
    let n := laneCount c
    let m := c.ty.lanes
    let a (i : Nat) : Nat := f.lane c.ty x.imm c.sa 0 i
    let b (i : Nat) : Nat := f.lane c.ty x.imm c.sb 1 i
    let d (i : Nat) : Nat := f.lane c.ty x.imm c.sc 2 i
    let va : W512 := f.vecOp c x.imm c.sa 0
    let vb : W512 := f.vecOp c x.imm c.sb 1
    let vd : W512 := f.vecOp c x.imm c.sc 2
    (∃ v, Emits (.vbcast c x) s f v c.ty.fmt ∧ LanesAre w n v (fun _ => a 0 % 2 ^ w)) ∧
    (∃ v, Emits (.vext c x) s f v c.ty.fmt ∧ LanesAre w 1 v (fun _ => lane va w (lane vb 32 0 % m))) ∧
    (∃ v, Emits (.vins c x) s f v c.ty.fmt ∧
      LanesAre w n v (fun i => if i = lane vd 32 0 % m then lane vb w 0 else lane va w i)) ∧
    (∃ v, Emits (.vperm c x) s f v c.ty.fmt ∧ LanesAre w n v (fun i => a (b i % m) % 2 ^ w)) ∧
    (∃ v, Emits (.vsel c x) s f v c.ty.fmt ∧ LanesAre w n v (fun i => (if d i = 0 then a i else b i) % 2 ^ w))

/-- R492, R493, R502: VRED, VSCAN and VCHAIN complete; an integer ADD is the sum modulo 2^w, an integer MIN one of the values
and no greater than any, and a floating ADD of finite values the exact sum rounded once. VCHAIN also writes its last lane to
lane 0 of L0. -/
def Sys2Proof.Claims.VectorCombinationsAreExact : Prop :=
  ∀ (s : State) (f : Fire) (c : Common) (x : ImmX), Fires destsReady s f → c.ty ≠ .x →
    let w := c.ty.width
    let n := laneCount c
    let op := x.sub.toNat
    let env := f.env c.rnd false
    let a (i : Nat) : Nat := f.lane c.ty 0 c.sa 0 i
    let carry : Nat := if c.sb = .port then lane (f.src .port 1) w 0 else lane f.st.l0 w 0
    let fits (r : Nat × Flags) (xs : List Nat) : Prop :=
      (c.ty.isInt = true → op = 0 → r = (xs.sum % 2 ^ w, 0)) ∧
      (c.ty.isInt = true → op = 1 → r.2 = 0 ∧ r.1 ∈ xs ∧ ∀ y ∈ xs, laneInt c.ty r.1 ≤ laneInt c.ty y) ∧
      (c.ty.isFloat = true → op = 0 → (∀ y ∈ xs, (decodeIn env c.ty y).isNum = true) →
        ∃ v, v.isNum ∧ v.q = (xs.map (fun y => (decodeIn env c.ty y).q)).sum ∧ r = roundTo env c.ty false v)
    (∃ g, EmitsFloat (.vred c x) s f c.ty 1 c.ty.fmt g ∧ fits (g 0) ((List.range n).map a)) ∧
    (∃ g, EmitsFloat (.vscan c x) s f c.ty n c.ty.fmt g ∧ ∀ i, i < n → fits (g i) ((List.range (i + 1)).map a)) ∧
    (∃ (v : W512) (g : Nat → Nat × Flags),
      exec (.vchain c x) s = .next (f.done (updStake (raiseFlags (emitResult (f.begun s) f (f.token v c.ty.fmt)) f.colour
        ((List.range n).foldl (fun b k => b ||| (g k).2) 0)) f.colour f.st.lstake
        (fun st => { st with l0 := setLane st.l0 w 0 (g (n - 1)).1 }))) ∧
      LanesAre w n v (fun i => (g i).1 % 2 ^ w) ∧ ∀ i, i < n → fits (g i) (carry :: (List.range (i + 1)).map a))

/-- Vector instructions copy lanes and combine them exactly. -/
def Obligations.VectorLanesMoveAndCombine : Prop :=
  Sys2Proof.Claims.VectorMovesCopyLanes ∧ Sys2Proof.Claims.VectorCombinationsAreExact

/-- R466, R496, R498, R504: VPACK saturates integer lanes of two operands into one token, VUNPK widens a part of one operand and
traps with ILLOP past its end, VHDR builds a burst header or traps with ILLOP, and RNG emits words of the plait generator. -/
def Sys2Proof.Claims.VectorPackingAndHeaders : Prop :=
  ∀ (s : State) (f : Fire) (c : Common) (sty : Ty) (stream : BitVec 8), Fires destsReady s f →
    let w := c.ty.width
    let k := sty.lanes
    let lo : Int := if c.ty.isSigned then -2 ^ (w - 1) else 0
    let hi : Int := if c.ty.isSigned then 2 ^ (w - 1) - 1 else 2 ^ w - 1
    let p := lane (f.src c.sb 1) 32 0
    let va := f.src c.sa 0
    let vb := f.src c.sb 1
    (2 * w ≤ sty.width → c.ty ≠ .x → sty ≠ .x → ∃ g,
      EmitsFloat (.vpack c sty) s f c.ty (if c.vec then 2 * k else 1) c.ty.fmt g ∧
      (c.ty.isInt = true → ∀ i, i < (if c.vec then 2 * k else 1) → (g i).2 = 0 ∧
        laneInt c.ty (g i).1 = max lo (min hi (laneInt sty (if i < k then f.lane sty 0 c.sa 0 i else f.lane sty 0 c.sb 1 (i - k)))))) ∧
    (k ≤ p * c.ty.lanes → Traps (.vunpk c sty) s f cILLOP) ∧
    (p * c.ty.lanes < k → c.ty ≠ .x → ∃ v g, Emits (.vunpk c sty) s f v c.ty.fmt ∧ LanesAre w (laneCount c) v g ∧
      (c.ty.isInt = true → ∀ i, i < laneCount c →
        g i = (laneInt sty (f.lane sty 0 c.sa 0 (p * c.ty.lanes + i)) % 2 ^ w).toNat)) ∧
    ((vhdrOf va vb).2 = false → Traps (.vhdr c) s f cILLOP) ∧
    ((vhdrOf va vb).2 = true → ∃ v, Emits (.vhdr c) s f v 7 ∧ fld v 0 64 = fld va 0 64 ∧ fld v 64 6 = fld va 64 6 ∧
      fld v 70 2 = 0 ∧ ∀ j, j < 55 → fld v (72 + 8 * j) 8 = fld vb (8 * j) 8) ∧
    (fld va 24 8 ≠ 0 → Traps (.rng c stream) s f cILLOP) ∧
    (fld va 24 8 = 0 → ∃ v, Emits (.rng c stream) s f v 0 ∧ LanesAre 32 (if c.vec then 16 else 1) v (fun i =>
      (plait f.k.colkey stream.toNat (fld va 0 24) (fld va 32 16) ((fld va 48 16 + i) % 2 ^ 16)).toNat))

/-- R66, R67, R400, R494: a header consumer's firing traps with ILLOP where its token disagrees with the header in force. VDEQ
and FMTCAST otherwise send their token's elements, converted, in tokens of a whole number of lanes each. -/
def Sys2Proof.Claims.HeaderConsumersConvertEveryElement : Prop :=
  ∀ (s : State) (f : Fire) (c : Common) (sty : Ty), Fires destsReady s f → c.ty ≠ .x → sty ≠ .x →
    let w := c.ty.width
    let m := c.ty.lanes
    let env := f.env c.rnd false
    let elem (i : Nat) : Nat × Flags :=
      let e := f.countA * sty.lanes + i
      convElem env c.ty false (scaled (decodeIn env sty (lane f.first.data sty.width i)) (hdrScaleOf f.hdrA (e / hdrL f.hdrA)))
        (f.plaitA e i)
    (f.badA = true → Traps (.vdeq c sty) s f cILLOP) ∧
    ((f.badA = true ∨ f.first.fmt ≠ sty.fmt) → Traps (.fmtcast c sty) s f cILLOP) ∧
    (f.badA = false → f.ops.ta = some f.first → ∃ (ts : List Token) (fl : Flags),
      exec (.vdeq c sty) s = .next (f.done (raiseFlags (sendBurst (updStake (f.begun s) f.colour f.st.lstake
        (fun st => latchAdvance st 0 f.colour f.frame)) f ts) f.colour fl)) ∧
      ts.length = ((if c.vec then sty.lanes else 1) + m - 1) / m ∧
      ∀ (j i : Nat) (t : Token), ts[j]? = some t → i < m → t.fmt = c.ty.fmt ∧ t.frame = f.frame ∧ t.wave = f.wave ∧
        lane t.data w i = if j * m + i < (if c.vec then sty.lanes else 1) then (elem (j * m + i)).1 % 2 ^ w else 0) ∧
    (f.badA = false → f.first.fmt = sty.fmt → f.latchA = none → f.st.ebuf = [] → sty.lanes < m → f.ops.ta = some f.first →
      ∃ (fl : Flags) (u : State), exec (.fmtcast c sty) s = .next (f.done (raiseFlags u f.colour fl)) ∧
        (∀ st, stake? s f.colour f.st.lstake = some st → ∃ st', stake? u f.colour f.st.lstake = some st' ∧
          st'.ebuf.length = sty.lanes ∧ st'.out = [])) ∧
    (f.badA = false → f.first.fmt = sty.fmt → f.latchA = none → f.st.ebuf = [] → m ≤ sty.lanes → f.ops.ta = some f.first →
      let cenv := f.env c.rnd (narrowsFloat c.ty sty)
      let x (i : Nat) : FVal := decodeIn cenv sty (lane f.first.data sty.width i)
      ∃ (ts : List Token) (fl : Flags) (u : State), exec (.fmtcast c sty) s = .next (f.done (raiseFlags (sendBurst u f ts) f.colour fl)) ∧
        ts.length = sty.lanes / m ∧ u.mem = s.mem ∧ u.reqs = s.reqs ∧
        ∀ (j i : Nat) (t : Token), ts[j]? = some t → i < m → t.fmt = c.ty.fmt ∧ t.frame = f.frame ∧ t.wave = f.wave ∧
          lane t.data w i = (convElem cenv c.ty c.ty.isNar (if c.ty.isNar then x (j * m + i) else scaled (x (j * m + i)) 127)
            (plaitLane f (j * m + i))).1 % 2 ^ w)

/-- R500: a VQUANT firing on port a traps with ILLOP on a bad descriptor, keeps its elements while they fill less than a token
of TY, and otherwise sends one header and one data token of a group. -/
def Sys2Proof.Claims.VquantSendsAHeaderAndAGroup : Prop :=
  ∀ (s : State) (col : BitVec 12) (k : Colour) (st : StakeSt) (c : Common) (sty : Ty) (i : PItem),
    cursorStake s = some (col, k, st) → st.out = [] → fireHead k st s.cur.place 0 = some i →
    (st.dt = 0 ∨ fireHead k st s.cur.place 3 = none) → i.tok.ok = true →
    let f : Fire := { tile := s.cur.place, st := st, k := k, ops := OpSet.empty.put 0 i.tok, colour := col, frame := i.tok.frame,
                      wave := i.tok.wave }
    let t := f.begunWith (st.setPort 0 ((st.port 0).remove i)) s
    let desc := f.src c.sb 1
    let all := st.ebuf.map BitVec.toNat ++ (List.range sty.lanes).map (fun n => lane i.tok.data sty.width n)
    destsReady s f = true → hasTurn s f = true →
    (quantBad c desc = true → exec (.vquant c sty) s = .next (f.done (trapFire t f cILLOP))) ∧
    (quantBad c desc = false → all.length < c.ty.lanes → exec (.vquant c sty) s = .next (f.done
      (updStake t col st.lstake (fun y => { y with ebuf := all.map (BitVec.ofNat 32) })))) ∧
    (quantBad c desc = false → c.ty.lanes ≤ all.length → ∃ (h d : Token) (fl : Flags),
      exec (.vquant c sty) s = .next (f.done (raiseFlags (sendBurst (updStake t col st.lstake
        (fun y => { y with ebuf := [], group := y.group + 1 })) f [h, d]) col fl)) ∧
      h.fmt = 7 ∧ d.fmt = c.ty.fmt ∧ hdrBlen h.data = 1 ∧ hdrLast h.data = 0 ∧ hdrEfmt h.data = c.ty.fmt.toNat ∧
      hdrCol0 h.data = fld desc 48 16 ∧ hdrRow0 h.data = (fld desc 32 16 + st.group * c.ty.lanes / 64) % 2 ^ 16)

/-- Vector packing, headers, dequantisation and quantisation. -/
def Obligations.VectorFormatsConvert : Prop :=
  Sys2Proof.Claims.VectorPackingAndHeaders ∧ Sys2Proof.Claims.HeaderConsumersConvertEveryElement ∧ Sys2Proof.Claims.VquantSendsAHeaderAndAGroup

/-! ## Tensor maps -/

/-- R316, R482, R485 to R487: TMGET emits a map; TMSET traps with ILLOP on a bad shape and otherwise installs its operand with
the old bounds and permissions; TMNAR intersects the bounds and permissions. What is installed is what is emitted. -/
def Obligations.TensorMapsInstallAndNarrow : Prop :=
  ∀ (s : State) (f : Fire) (c : Common) (tmn : BitVec 4), Fires destsReady s f → s.col? f.colour.toNat = some f.k →
    let n := tmn.toNat
    let old := mapGet f.k.tms n 0
    let op := f.src c.sa 0
    Emits (.tmget c tmn) s f old 0 ∧
    (tmsetBad op = true → Traps (.tmset c tmn) s f cILLOP) ∧
    (tmsetBad op = false → ∃ v, exec (.tmset c tmn) s = .next (f.done (emitResult ((f.begun s).updCol f.colour.toNat
        (fun k => { k with tms := mapPut k.tms n v })) f (f.token v 0))) ∧
      tmBlo v = tmBlo old ∧ tmBhi v = tmBhi old ∧ tmR v = tmR old ∧ tmW v = tmW old ∧ tmBase v = tmBase op ∧
      tmEty v = tmEty op ∧ tmRank v = tmRank op ∧ ∀ d, d < 5 → tmExt v d = tmExt op d ∧ tmStride v d = tmStride op d) ∧
    (∃ v, exec (.tmnar c tmn) s = .next (f.done (emitResult ((f.begun s).updCol f.colour.toNat
        (fun k => { k with tms := mapPut k.tms n v })) f (f.token v 0))) ∧
      (old = 0 → v = 0) ∧
      (old ≠ 0 → tmR v = (tmR old && tmR op) ∧ tmW v = (tmW old && tmW op) ∧ tmBase v = tmBase old ∧
        ∀ a : Nat, (tmBlo v ≤ a ∧ a ≤ tmBhi v) ↔ (tmBlo old ≤ a ∧ a ≤ tmBhi old ∧ tmBlo op ≤ a ∧ a ≤ tmBhi op)))

/-! ## Memory, copy and fence instructions -/

/-- R118, R119, R123, R126, R134, R377, R421, R424, R437, R454, R463, R471, R473: a memory-class firing emits nothing but one
request, which carries its stake word with PRED, OWN and SUCC, its tag and its operands; an access also names every 4 KiB
granule it touches, with what it needs of it. -/
def Sys2Proof.Claims.MemoryInstructionsSendTheirRequest : Prop :=
  ∀ (s : State) (f : Fire) (c : Common) (x : MemX) (y : FenceX), Fires reqRoom s f →
    let m := MemX.ofBits (f.st.word.extractLsb' 0 35)
    let va := (n64 (f.src c.sa 0) 0).toNat
    let carries (r : Request) : Prop := r.ctl = false ∧ r.word = f.st.word ∧ r.lstake = f.st.lstake ∧ r.colour = f.colour ∧
      r.frame = f.frame ∧ r.wave = f.wave ∧ r.pred = m.pred ∧ r.own = m.own ∧ r.succ = m.succ ∧ r.opa = f.src c.sa 0 ∧
      r.opb = f.src c.sb 1 ∧ r.home = f.home ∧ r.phase = .chan ∧ r.done = 0
    let touches (r : Request) (lo n : Nat) (need : Need) : Prop := r.cause = 0 ∧
      (∀ p ∈ r.pages, p.need = need ∧ p.va % 4096 = 0) ∧
      ∀ j, j < n → ∃ p ∈ r.pages, p.va = (lo + j) / 4096 * 4096 % 2 ^ 64
    let access (i : Instr) (need : Need) (opc : W512) : Prop :=
      ∃ r, Sends i s f r ∧ carries r ∧ touches r va (2 ^ m.sz.toNat) need ∧ r.opc = opc
    let d := f.src c.sa 0
    let lines (i : Instr) (need : Need) : Prop := ∃ r, Sends i s f r ∧ carries r ∧
      (ldtFault d = 0 → touches r (fld d 0 64) (64 * fld d 80 13) need) ∧ (ldtFault d ≠ 0 → r.cause = ldtFault d ∧ r.pages = [])
    let copies (i : Instr) : Prop := ∃ r, Sends i s f r ∧ carries r ∧ r.cause = (cpyFault f.st.common.ty d).1 ∧ r.pages = []
    access (.ld c x) .load 0 ∧ access (.st c x) .store 0 ∧ access (.ldf c x) .loadFull 0 ∧ access (.ste c x) .storeEmpty 0 ∧
    access (.pref c x) .load 0 ∧ access (.atom c x) .atomic 0 ∧ access (.fatom c x) .atomic 0 ∧
    access (.cas c x) .atomic (f.src c.sc 2) ∧ access (.red c x) .reduce 0 ∧ access (.fred c x) .reduce 0 ∧
    lines (.ldt c x) .load ∧ lines (.stt c x) .store ∧ copies (.cpy c x) ∧ copies (.cpywp c x) ∧
    (∃ r, Sends (.memnop c x) s f r ∧ carries r ∧ r.cause = 0 ∧ r.pages = []) ∧
    (∃ r, Sends (.fence c y) s f r ∧ carries r ∧ r.cause = 0 ∧ r.pages = []) ∧
    (∃ r, Sends (.mcas c x) s f r ∧ carries r ∧ r.cause = 0 ∧ r.pages = []) ∧
    (1 ≤ fld d 0 32 → fld d 0 32 < 2 ^ 16 → ∃ r, Sends (.qfence c x) s f r ∧ carries r ∧ r.cause = 0) ∧
    ((fld d 0 32 = 0 ∨ 2 ^ 16 ≤ fld d 0 32) → Traps (.qfence c x) s f cILLOP)

/-- R483, R484, R488, R489: TMLD and TMST trap with ILLOP on an odd coordinate of a packed map, and otherwise send one request
with the map as sampled: one that fails its check carries PERM and the address that failed. -/
def Sys2Proof.Claims.TensorAccessesSampleTheirMap : Prop :=
  ∀ (s : State) (f : Fire) (c : Common) (x : TmemX), Fires reqRoom s f →
    let m := f.tm (tmNum c x)
    let op := f.src c.sa 0
    let checked (r : Request) (store : Bool) : Prop := r.tm = m ∧ r.opa = op ∧ r.word = f.st.word ∧ r.frame = f.frame ∧
      r.wave = f.wave ∧ (∀ a, tmCheck m op store = some a → r.cause = cPERM ∧ r.faddr = a ∧ r.pages = []) ∧
      (tmCheck m op store = none → r.cause = 0 ∧ ∀ e ∈ tmElems m op, ∀ j, j < tmBytes m → 0 ≤ e.2 → e.2 + tmBytes m ≤ 2 ^ 57 →
        ∃ p ∈ r.pages, p.va = (e.2.toNat + j) / 4096 * 4096)
    (tmOdd m op = true → Traps (.tmld c x) s f cILLOP) ∧
    ((tmstBad c f || tmOdd m op) = true → Traps (.tmst c x) s f cILLOP) ∧
    (tmOdd m op = false → ∃ r, Sends (.tmld c x) s f r ∧ checked r false) ∧
    ((tmstBad c f || tmOdd m op) = false → ∃ r, checked r true ∧ r.opc = f.src c.sc 2 ∧
      exec (.tmst c x) s = .next (f.done (sendReq (if c.sc = .port then
        updStake (f.begun s) f.colour f.st.lstake (fun st => latchAdvance st 2 f.colour f.frame) else f.begun s) r)))

/-- R179, R180: FWAIT traps with ILLOP where its ticket names no live slot of its frame, waits while the accesses its ticket
covers have not performed, and otherwise frees the slot and emits its ticket. -/
def Sys2Proof.Claims.FwaitWaitsForItsTicket : Prop :=
  ∀ (s : State) (f : Fire) (c : Common) (t : Ticket) (x : Frame), pick s = some f → f.ops.toks.all Token.ok = true →
    hasTurn s f = true → frame? s f.colour f.frame = some x →
    (ticketOf s f = none → Traps (.fwait c) s f cILLOP) ∧
    (ticketOf s f = some t → ticketMet s x t = false → exec (.fwait c) s = .next s) ∧
    (ticketOf s f = some t → ticketMet s x t = true → destsReady s f = true → ∃ u,
      exec (.fwait c) s = .next (f.done (emitResult u f (f.token f.first.data 0))) ∧
      (u.clu f.home).tickets = (s.clu f.home).tickets.erase t ∧ u.mem = s.mem ∧ u.reqs = s.reqs ∧ u.net = s.net)

/-- The memory class sends one request for each firing, and FWAIT waits for its ticket. -/
def Obligations.MemoryClassSendsItsRequests : Prop :=
  Sys2Proof.Claims.MemoryInstructionsSendTheirRequest ∧ Sys2Proof.Claims.TensorAccessesSampleTheirMap ∧ Sys2Proof.Claims.FwaitWaitsForItsTicket

/-! ## The matrix class -/

/-- R207, R208, R212 to R214, R218 to R220, R441 to R443, R446, R449: a matrix firing puts its command at the end of its tile's
queue, with FPCTL and COLKEY as sampled; MZERO and MLDACC make its frame the bank's queued owner and set the queued mode; a
firing that does not own the bank, or whose descriptor is bad, traps with ILLOP. -/
def Obligations.MatrixCommandsJoinTheirTilesQueue : Prop :=
  ∀ (s : State) (f : Fire) (c : Common) (x : MatX),
    let n := x.bank.toNat
    let d := f.src c.sa 0
    let a := f.src .port 0
    let b := f.src .port 1
    let ha := latchHdr f.st 0 f.colour f.frame
    let hb := latchHdr f.st 1 f.colour f.frame
    let joins (i : Instr) (opa opb : W512) (owner : Option (BitVec 12 × BitVec 12)) (int : Bool) : Prop :=
      ∃ u m, exec i s = .next (f.done u) ∧ (u.tile f.tile).cmds = (s.tile f.tile).cmds ++ [m] ∧ m.word = f.st.word ∧
        m.lstake = f.st.lstake ∧ m.colour = f.colour ∧ m.frame = f.frame ∧ m.wave = f.wave ∧ m.opa = opa ∧ m.opb = opb ∧
        m.fpctl = f.k.fpctl ∧ m.colkey = f.k.colkey ∧ m.started = false ∧ m.out = [] ∧
        ((u.tile f.tile).acc n).qowner = owner ∧ ((u.tile f.tile).acc n).qint = int ∧ u.mem = s.mem ∧ u.reqs = s.reqs
    let q := ((s.tile f.tile).acc n)
    (Fires (fun s f => cmdRoom s f && bankOpen n s f) s f →
      joins (.mzero c x) 0 0 (some (f.colour, f.frame)) c.ty.isInt ∧
      ((desc0 d 13 18 ≠ 0 ∨ 8192 < desc0 d 0 13 + 256) → Traps (.mldacc c x) s f cILLOP) ∧
      (desc0 d 13 18 = 0 → desc0 d 0 13 + 256 ≤ 8192 → joins (.mldacc c x) d 0 (some (f.colour, f.frame)) c.ty.isInt)) ∧
    (Fires mmaGate s f →
      let bad := opTagBad c c.ty (f.fmtOf c.ty .port 0) ha || opTagBad c x.bty (f.fmtOf x.bty .port 1) hb ||
        opBad c.ty a ha || opBad x.bty b hb
      ((bad || !ownsBank n s f || queuedInt n s f != c.ty.isInt) = true → Traps (.mma c x) s f cILLOP) ∧
      (bad = false → ownsBank n s f = true → queuedInt n s f = c.ty.isInt → joins (.mma c x) a b q.qowner q.qint)) ∧
    (Fires cmdRoom s f →
      ((!ownsBank n s f || desc0 d 0 32 != 0 || queuedInt n s f != c.ty.isInt) = true → Traps (.msnap c x) s f cILLOP) ∧
      (ownsBank n s f = true → desc0 d 0 32 = 0 → queuedInt n s f = c.ty.isInt → joins (.msnap c x) d 0 q.qowner q.qint) ∧
      ((!ownsBank n s f || drainBad c.ty d (queuedInt n s f)) = true → Traps (.mdrain c x) s f cILLOP) ∧
      (ownsBank n s f = true → drainBad c.ty d (queuedInt n s f) = false →
        joins (.mdrain c x) d 0 (if desc1 d 47 1 = 1 then none else q.qowner) q.qint))

/-! ## The system class -/

/-- R19, R338, R460 to R462, R506 and Table 13.7: RDCTL emits a control register, RDTIME TIMEBASE, and WRCTL writes the register,
emits what it then reads and traps with ILLOP on a value or a register that may not be written. -/
def Obligations.ControlRegistersReadAndWrite : Prop :=
  ∀ (s : State) (f : Fire) (c : Common) (ctl : BitVec 8), Fires destsReady s f → s.col? f.colour.toNat = some f.k →
    let n := ctl.toNat
    let v := n64 (f.src c.sa 0) 0
    let writes (g : Colour → Colour) (r : W64) : Prop := exec (.wrctl c ctl) s = .next (f.done (emitResult
      ((f.begun s).updCol f.colour.toNat g) f (f.token (r.setWidth 512) 0)))
    Emits (.rdtime c) s f (BitVec.ofNat 512 (s.clk * 2 / 3 % 2 ^ 64)) 0 ∧
    (n = 0 → Emits (.rdctl c ctl) s f (f.k.fpctl.setWidth 512) 0) ∧
    (n = 2 → Emits (.rdctl c ctl) s f (f.k.colkey.setWidth 512) 0) ∧
    (n = 3 → Emits (.rdctl c ctl) s f (f.k.spillbase.setWidth 512) 0) ∧
    (n = 4 → Emits (.rdctl c ctl) s f (BitVec.ofNat 512 (f.k.quota.toNat + f.k.spills.toNat * 2 ^ 16)) 0) ∧
    (n = 5 → Emits (.rdctl c ctl) s f (f.k.trapvec.setWidth 512) 0) ∧
    (16 ≤ n → n < 32 → let b := mapGet f.k.bars (n - 16) Barrier.reset
      Emits (.rdctl c ctl) s f (BitVec.ofNat 512 (b.expect.toNat + b.arrived.toNat * 2 ^ 16 + b.broken.toNat * 2 ^ 31 +
        b.gen.toNat * 2 ^ 32)) 0) ∧
    (n = 0 → fpctlOk v = true → writes (fun k => { k with fpctl := v &&& 0x7FF }) (v &&& 0x7FF)) ∧
    (n = 0 → fpctlOk v = false → Traps (.wrctl c ctl) s f cILLOP) ∧
    (n = 2 → writes (fun k => { k with colkey := v }) v) ∧
    (n = 3 → spillbaseOk v = true → writes (fun k => { k with spillbase := v &&& ~~~0xFC0 }) (v &&& ~~~0xFC0)) ∧
    (n = 3 → spillbaseOk v = false → Traps (.wrctl c ctl) s f cILLOP) ∧
    (n = 4 → msquotaOk v = true → writes (fun k => { k with quota := v.setWidth 13 })
      (BitVec.ofNat 64 (v.toNat % 2 ^ 13 + f.k.spills.toNat * 2 ^ 16))) ∧
    (n = 4 → msquotaOk v = false → Traps (.wrctl c ctl) s f cILLOP) ∧
    (n = 5 → trapvecOk (s.part f.k.part) v = true → writes (fun k => { k with trapvec := v }) v) ∧
    (n = 5 → trapvecOk (s.part f.k.part) v = false → Traps (.wrctl c ctl) s f cILLOP) ∧
    (16 ≤ n → n < 32 → let b := mapGet f.k.bars (n - 16) Barrier.reset
      let b' := { b with broken := b.broken && !v.getLsbD 31 }
      writes (fun k => { k with bars := mapPut k.bars (n - 16) b' }) b'.word) ∧
    (32 ≤ n → Traps (.wrctl c ctl) s f cILLOP)

/-- R135, R370, R490: TRAP and BRK stop a live frame: it takes the cause, the code as FADDR, the stake and TIMEBASE, waits for
every tile of its instance, and its replay queue holds one PASS record with the operand. -/
def Sys2Proof.Claims.TrapAndBreakStopTheFrame : Prop :=
  ∀ (s : State) (f : Fire) (c : Common) (code : BitVec 16) (x : Frame), Fires destsReady s f →
    s.col? f.colour.toNat = some f.k → frame? s f.colour f.frame = some x → x.phase = .live → x.recs = [] →
    let stops (i : Instr) (cause : BitVec 8) : Prop := ∃ t y r, exec i s = .next t ∧ frame? t f.colour f.frame = some y ∧
      y.phase = .stopping ∧ y.cause = cause ∧ y.faddr = code.setWidth 64 ∧ y.tstake = f.st.lstake ∧ y.time = s.time ∧
      y.awaitTiles = f.k.tileList ∧ r ∈ y.recs ∧ r.rkind = 2 ∧ r.opa = f.src c.sa 0 ∧ r.word = f.st.word ∧ r.cause = cause ∧
      r.faddr = code.setWidth 64 ∧ r.frame = f.frame ∧ r.wave = f.wave
    stops (.trap c code) cSWTRAP ∧ stops (.brk c code) cBRK

/-- R372, R383, R384, R414, R415, R431: EVENT buffers its record and emits nothing before the record is written; CFGSWAP emits a
status and asks for the weave where the status is 0; MARK waits for its round; HINT emits its operand. -/
def Sys2Proof.Claims.SystemInstructionsActOnTheirColour : Prop :=
  ∀ (s : State) (f : Fire) (c : Common) (code : BitVec 16) (weaveId : BitVec 32) (hint : BitVec 8),
    s.col? f.colour.toNat = some f.k →
    (Fires eventGate s f → (s.vf f.k.vf).pause = false → ∃ u e, exec (.event c code) s = .next (f.done u) ∧
      (u.vf f.k.vf).q.evbuf = (s.vf f.k.vf).q.evbuf ++ [e] ∧ e.ty = 11 ∧ e.id = code.setWidth 32 ∧
      e.frame = f.frame.setWidth 16 ∧ e.gen = (s.vf f.k.vf).gen ∧ e.info = n64 (f.src c.sa 0) 0 ∧ u.net = s.net ∧
      u.mem = s.mem ∧ e.emit = some (f.st.lstake, f.token (f.src c.sa 0) (f.fmtOf c.ty c.sa 0))) ∧
    (Fires destsReady s f →
      (∃ r, exec (.cfgswap c weaveId) s = .next (f.done (emitResult (if r = 0 then (f.begun s).updCol f.colour.toNat
          (fun k => { k with swap := some (weaveId, weaveReg s f.k.vf weaveId) }) else f.begun s) f
          (f.token (BitVec.ofNat 512 r) 0))) ∧
        (r = 0 ↔ (∃ w ∈ (s.vf f.k.vf).weaves, w.id = weaveId) ∧ f.k.swap = none ∧ f.k.weave ≠ weaveId) ∧
        (r = 1 ↔ ¬∃ w ∈ (s.vf f.k.vf).weaves, w.id = weaveId)) ∧
      (exec (.mark c) s = .next (f.done ((f.begun s).updCol f.colour.toNat (fun k => { k with
        marks := k.marks ++ [{ lstake := f.st.lstake, frame := f.frame, wave := f.wave }] })))) ∧
      (∃ act : State → State, exec (.hint c hint) s = .next (f.done (act (emitResult (f.begun s) f
          (f.token (f.src c.sa 0) (f.fmtOf c.ty c.sa 0))))) ∧
        (hint = 1 → act = fun t => updStake t f.colour f.st.lstake (fun st => { st with near := some ((f.src c.sa 0).setWidth 16) })) ∧
        (hint = 2 → act = fun t => updStake t f.colour f.st.lstake (fun st => { st with heat := 1 })) ∧
        (hint = 3 → act = fun t => updStake t f.colour f.st.lstake (fun st => { st with heat := 2 }))))

/-- The system class stops frames and acts on its colour. -/
def Obligations.SystemClassActsOnItsColour : Prop :=
  Sys2Proof.Claims.TrapAndBreakStopTheFrame ∧ Sys2Proof.Claims.SystemInstructionsActOnTheirColour

/-! ## Device steps: reset, readiness, power and management -/

/-- R339, R342, R347, R348: reset release verifies a firmware slot, derives the identity and releases the dies, and with no slot
that passes leaves them; a warm reset keeps HBM4 and returns every register to its reset value. -/
def Sys2Proof.Claims.ResetReleasesTheDies : Prop :=
  ∀ (s : State) (b : Bool), (s.pf.released = false → bootSlot s.mgmt = some b →
      exec .resetRelease s = .next { s with
        mgmt := { s.mgmt with runB := b, running := true, identity := some (identityOf (s.mgmt.slot b)) },
        pf := { s.pf with released := true, fwver := (s.mgmt.slot b).ver } } ∧ fwPasses s.mgmt (s.mgmt.slot b) = true ∧
      (b ≠ s.mgmt.nextB → fwPasses s.mgmt (s.mgmt.slot s.mgmt.nextB) = false)) ∧
    (s.pf.released = false → bootSlot s.mgmt = none → exec .resetRelease s = .next s) ∧
    (∃ t, exec .warmReset s = .next t ∧ t.mem = s.mem ∧ t.poison = s.poison ∧ t.scrubbed = s.scrubbed ∧ t.pf = Pf.reset ∧
      t.vfs = [] ∧ t.parts = [] ∧ t.cols = [] ∧ t.tiles = [] ∧ t.clus = [] ∧ t.dies = [] ∧ t.net = [] ∧ t.reqs = [] ∧
      t.host = HostPort.reset ∧ t.clk = 0 ∧ t.mgmt = { s.mgmt with running := false, identity := none })

/-- R339 to R341 and Tables 15.1 and 15.2: a unit that reports ready sets its bit and no other; one that fails leaves its bit,
sets FAIL and takes no later report. -/
def Sys2Proof.Claims.UnitsReportReadiness : Prop :=
  ∀ (s : State) (kind idx ok : W64), let k := kind.toNat; let i := idx.toNat
    let done (p : Pf) : Prop := exec (.unitReady kind idx ok) s = .next { s with pf := p }
    (k < 5 → s.pf.released = true) → (k, i) ∉ s.pf.unitFailed →
      (ok ≠ 0 → (k = 0 → i = 0 → done { s.pf with ready := true }) ∧
        (k = 1 → i < 64 → done { s.pf with clu := s.pf.clu ||| 1#64 <<< i }) ∧
        (k = 2 → i < 4 → done { s.pf with die := s.pf.die ||| 1#4 <<< i }) ∧
        (k = 3 → i < 12 → done { s.pf with stk := s.pf.stk ||| 1#12 <<< i }) ∧
        (k = 4 → i < 36 → done { s.pf with wkp := s.pf.wkp ||| 1#36 <<< i }) ∧
        (k = 5 → i = 0 → done { s.pf with mgmt := true }) ∧ (k = 6 → i = 0 → done { s.pf with spdm := true })) ∧
      (ok = 0 → k = 3 → i < 12 → s.pf.stk.getLsbD i = false →
        done { s.pf with fail := true, unitFailed := (3, i) :: s.pf.unitFailed, stkFailed := s.pf.stkFailed ||| 1#12 <<< i } ∧
        ∀ t, exec (.unitReady kind idx ok) s = .next t → exec (.unitReady kind idx 1) t = .next t)

/-- Reset release, warm reset and readiness. -/
def Obligations.ResetReleasesAndUnitsReport : Prop :=
  Sys2Proof.Claims.ResetReleasesTheDies ∧ Sys2Proof.Claims.UnitsReportReadiness

/-- R343, R344: PWRCTL takes values in range only; DUTY rises one step above CAP or 95 °C, falls one after a whole window below
CAP and 90 °C, and stays from 0 to 7; 16 − 2·DUTY of every 16 clk stay open to firings; at 115 °C the package loses its power. -/
def Sys2Proof.Claims.PowerAndHeatMoveDuty : Prop :=
  ∀ (s : State) (v avgw temp : W64), let cap := v.extractLsb' 0 16; let win := v.extractLsb' 32 16
    let p := { s.pf with avgw := avgw.setWidth 16, temp := temp.setWidth 16 }
    let below (q : Pf) : Prop := q.avgw.toNat < q.cap.toNat ∧ q.temp.toNat < 90
    (600 ≤ cap.toNat ∧ cap.toNat ≤ 2600 ∧ 1 ≤ win.toNat ∧ win.toNat ≤ 1000 → ∃ at_, exec (.pwrctlWrite v) s =
      .next { s with pf := { s.pf with cap := cap, pwin := win, dutyAt := at_ } } ∧
        (below s.pf → at_ = s.pf.dutyAt) ∧ (¬below s.pf → at_ = s.clk)) ∧
    (¬(600 ≤ cap.toNat ∧ cap.toNat ≤ 2600 ∧ 1 ≤ win.toNat ∧ win.toNat ≤ 1000) →
      exec (.pwrctlWrite v) s = .next { s with pf := { s.pf with err := true } }) ∧
    (p.cap.toNat < p.avgw.toNat ∨ 95 < p.temp.toNat → exec (.dutyRaise avgw temp) s = .next { s with
      pf := { p with dutyAt := s.clk, duty := BitVec.ofNat 3 (min 7 (s.pf.duty.toNat + 1)) } }) ∧
    (below s.pf → below p → s.pf.dutyAt + 1500000 * s.pf.pwin.toNat ≤ s.clk → exec (.dutyLower avgw temp) s =
      .next { s with pf := { p with dutyAt := s.clk, duty := BitVec.ofNat 3 (s.pf.duty.toNat - 1) } }) ∧
    (below s.pf → below p → s.clk < s.pf.dutyAt + 1500000 * s.pf.pwin.toNat → exec (.dutyLower avgw temp) s = .next { s with pf := p }) ∧
    (¬below s.pf ∨ ¬below p → 0 < s.pf.pwin.toNat → exec (.dutyLower avgw temp) s = .next { s with pf := { p with dutyAt := s.clk } }) ∧
    (∀ f, issueOpen s = false → hasTurn s f = false) ∧
    (∀ n, ((List.range 16).filter (fun i => issueOpen { s with clk := 16 * n + i })).length = 16 - 2 * s.pf.duty.toNat) ∧
    (115 ≤ temp.toNat → ∃ t, exec (.thermalShutdown temp) s = .next t ∧ t.pf = Pf.reset ∧ t.cols = [] ∧ t.mem = [] ∧
      t.scrubbed = [] ∧ t.saved = [] ∧ t.mgmt.running = false)

/-- R300, R345 to R348 and log entry 110: a monitor request answers TEMP, AVGW, DUTY and READY1; an update stores its image in the
slot that does not run, which the next reset boots only if its signature verifies under a fused key that is not revoked; SPDM requests
are answered, signed as R348 says. -/
def Sys2Proof.Claims.ManagementEndpointAnswers : Prop :=
  ∀ (s : State) (img ver sec key kind arg : W64) (d : Nat), let m := s.mgmt; let b := if m.running then !m.runB else !m.nextB
    let passes := key.toNat < 4 ∧ m.revoked.getLsbD key.toNat = false ∧ m.minSec ≤ sec.toNat ∧ ∃ q, Config.imageKey key.toNat = some q ∧
      ecdsaOk q (Config.fwBytes img.toNat) (Config.fwSig img.toNat).1 (Config.fwSig img.toNat).2 = true
    let digest (f : FwSlot) : List Byte := sha384 (if f.full then Config.fwBytes f.image else [])
    let ms := sha384 Config.romBytes ++ digest m.slotA ++ digest m.slotB ++ sha384 (fuseBytes m)
    let by_ (k : Nat) (x : List Byte) : List Byte := x ++ sigBytes (ecdsaSign k (Config.nonce s.free) x)
    let answers (n : BitVec 8) (l : List Byte) : Prop := exec (.spdmRequest kind arg) s =
      .next { s with free := s.free + 1, mgmt := { m with replies := (n, l) :: m.replies } }
    (s.pf.mgmt = true → exec .pldmMonitorRequest s = .next { s with mgmt := { m with
      replies := [(4, natBytes 8 s.pf.ready1.toNat), (3, natBytes 8 s.pf.duty.toNat), (2, natBytes 8 s.pf.avgw.toNat),
        (1, natBytes 8 s.pf.temp.toNat)] ++ m.replies } }) ∧
    (s.pf.mgmt = true → ∃ n, exec (.firmwareUpdate img ver sec key) s = .next { s with mgmt := n } ∧
      n.slot b = { full := true, image := img.toNat, ver := ver.setWidth 32, sec := sec.toNat, key := key.toNat } ∧
      n.slot (!b) = m.slot (!b) ∧ (passes → n.nextB = b) ∧ (¬passes → n.nextB = m.nextB) ∧ n.running = m.running ∧
      n.runB = m.runB ∧ n.identity = m.identity) ∧
    (s.pf.spdm = true → kind = 0 → answers 16 (natBytes 2 1 ++ natBytes 4 2)) ∧
    (s.pf.spdm = true → kind = 1 → m.identity = some d → answers 17 (by_ Config.deviceKey (keyBytes (publicKey d)))) ∧
    (s.pf.spdm = true → kind = 2 → answers 18 (match m.identity with | some k => by_ k ms | none => ms)) ∧
    (s.pf.spdm = true → kind = 3 → m.identity = some d → (s.vf arg.toNat).tdi = .configLocked ∨ (s.vf arg.toNat).tdi = .run →
      answers 19 (by_ d ((report s arg.toNat).flatMap (fun w => natBytes 8 w.toNat))))

/-- Power and heat move DUTY, and the management endpoint answers. -/
def Obligations.PowerHeatAndManagement : Prop :=
  Sys2Proof.Claims.PowerAndHeatMoveDuty ∧ Sys2Proof.Claims.ManagementEndpointAnswers

/-- R294, R296: the scrub engine of a die zeroes its lowest granule that is still to be scrubbed; a row past TH is activated no
sooner than DLY ns after its last activation, and counted; a window's end starts the counts again. -/
def Obligations.ScrubbingAndRowThrottling : Prop :=
  ∀ (s : State) (row : W64) (g p : Nat), let d := s.cur.place; let da := row.toNat; let e := da / 2 ^ 36 / 3
    let r := mapGet (s.die e).rows da (0, 0)
    (s.memOk → d < 4 → g / 98304 = d → g ∉ s.scrubbed → (∀ h, h / 98304 = d → h < g → h ∈ s.scrubbed) → s.pf.stk.getLsbD (g / 2 ^ 15) = true →
      ∃ t, exec .scrubGranule s = .next t ∧ g ∈ t.scrubbed ∧ (∀ h, h ≠ g → (h ∈ t.scrubbed ↔ h ∈ s.scrubbed)) ∧
        (∀ a, dramGet t a = dramGet s a) ∧ (∀ a, a / 2 ^ 21 = g → dramGet t a = 0) ∧ t.pf = s.pf ∧ t.cols = s.cols ∧ t.dies = s.dies) ∧
    (da / 2 ^ 36 < 12 → r.1 ≤ (s.die e).th.toNat → exec (.throttledActivation row) s = .next (s.updDie e (fun x =>
      { x with rows := mapPut x.rows da (r.1 + 1, s.clk) }))) ∧
    (da / 2 ^ 36 < 12 → (s.die e).th.toNat < r.1 → 2 * s.clk < 2 * r.2 + 3 * (s.die e).dly.toNat →
      exec (.throttledActivation row) s = .next s) ∧
    (da / 2 ^ 36 < 12 → (s.die e).th.toNat < r.1 → 2 * r.2 + 3 * (s.die e).dly.toNat ≤ 2 * s.clk → partOfDram s da = some p →
      ∃ t, exec (.throttledActivation row) s = .next t ∧ mapGet (t.die e).rows da (0, 0) = (r.1 + 1, s.clk) ∧
        (t.part p).hamcnt = (if (s.part p).hamcnt.toNat = 2 ^ 64 - 1 then (s.part p).hamcnt else (s.part p).hamcnt + 1)) ∧
    ((s.die d).window + 48000000 ≤ s.clk → exec .hammerWindowEnd s = .next (s.updDie d (fun x =>
      { x with rows := [], window := s.clk })))

/-! ## Device steps: registers of the physical function -/

/-- R158 to R160, R162, R232, R281, R341: writes to the registers of an address range entry, a way share, a partition and the
scheduler are taken when their checks pass; one that is refused sets an error bit and enables nothing. -/
def Sys2Proof.Claims.PartitionRegistersTakeCheckedWrites : Prop :=
  ∀ (s : State) (n d v : W64), let i := n.toNat; let e := d.toNat
    (i < 16 → v.getLsbD 63 = true → (artOf s i).en = false → lockedVfs s (frozenArt i) = [] → let a := (artOf s i).withCtl v
      (artOk s a = true → exec (.artEnable n v) s = .next { s with pf := { s.pf with
          arts := s.pf.arts.set i { a with en := true, err := false } } } ∧
        8 ≤ a.gran.toNat ∧ a.gran.toNat ≤ 30 ∧ a.smask ≠ 0 ∧ a.chm ≠ 0 ∧ a.base.toNat ≤ a.lim.toNat ∧
        a.lo % 2 ^ a.gran.toNat = 0 ∧ ∀ st, st < 12 → a.smask.getLsbD st = true → s.pf.stk.getLsbD st = true) ∧
      (artOk s a = false → exec (.artEnable n v) s = .next { s with pf := { s.pf with
          arts := s.pf.arts.set i { a with en := false, err := true } } })) ∧
    (i < 64 → lockedVfs s (frozenPart i) = [] →
      (e < 4 → let ways := v.extractLsb' 0 32; let pin := v.extractLsb' 32 32; let gone := mapGet (s.part i).ways e 0 &&& ~~~ways
        (pin &&& ~~~ways = 0 → ways &&& waysTaken s i e = 0 → ∃ t, exec (.wshareWrite n d v) s = .next t ∧
          mapGet (t.part i).ways e 0 = ways ∧ mapGet (t.part i).pin e 0 = pin ∧ (t.die e).drain = (s.die e).drain ||| gone ∧
          t.mem = s.mem ∧ t.cols = s.cols) ∧
        ((pin &&& ~~~ways ≠ 0 ∨ ways &&& waysTaken s i e ≠ 0) → exec (.wshareWrite n d v) s = .next { s with pf := { s.pf with err := true } })) ∧
      (v.getLsbD 63 = true → (s.part i).en = false → let p := (s.part i).withCtl v
        (partOk s i p = true → exec (.partctlEnable n v) s = .next (s.updPart i (fun _ => { p with en := true })) ∧
          p.clu ≠ 0 ∧ 4 ≤ p.tlog.toNat ∧ p.tlog.toNat ≤ 12 ∧ ∀ c ∈ p.clusters, s.pf.clu.getLsbD c = true) ∧
        (partOk s i p = false → ∃ t, exec (.partctlEnable n v) s = .next t ∧ (t.part i).en = false ∧ t.pf.err = true)) ∧
      ((s.part i).en = true → v.getLsbD 63 = false → (s.part i).withCtl v = s.part i → isVacant s i = true →
        (∀ f ∈ s.vfs, f.2.en = true → f.2.part.toNat ≠ i) → ∃ t, exec (.partctlDisable n v) s = .next t ∧
          (t.part i).en = false ∧ ∀ c ∈ (s.part i).clusters, (t.clu c).l1 = [] ∧ (t.clu c).tlb = []) ∧
      (let slice := v.extractLsb' 32 16; let wd := v.extractLsb' 0 5
        (slice = 0 ∨ 10 ≤ slice.toNat → 12 ≤ wd.toNat → wd.toNat ≤ 30 → exec (.schedctlWrite n v) s = .next (s.updPart i (fun p =>
          { p with slice := slice, migen := v.getLsbD 31, migmax := v.extractLsb' 16 8, wdlog := wd })))))

/-- R158, R159, R201: at its die the sweep of a shrunken share passes one set and leaves in its draining ways only lines that a
solder lock keeps; once every set is passed and no line is left in those ways the drain mask clears. -/
def Sys2Proof.Claims.SliceShrinkSweepsSetBySet : Prop :=
  ∀ (s : State), let d := s.cur.place; let x := s.die d
    (x.drain ≠ 0 → x.swept < 16384 → ∃ t, exec .sliceShrinkSweep s = .next t ∧ (t.die d).swept = x.swept + 1 ∧ (t.die d).drain = x.drain ∧
      ∀ l ∈ (t.die d).slice, sliceSet l.line = x.swept → x.drain.getLsbD l.way = true → locked s l.line = true) ∧
    (x.drain ≠ 0 → 16384 ≤ x.swept → (∀ l ∈ x.slice, x.drain.getLsbD l.way = false) →
      exec .sliceShrinkComplete s = .next (s.updDie d (fun y => { y with drain := 0, swept := 0 }))) ∧
    (x.swept < 16384 ∨ (∃ l ∈ x.slice, x.drain.getLsbD l.way = true) → exec .sliceShrinkComplete s = .next s)

/-- Registers of ranges, shares and partitions take checked writes, and a shrunken share is swept. -/
def Obligations.PartitionRegistersAndShares : Prop :=
  Sys2Proof.Claims.PartitionRegistersTakeCheckedWrites ∧ Sys2Proof.Claims.SliceShrinkSweepsSetBySet

/-- R283, R292, R293: setting EN of VFCFG enables a VF whose write passes its checks; clearing it, or a function-level reset,
raises GEN and resets the VF's registers; PAUSE and its clearing stop and restart it. -/
def Sys2Proof.Claims.VirtualFunctionsStartStopAndPause : Prop :=
  ∀ (s : State) (vf v : W64), let n := vf.toNat; let f := s.vf n; let g := f.withCfg v
    let isReset (t : State) (en : Bool) : Prop := (t.vf n).gen = f.gen + 1 ∧ (t.vf n).en = en ∧ (t.vf n).enabled = en ∧
      (t.vf n).paused = false ∧ (t.vf n).inval = none ∧ (t.vf n).gsw = .idle ∧ (t.vf n).jobs = [] ∧ (t.vf n).q.sqbase = 0 ∧
      (t.vf n).q.sqhead = 0 ∧ (t.vf n).q.eqbase = 0 ∧ (t.vf n).q.eqtail = 0 ∧ (t.vf n).q.eqhead = 0 ∧ (t.vf n).q.ien = false ∧
      (t.vf n).q.sqerr = false
    n < 1024 → lockedVfs s (frozenVf n) = [] →
      (f.en = false → v.getLsbD 63 = true → v.getLsbD 62 = f.pause →
        (vfOk s g = true → exec (.vfcfgEnable vf v) s = .next (s.updVf n (fun _ => { g with en := true, enabled := true }))) ∧
        (vfOk s g = false → ∃ t, exec (.vfcfgEnable vf v) s = .next t ∧ (t.vf n).en = false ∧ t.pf.err = true)) ∧
      (f.en = true → v.getLsbD 63 = false → v.getLsbD 62 = f.pause → g = f →
        ∃ t, exec (.vfcfgDisable vf v) s = .next t ∧ isReset t false) ∧
      (∃ t, exec (.functionLevelReset vf) s = .next t ∧ isReset t f.en) ∧
      (v.getLsbD 63 = f.en → (f.en = true → g = f) → v.getLsbD 62 = true → f.pause = false →
        ∃ t, exec (.vfPause vf v) s = .next t ∧ (t.vf n).pause = true ∧ (colsOf s n = [] → (t.vf n).paused = true)) ∧
      (v.getLsbD 63 = f.en → (f.en = true → g = f) → v.getLsbD 62 = false → f.pause = true →
        holdsPart (s.updVf n (fun _ => g)) n = false →
        exec (.vfUnpause vf v) s = .next { s.updVf n (fun _ => { g with
            pause := false, paused := false, held := [], q := { f.q with evbuf := f.q.evbuf ++ f.held } }) with
          saved := s.saved.map (fun x => (x.1, if x.2.vf = n ∧ x.2.why = .pause then { x.2 with why := .slice } else x.2)) })

/-- R8, R160, R190, R230, R263, R270, R276, R278, R284, R296, R301 and Tables 6.9, 11.6, 11.9, 11.10, 12.3, 12.4: a write to a register
without a step of its own changes that register, and one to a read-only register changes nothing. -/
def Sys2Proof.Claims.RegisterWritesReachTheirRegisters : Prop :=
  ∀ (s : State) (v x : W64) (n : Nat),
    let writes (space off : Nat) (t : State) : Prop := exec (.registerWrite (BitVec.ofNat 64 space) (BitVec.ofNat 64 off) v) s = .next t
    let bar (off : W64) (t : State) : Prop := exec (.registerWrite x off v) s = .next t
    (n < 1024 → barNum x = n + 1 → barOpen s n x = true →
      bar 0x30 (s.updVf n (fun f => { f with q := { f.q with eqhead := v.setWidth 32 } })) ∧
      bar 0x38 (s.updVf n (fun f => { f with q := { f.q with modus := v.extractLsb' 16 16, ien := v.getLsbD 8, vec := v.extractLsb' 0 2 } })) ∧
      bar 0x40 (if v.getLsbD 3 then s.updVf n (fun f => { f with q := { f.q with cfgerr := false } }) else s) ∧
      bar 0x1A0 (s.updVf n (fun f => { f with gswSave := v })) ∧ bar 0x1A8 (s.updVf n (fun f => { f with gswLoad := v })) ∧ bar 0x198 s) ∧
    (n < 1024 → barNum x = n + 1 → barOpen s n x = false → ∀ off, bar off { s with host := { s.host with ur := x :: s.host.ur } }) ∧
    (n < 1024 → lockedVfs s (frozenVf n) = [] →
      writes 0 (0x38000 + 8 * n) (s.updVf n (fun f => { f with ctxbase := v &&& 0xFFFFFFFFFFFFF })) ∧
      writes (2048 + n) 0 (s.updVf n (fun f => { f with bar0 := v &&& 0xFFFFFFFFFFFF0000 })) ∧
      ((s.vf n).en = false → writes 0 (0x3A000 + 16 * n) (s.updVf n (fun f => { f with ptroot := v &&& 0xFFFFFFFFFF000 }))) ∧
      ((s.vf n).en = true → writes 0 (0x3A000 + 16 * n) { s with pf := { s.pf with err := true } })) ∧
    (n < 64 → writes 0 (0x34008 + 64 * n) (s.updPart n (fun p => { p with allow := v.setWidth 24 })) ∧
      (lockedVfs s (frozenPart n) = [] →
        writes 0 (0x32008 + 16 * n) (s.updPart n (fun p => { p with schedbase := v &&& 0xFFFFFFFFFF000 })) ∧
        ((s.part n).en = false → writes 0 (0x36000 + 64 * n) (s.updPart n (fun p => { p with clu := v }))))) ∧
    (n < 16 → lockedVfs s (frozenArt n) = [] → (artOf s n).en = false →
      writes 0 (0x20000 + 32 * n) { s with pf := { s.pf with arts := s.pf.arts.set n { artOf s n with base := v.extractLsb' 8 44 } } } ∧
      writes 0 (0x20008 + 32 * n) { s with pf := { s.pf with arts := s.pf.arts.set n { artOf s n with lim := v.extractLsb' 8 44 } } }) ∧
    (n < 16 → let w := s.pf.wins.getD n Win.reset; lockedVfs s (frozenPart w.part.toNat) = [] →
      writes 0 (0x3F000 + 32 * n) { s with pf := { s.pf with wins := s.pf.wins.set n { w with base := v.extractLsb' 8 44 } } } ∧
      let w2 := { w with en := v.getLsbD 63, perm := v.extractLsb' 32 3, part := v.extractLsb' 0 6 }
      writes 0 (0x3F010 + 32 * n) { s with pf := { s.pf with wins := s.pf.wins.set n w2 } }) ∧
    (n < 4 → v.extractLsb' 32 32 ≠ 0 → v.extractLsb' 0 16 ≠ 0 →
      writes 0 (0x3E000 + 16 * n) (s.updDie n (fun x => { x with dly := v.extractLsb' 32 32, th := v.extractLsb' 0 16 }))) ∧
    writes 3072 0 { s with host := { s.host with atomEn := v.getLsbD 0 } } ∧
    writes 0 0x1000 s ∧ writes 0 0x1018 s ∧ writes 0 0x1048 s

/-- R298, R299: a write to a register that a locked TDI freezes changes nothing but takes that TDI, with its steps 1 to 4 of R293,
to ERROR. -/
def Sys2Proof.Claims.FrozenRegistersTakeTheTdiToError : Prop :=
  ∀ (s : State) (n d v : W64) (f : Nat), let i := n.toNat
    (i < 64 → lockedVfs s (frozenPart i) = [f] →
      (d.toNat < 4 → exec (.wshareWrite n d v) s = .next (tdiError s f)) ∧ exec (.schedctlWrite n v) s = .next (tdiError s f) ∧
      ((s.part i).en = false → v.getLsbD 63 = true → exec (.partctlEnable n v) s = .next (tdiError s f)) ∧
      ((s.part i).en = true → v.getLsbD 63 = false → exec (.partctlDisable n v) s = .next (tdiError s f))) ∧
    (i < 16 → v.getLsbD 63 = true → (artOf s i).en = false → lockedVfs s (frozenArt i) = [f] →
      exec (.artEnable n v) s = .next (tdiError s f)) ∧
    ((tdiError s f).vf f).tdi = .error

/-- Other register writes reach their registers, and frozen ones take the TDI to ERROR. -/
def Obligations.RegisterWritesAndFrozenRegisters : Prop :=
  Sys2Proof.Claims.RegisterWritesReachTheirRegisters ∧ Sys2Proof.Claims.FrozenRegistersTakeTheTdiToError

/-! ## Device steps: quench -/

/-- R270 to R275: a posting at or after a deadline in force is merged; one under 60 µs away, or for which some queue fits no
course, is rejected; one that fits is accepted; where every queue allows DISC, every other posting fits. -/
def Sys2Proof.Claims.QuenchPostingsAreEvaluated : Prop :=
  ∀ (s : State) (p v : W64), let n := p.toNat; let now := s.time.toNat; let x := s.part n
    let ks := runningCols s n; let r := evalQueues s x ((v.toNat - now) * perNs x) ks (queuesIn s x ks) 0
    let rejects (why : BitVec 4) : Prop := exec (.qndlWrite p v) s = .next (s.updPart n (fun q =>
      if x.state = .accepted then { q with rej := true, merged := false, reason := why }
      else { q with state := .infeasible, rej := false, merged := false, reason := why }))
    n < 64 →
      (x.state = .accepted → x.qndl.toNat ≤ v.toNat →
        exec (.qndlWrite p v) s = .next (s.updPart n (fun q => { q with merged := true, rej := false }))) ∧
      (¬(x.state = .accepted ∧ x.qndl.toNat ≤ v.toNat) →
        (v.toNat < now + 60000 → rejects 1) ∧ (now + 60000 ≤ v.toNat → r = none → rejects 2) ∧
        (now + 60000 ≤ v.toNat → ∀ l b, r = some (l, b) → ∃ t, exec (.qndlWrite p v) s = .next t ∧ (t.part n).state = .accepted ∧
          (t.part n).qndl = v ∧ (t.part n).rej = false ∧ (t.part n).merged = false ∧ (t.part n).reason = 0) ∧
        (now + 60000 ≤ v.toNat → (∀ q ∈ queuesIn s x ks, allowed x q.1 2 = true) → ∃ l b, r = some (l, b)))

/-- R271, R273: at the moment that R273 gives, a RUN instance takes its fallback, and one that falls back to a checkpoint is
pre-empted. -/
def Sys2Proof.Claims.QuenchFallbackIsTakenInTime : Prop :=
  ∀ (s : State) (p colour : W64) (q : QCourse) (k : Colour), let n := p.toNat; let c : BitVec 12 := colour.setWidth 12
    courseOf (s.part n) c = some q → (s.part n).state = .accepted → q.course = .run → q.vacated = false → q.fallback = .ckpt →
    s.col? c.toNat = some k → preempted k = false →
      (fallbackDue s (s.part n) q = true → ∃ t y, exec (.quenchFallback p colour) s = .next t ∧
        courseOf (t.part n) c = some { q with course := .ckpt } ∧ t.col? c.toNat = some y ∧ y.want = some .quench ∧ y.noStart = true) ∧
      (fallbackDue s (s.part n) q = false → exec (.quenchFallback p colour) s = .next s)

/-- R274 and Table 12.5: a partition under an accepted quench with no colour bound and nothing dirty becomes vacant: QNDONE takes
the time, and an event of type 10 is raised. -/
def Sys2Proof.Claims.QuenchVacancyIsReported : Prop :=
  ∀ (s : State) (p : W64), let n := p.toNat
    (s.part n).state = .accepted → (∀ k ∈ s.cols, k.2.part ≠ n) → s.pf.q.evbuf.length < 64 → s.pf.q.pend = [] →
    (∀ c ∈ (s.part n).clusters, (s.clu c).l1 = []) → (∀ d ∈ s.dies, ∀ l ∈ d.2.slice, l.part = n → l.dirty = false) →
      ∃ t e, exec (.quenchVacancy p) s = .next t ∧ (t.part n).state = .vacant ∧ (t.part n).qndone = s.time ∧
        t.pf.q.evbuf = s.pf.q.evbuf ++ [e] ∧ e.ty = 10 ∧ e.info = (t.part n).qnWord ∧ t.mem = s.mem ∧ t.cols = s.cols

/-- A quench from its posting to vacancy. -/
def Obligations.QuenchFromPostingToVacancy : Prop :=
  Sys2Proof.Claims.QuenchPostingsAreEvaluated ∧ Sys2Proof.Claims.QuenchFallbackIsTakenInTime ∧ Sys2Proof.Claims.QuenchVacancyIsReported

/-! ## Device steps: queues and events -/

/-- R284 to R287: a ring base is taken while its ring is empty and no job is in flight, with its counters at 0, and is refused with
CFGERR otherwise; a doorbell gives the new TAIL, and one that breaks R287 puts the queue in error, which SQHEAD ends. -/
def Sys2Proof.Claims.QueueRegistersAndDoorbells : Prop :=
  ∀ (s : State) (vf v : W64), let n := barNum vf; let q := queuesOf s n
    let refused : State := updQueues s n (fun q => { q with cfgerr := true }); let log := v.toNat % 64
    let t : BitVec 32 := v.setWidth 32
    n ≤ 1024 → barOpen s n vf = true →
      (q.sqhead = q.sqtail → jobInFlight s n = false → 6 ≤ log → log ≤ 16 → exec (.sqbaseWrite vf v) s = .next (updQueues s n (fun q =>
        { q with sqbase := v &&& 0xFFFFFFFFFFFFF03F, sqhead := 0, sqtail := 0 }))) ∧
      (q.sqhead ≠ q.sqtail ∨ jobInFlight s n = true ∨ log < 6 ∨ 16 < log → exec (.sqbaseWrite vf v) s = .next refused) ∧
      (q.eqtail = q.eqhead → jobInFlight s n = false → 6 ≤ log → log ≤ 16 → exec (.eqbaseWrite vf v) s = .next (updQueues s n (fun q =>
        { q with eqbase := v &&& 0xFFFFFFFFFFFFF03F, eqtail := 0, eqhead := 0 }))) ∧
      (q.eqtail ≠ q.eqhead ∨ jobInFlight s n = true ∨ log < 6 ∨ 16 < log → exec (.eqbaseWrite vf v) s = .next refused) ∧
      (q.sqerr = true → exec (.sqheadWrite vf v) s = .next (updQueues s n (fun q => { q with sqhead := t, sqtail := t, sqerr := false }))) ∧
      (n = 1024 ∨ (s.vf n).runs = true → q.sqerr = false → t ≠ q.sqtail →
        ((t - q.sqtail).toNat < 2 ^ 31 → (t - q.sqhead).toNat ≤ ringSize q.sqbase →
          exec (.sqDoorbell vf v) s = .next (updQueues s n (fun q => { q with sqtail := t }))) ∧
        (2 ^ 31 ≤ (t - q.sqtail).toNat ∨ ringSize q.sqbase < (t - q.sqhead).toNat →
          ∃ u, exec (.sqDoorbell vf v) s = .next u ∧ (queuesOf u n).sqerr = true ∧ (queuesOf u n).sqtail = q.sqtail))

/-- R149, R166, R285: an INVAL write with a legal range starts an invalidation, an illegal one sets CFGERR; the invalidation ends once
nothing that was translated through the range has still to issue, and no TLB of the VF's clusters nor walk cache then maps the range. -/
def Sys2Proof.Claims.InvalidationEmptiesTheTlbs : Prop :=
  ∀ (s : State) (vf v : W64), let n := barNum vf; let va := v.toNat / 4096 * 4096; let log := (v.extractLsb' 6 6).toNat
    (n < 1024 → barOpen s n vf = true →
      ((s.vf n).inval = none → 12 ≤ log → log ≤ 57 → va % 2 ^ log = 0 →
        exec (.invalWrite vf v) s = .next (s.updVf n (fun f => { f with inval := some (va, 2 ^ log) }))) ∧
      ((s.vf n).inval ≠ none ∨ log < 12 ∨ 57 < log ∨ va % 2 ^ log ≠ 0 →
        exec (.invalWrite vf v) s = .next (s.updVf n (fun f => { f with q := { f.q with cfgerr := true } })))) ∧
    (n < 1024 → barOpen s n vf = false → exec (.invalWrite vf v) s = .next { s with host := { s.host with ur := vf :: s.host.ur } }) ∧
    (∀ lo m, let w := vf.toNat; let cs := (s.part (s.vf w).part.toNat).clusters; (s.vf w).inval = some (lo, m) →
      (invalDone s w lo m = false → exec (.invalidationComplete vf) s = .next s) ∧
      (invalDone s w lo m = true → ∃ t, exec (.invalidationComplete vf) s = .next t ∧ (t.vf w).inval = none ∧ t.reqs = s.reqs ∧ t.cols = s.cols ∧
        (∀ c ∈ cs, ∀ e ∈ (t.clu c).tlb, e.vf = w → overlaps e.va (2 ^ e.size) lo m = false) ∧
        (∀ u, cluOfTile u ∈ cs → ∀ e ∈ (t.tile u).utlb, e.vf = w → overlaps e.va (2 ^ e.size) lo m = false) ∧
        (∀ d ∈ t.dies, ∀ e ∈ d.2.wcache, e.vf = w →
          overlaps (e.key * 2 ^ (12 + 9 * e.level)) (2 ^ (12 + 9 * e.level)) lo m = false)))

/-- R235, R288 to R291, R523, R524: the oldest event of a function is written at the ring slot that EQTAIL names, with PH, and EQTAIL
advances; an event that ends a job takes the job with it; a slot that cannot be written is reported to the physical function and tried
again; a message of the vector goes out when one is due. -/
def Sys2Proof.Claims.EventsAreWrittenInOrder : Prop :=
  ∀ (s u : State) (vf : W64) (e : Event) (rest : List Event) (cause reason : BitVec 8) (va : Nat), let n := vf.toNat; let q := queuesOf s n
    let slot := q.eqbase.toNat / 4096 * 4096 + 32 * (q.eqtail.toNat % 2 ^ (q.eqbase.toNat % 64))
    let ph := q.eqtail.toNat / 2 ^ (q.eqbase.toNat % 64) % 2 == 0
    let put : State := updQueues u n (fun q => { q with evbuf := rest, eqtail := q.eqtail + 1, evFault := none, msixDue := q.msixDue || q.ien })
    let after : State := if n ≠ 1024 ∧ (e.ty = 1 ∨ e.ty = 2) then
      put.updVf n (fun f => { f with jobs := f.jobs.filter (fun j => !(j.id == e.id && j.ended)) }) else put
    (n = 1024 ∨ (n < 1024 ∧ e.gen = (s.vf n).gen ∧ (s.vf n).tdi ≠ .error) → q.evbuf = e :: rest → e.acks = [] → e.emit = none →
      e.clear = [] → eventRoom q = true →
        (ringWrite s n slot (e.bytes ph) = .ok [] u → (queuesOf u n).pend = [] →
          (q.evFault = none → exec (.eventWrite vf) s = .next after) ∧ (q.evFault ≠ none → exec (.eventSlotRetry vf) s = .next after)) ∧
        (ringWrite s n slot (e.bytes ph) = .fault cause reason va u → q.evFault = none → (queuesOf u n).evFault = none →
          exec (.eventWrite vf) s = .next (raisePf (updQueues u n (fun q => { q with evFault := some u.clk })) { Event.zero with
            ty := 6, cause := cause, reason := reason, addr := BitVec.ofNat 64 slot }))) ∧
    (q.msixDue = true → q.ien = true → (∀ t, mapGet? q.msixLast q.vec.toNat = some t → t + usClk q.modus.toNat ≤ s.clk) → ∃ t,
      exec (.msixMessage vf) s = .next t ∧ t.host.msix = (n, q.vec.toNat) :: s.host.msix ∧ (queuesOf t n).msixDue = false ∧
      mapGet? (queuesOf t n).msixLast q.vec.toNat = some s.clk ∧ (queuesOf t n).eqtail = q.eqtail ∧ t.mem = s.mem)

/-- Queue registers, doorbells and events. -/
def Obligations.QueuesTakeDoorbellsAndWriteEvents : Prop :=
  Sys2Proof.Claims.QueueRegistersAndDoorbells ∧ Sys2Proof.Claims.EventsAreWrittenInOrder

/-! ## Device steps: traps -/

/-- R135, R250 to R253: a tile acknowledges a stop once nothing of the frame is open on it; a frame that every tile has stopped,
with nothing in flight, has its header and its records written to its slot; a frame without a slot looks for one, and a write of
the area that faulted is tried again. -/
def Sys2Proof.Claims.StoppedFramesAreWrittenToTheirSlots : Prop :=
  ∀ (s u : State) (colour frame tile : W64) (k : Colour) (x : Frame) (n : Nat),
    let c : BitVec 12 := colour.setWidth 12; let f : BitVec 12 := frame.setWidth 12; let t := tile.toNat
    let bytes := slotHeader k c x x.recs.length (1 + faultIdx x) ++ x.recs.flatMap Record.bytes
    let raised : State := updFrame u c f (fun y => { y with phase := .raised, areaFault := false, frec := 1 + faultIdx x })
    s.col? c.toNat = some k → frame? s c f = some x → x.phase = .stopping →
      (t ∈ x.awaitTiles → (∀ st ∈ stakesOn s c t, firingOpen s k c f st = false) →
        (∀ r ∈ reqsOf s c f, r.2.phase = .chan → r.2.ptile ≠ t) → exec (.frameStopAck colour frame tile) s =
          .next (updFrame s c f (fun y => { y with awaitTiles := setDel y.awaitTiles t, stopped := setIns y.stopped t }))) ∧
      (x.slot = some n → x.awaitTiles = [] → reqsOf s c f = [] → x.recs.length ≤ 2047 →
        devWrite s k.vf (slotVa k n + 1) bytes true = .ok [] u → exec (.trapRaise colour frame) s = .next raised ∧
        (k.slotWrites = [] → exec (.replayAreaWriteRetry colour frame) s = .next raised)) ∧
      (x.slot = none → findSlot s k k.slots 0 = .found n u → u.col? c.toNat = some k → ∃ v y,
        exec (.replaySlotRetry colour frame) s = .next v ∧ frame? v c f = some y ∧ y.slot = some n ∧ y.phase = .stopping ∧
        v.mem = u.mem ∧ v.net = u.net)

/-- R254, R255: a raised trap goes to the host with a TRAP event, or, where TRAPVEC enables a handler that can take it, to the
handler's queue; the frame then stands stopped. -/
def Sys2Proof.Claims.TrapsReachTheHostOrTheHandler : Prop :=
  ∀ (s u w : State) (colour frame : W64) (k : Colour) (x : Frame) (n : Nat),
    let c : BitVec 12 := colour.setWidth 12; let f : BitVec 12 := frame.setWidth 12
    let stopped (t : State) : State := updFrame t c f (fun y => { y with phase := .stopped, areaFault := false })
    s.col? c.toNat = some k → frame? s c f = some x → x.phase = .raised → x.slot = some n →
      (handlerOf s k x = none → canRaise s k.vf = true → writeState s k n 1 = .ok [] u →
        exec (.trapDelivery colour frame) s = .next (stopped (raise u k.vf { Event.zero with
          ty := 3, colidx := BitVec.ofNat 16 (colidx s c.toNat), id := recJob x.task, frame := x.num.setWidth 16, cause := x.cause,
          reason := x.reason, addr := BitVec.ofNat 64 (slotVa k n) }))) ∧
      (x.cause = cBRK ∨ x.handler = true ∨ k.trapvec.getLsbD 15 = false → handlerOf s k x = none) ∧
      (∀ h, handlerOf s k x = some h → let idx := (s.part h.part).idx k.hcol
        pushRecord s h.part idx (trapRecord s k h c x n) = .ok u → writeState u k n 2 = .ok [] w →
          exec (.trapDelivery colour frame) s = .next (stopped (w.updPart h.part (fun p => { p with
            trapRecs := p.trapRecs ++ [(idx, BitVec.ofNat 32 (readDesc s (taskDescAt (s.part h.part) idx 7)).tail)] }))))

/-- R37, R256 to R258 and Table 11.5: a write of TRAPRES resumes or kills the frame stopped in the slot that it names, and one that
names no such slot raises an error event and changes nothing else. A killed frame enters the retiring set, or waits for a place there. -/
def Sys2Proof.Claims.TrapresResumesOrKillsAFrame : Prop :=
  ∀ (s u w z : State) (vf v : W64) (k : Colour) (x : Frame) (st : Byte) (recs : List Record),
    let n := barNum vf; let p := s.part (s.vf n).part.toNat; let idx := (v.extractLsb' 20 12).toNat
    let slot := (v.extractLsb' 8 6).toNat; let c : BitVec 12 := BitVec.ofNat 12 (p.tbase.toNat + idx)
    barOpen s n vf = true →
    (p.block ≤ idx ∨ s.col? c.toNat = none → let t : State := raise s n { Event.zero with
        ty := 7, status := 5, colidx := BitVec.ofNat 16 idx }
      exec (.trapresResume vf v) s = .next t ∧ exec (.trapresKill vf v) s = .next t) ∧
    (idx < p.block → s.col? c.toNat = some k → k.vf = n → slot < k.slots → frameInSlot k slot = some x →
      devRead s n (slotVa k slot) 1 true = .ok [st] u → st = 1 ∨ st = 2 → u.col? c.toNat = some k → frame? u c x.num = some x →
        (v.extractLsb' 0 2 = 2 → ∃ t y, exec (.trapresKill vf v) s = .next t ∧
          t = killFrame u c x.num true 3 ∧ frame? t c x.num = some y ∧ y.recs = [] ∧ y.slot = none ∧
          y.phase = (if k.retiring.length < 16 then .purging else .killed)) ∧
        (v.extractLsb' 0 2 = 1 → let s1 := updFrame u c x.num (fun y => { y with phase := .restarting, areaFault := false })
          writeState s1 k slot 3 = .ok [] w → (∃ bs, readRecords w k slot x.recs = (.ok bs z, recs)) →
            exec (.trapresResume vf v) s = .next (resumeMore (updFrame z c x.num (fun y =>
              { y with phase := .resuming, recs := recs, areaFault := false })) c x.num)))

/-- A trap from the stopped frame to TRAPRES. -/
def Obligations.TrapsAreRaisedDeliveredAndResolved : Prop :=
  Sys2Proof.Claims.StoppedFramesAreWrittenToTheirSlots ∧ Sys2Proof.Claims.TrapsReachTheHostOrTheHandler ∧ Sys2Proof.Claims.TrapresResumesOrKillsAFrame

/-! ## Device steps: the wave store buffer -/

/-- R126, R128, R130, R135, R138: a request that reaches its buffer, which takes four in a clk, is held there in a free general entry,
halts its frame with ILLOP where its place in wave order has passed, joins the replay queue of a stopped frame, and is dropped for a
frame that has gone. -/
def Sys2Proof.Claims.RequestsArriveAtTheirBuffer : Prop :=
  ∀ (s : State) (colour lstake : W64) (id : Nat) (r : Request) (x : Frame),
    let c : BitVec 12 := colour.setWidth 12; let l : BitVec 16 := lstake.setWidth 16
    let off (t : State) : State := endReqExt (usePort (leaveRing t r) r.home) c l
    chanReq s c l = some (id, r) → s.req? id = some r → frame? s c r.frame = some x →
      (4 ≤ portTaken s r.home → exec (.wsbRequestArrival colour lstake) s = .next s) ∧
      (portTaken s r.home < 4 → x.phase = .live ∨ x.phase = .ending → r.translated = true → generalFree s x.home = true →
        (r.ctl = true ∨ behind x r.wave r.own = false → ∃ t q, exec (.wsbRequestArrival colour lstake) s = .next t ∧
          t.req? id = some q ∧ q.phase = .held ∧ q.resv = false ∧ q.acc = s.nextReq ∧ t.nextReq = s.nextReq + 1 ∧ t.mem = s.mem ∧ t.net = s.net) ∧
        (r.ctl = false → behind x r.wave r.own = true → exec (.wsbRequestArrival colour lstake) s =
          .next (off (haltReq s id { r with home := x.home } cILLOP 0 0)))) ∧
      (portTaken s r.home < 4 → x.phase = .stopped → x.slot ≠ none → r.translated = true → exec (.wsbRequestArrival colour lstake) s =
        .next (off (updFrame (s.delReq id) c r.frame (fun y =>
          { y with recs := insertRecord y.cw (requestRecord id r false) y.recs })))) ∧
      (portTaken s r.home < 4 → x.phase = .purging ∨ x.phase = .killed →
        exec (.wsbRequestArrival colour lstake) s = .next (off (countPurged (s.delReq id) c 1)))

/-- R127 to R130, R134: of a frame that may link and whose turn it is at its buffer, the one linkable request links and issues, the
chain takes its OWN and SUCC, and at the end of a wave the next one opens; two linkable requests, or links that disagree with the
chain, halt the frame with ILLOP; a request that carries a fault raises it as it links. -/
def Sys2Proof.Claims.RequestsLinkInWaveOrder : Prop :=
  ∀ (s : State) (colour frame : W64) (k : Colour) (x : Frame) (id : Nat) (r : Request),
    let c : BitVec 12 := colour.setWidth 12; let f : BitVec 12 := frame.setWidth 12
    let hs := heldOf s c f; let ls := hs.filter (fun q => linkable x q.2)
    let chain : Frame := if r.succ = seqNone then { x with cw := x.cw + 1, last := none, nxt := none }
      else { x with last := some r.own, nxt := if r.succ = seqUnknown then none else some r.succ }
    s.col? c.toNat = some k → frame? s c f = some x → x.phase = .live ∨ x.phase = .ending →
    (mayLink s k c x = false ∨ linkTurn s c x = false → exec (.wsbLink colour frame) s = .next s) ∧
    (mayLink s k c x = true → linkTurn s c x = true → (∀ q ∈ hs, q.2.again = false) →
      (ls = [] → exec (.wsbLink colour frame) s = .next s) ∧
      (ls = [(id, r)] → badLink x r = true → exec (.wsbLink colour frame) s = .next (haltReq s id r cILLOP 0 0)) ∧
      (ls = [(id, r)] → badLink x r = false → r.translated = true →
        (∀ cause reason a, linkFault s r = some (cause, reason, a) →
          exec (.wsbLink colour frame) s = .next (haltReq s id r cause reason a)) ∧
        (linkFault s r = none → r.opcode = 0x71 → r.supply = false → ∃ t q, exec (.wsbLink colour frame) s = .next t ∧
          frame? t c f = some chain ∧ t.req? id = some q ∧ q.phase = .issued ∧ q.order = s.nextReq ∧ q.opb = r.opb ∧
          t.mem = s.mem ∧ t.net = s.net)) ∧
      (∀ a b rest, ls = a :: b :: rest → ∃ q ∈ ls, (∀ y ∈ ls, q.2.own.toNat ≤ y.2.own.toNat) ∧
        exec (.wsbLink colour frame) s = .next (haltReq s q.1 q.2 cILLOP 0 0)))

/-- Requests arrive at their buffer and link in wave order. -/
def Obligations.RequestsArriveAndLinkInWaveOrder : Prop :=
  Sys2Proof.Claims.RequestsArriveAtTheirBuffer ∧ Sys2Proof.Claims.RequestsLinkInWaveOrder

/-- R180: the fence that has waited longest at a cluster takes a slot as one becomes free, under a number that no live ticket
has, and emits its ticket. -/
def Sys2Proof.Claims.WaitingFencesTakeFreeSlots : Prop :=
  ∀ (s : State) (id : Nat) (rest : List Nat) (r : Request), let h := s.cur.place; let cl := s.clu h
    cl.fenceWait = id :: rest → cl.tickets.length < 128 → s.req? id = some r → r.home = h →
    (∀ d ∈ resultDests r.common, chanExt s (destKey r.colour .unit r.lstake d.1 d.2) = false) → ∃ t tk,
      exec .fenceSlotGrant s = .next t ∧ (t.clu h).fenceWait = rest ∧ (t.clu h).tickets = cl.tickets ++ [tk] ∧
      (∀ y ∈ cl.tickets, y.tser ≠ tk.tser) ∧ tk.colour = r.colour ∧ tk.frame = r.frame ∧ t.mem = s.mem ∧ t.tiles = s.tiles ∧ t.vfs = s.vfs

/-- R175, R180: a wait for acknowledgements, of a request or of a ticket, lets the earlier epoch drain, then turns the epoch, then lets
its own drain. -/
def Sys2Proof.Claims.SyReleasesWaitForTwoEpochs : Prop :=
  ∀ (s : State) (req : W64) (q : Request) (k : Colour) (tk : Ticket), let out (b : Bool) := if b then k.out1 else k.out0
    let mine (y : Ticket) : Bool := y.tser == (req.setWidth 32 : BitVec 32) && y.colour == (req.extractLsb' 38 12 : BitVec 12) &&
      y.frame == (req.extractLsb' 50 12 : BitVec 12)
    let home := (req.extractLsb' 32 6).toNat
    (req.getLsbD 63 = false → s.req? req.toNat = some q → s.col? q.colour.toNat = some k → q.phase = .issued →
      (q.sy = 1 → out (!q.epoch) = 0 → ∃ t q' k', exec (.syReleaseDrain req) s = .next t ∧ t.req? req.toNat = some q' ∧
        t.col? q.colour.toNat = some k' ∧ k'.ep = (!q.epoch) ∧ q'.sy = (if out q.epoch = 0 then 3 else 2)) ∧
      (q.sy = 2 → out q.epoch = 0 → ∃ t q', exec (.syReleaseDrain req) s = .next t ∧ t.req? req.toNat = some q' ∧ q'.sy = 3) ∧
      ((q.sy = 1 ∧ out (!q.epoch) ≠ 0) ∨ (q.sy = 2 ∧ out q.epoch ≠ 0) → ∃ t q' k', exec (.syReleaseDrain req) s = .next t ∧
        t.req? req.toNat = some q' ∧ q'.sy = q.sy ∧ t.col? q.colour.toNat = some k' ∧ k'.ep = k.ep)) ∧
    (req.getLsbD 63 = true → (s.clu home).tickets.find? mine = some tk → s.col? tk.colour.toNat = some k → ∃ t tk',
      exec (.syReleaseDrain req) s = .next t ∧ (t.clu home).tickets.find? mine = some tk' ∧
      tk'.sy = (if tk.sy = 1 ∧ out (!tk.epoch) = 0 then (if out tk.epoch = 0 then 3 else 2)
        else if tk.sy = 2 ∧ out tk.epoch = 0 then 3 else tk.sy) ∧ tk'.covered = tk.covered ∧ t.reqs = s.reqs ∧ t.mem = s.mem)

/-- Waiting fences take free slots, and SY releases wait for two epochs. -/
def Obligations.FencesTakeSlotsAndReleasesDrain : Prop :=
  Sys2Proof.Claims.WaitingFencesTakeFreeSlots ∧ Sys2Proof.Claims.SyReleasesWaitForTwoEpochs

/-! ## Device steps: accesses perform -/

/-- R131 to R133, R136, R167, R174, R422, R471: an issued LD or ST whose order allows it performs at the place that its
translation names: a load returns the bytes that stand there, lane by lane, a store writes the bytes of operand B; one that must
wait changes nothing; an error on a page without TOL halts the frame with UE. -/
def Sys2Proof.Claims.LoadsAndStoresPerform : Prop :=
  ∀ (s u w : State) (req : W64) (k : Colour) (r : Request) (pa : Nat) (pte : W64) (bs : List RdByte) (d : List Byte),
    let id := req.toNat; let va := (n64 r.opa 0).toNat; let n := 2 ^ r.mem.sz.toNat
    s.req? id = some r → s.col? r.colour.toNat = some k → r.phase = .issued → r.done = 0 → r.tags = [] → r.data = 0 →
    pagePa r.pages va = some (pa, pte) → isRemote pa = false →
      (accessGate s r = false → r.opcode = 0x70 ∨ r.opcode = 0x71 → exec (.accessPerform req) s = .next s) ∧
      (accessGate s r = true → r.opcode = 0x70 → packRead s k r.home va pa n pte = .ok bs u →
        (deliverBytes u k r.common.ty pte pa bs = some (d, w) →
          exec (.accessPerform req) s = .next (performReq w id { r with data := bytesData d } (bytesData d))) ∧
        (deliverBytes u k r.common.ty pte pa bs = none → exec (.accessPerform req) s = .next (haltReq u id r cUE 0 va))) ∧
      (accessGate s r = true → r.opcode = 0x71 → packWrite s k r.home va pa (wrAll (natBytes n r.opb.toNat)) pte = .ok [] u →
        exec (.accessPerform req) s = .next (performReq u id r 0))

/-- R184, R424, R473: an LDF of a full line reads it and leaves it empty; an STE of an empty line writes it and leaves it full; one
that finds its line in the other state waits. -/
def Sys2Proof.Claims.FullEmptyAccessesKeepTheBit : Prop :=
  ∀ (s u w : State) (req : W64) (k : Colour) (r : Request) (pa : Nat) (pte : W64) (bs : List RdByte) (d : List Byte),
    let id := req.toNat; let va := (n64 r.opa 0).toNat; let n := 2 ^ r.mem.sz.toNat; let lt := pa / 2 ^ 19 % 512
    let line := pa % 2 ^ 19 / 64
    s.req? id = some r → s.col? r.colour.toNat = some k → r.phase = .issued → r.tags = [] → accessGate s r = true →
    pagePa r.pages va = some (pa, pte) → isScratch pa = true →
      (r.opcode = 0x74 → lineFull s k lt line = true → heldUp s r = false → packRead s k r.home va pa n pte = .ok bs u →
        deliverBytes u k r.common.ty pte pa bs = some (d, w) →
        exec (.fullEmptyPerform req) s = .next (performReq (scrFill w k lt [line] false) id r (bytesData d))) ∧
      (r.opcode = 0x75 → lineFull s k lt line = false → heldUp s r = false → exec (.fullEmptyPerform req) s = .next (performReq (scrFill
        (scrWr s k lt (pa % 2 ^ 19) (wrAll (natBytes n r.opb.toNat)) (pteTol pte)) k lt [line] true) id r 0)) ∧
      (r.opcode = 0x74 ∧ lineFull s k lt line = false ∨ r.opcode = 0x75 ∧ lineFull s k lt line = true →
        exec (.fullEmptyPerform req) s = .next s)

/-- R427, R428, R477: a line that an LDT has read goes to its scratch line, and one that an STT has read to memory; with FE the
scratch line's bit is set or cleared; the last line performs the request with the number of lines. -/
def Sys2Proof.Claims.LineCopiesMoveOneLine : Prop :=
  ∀ (s u : State) (req : W64) (k : Colour) (r : Request) (pa a : Nat) (pte : W64),
    let id := req.toNat; let lt := r.lstake.toNat / 128; let d := r.opa; let line := fld d 64 13 + r.done; let nl := fld d 80 13
    let fe := d.getLsbD 95; let result : W512 := BitVec.ofNat 512 nl
    s.req? id = some r → s.col? r.colour.toNat = some k → r.phase = .issued → accessGate s r = true → bitWaits s k r = false →
      (r.opcode = 0x72 → r.lineRd = true → let s1 := scrWr s k lt (64 * line) (wrAll (dataBytes r.data 64)) false
        let s2 := if fe then scrFill s1 k lt [line] true else s1
        (r.done + 1 = nl → exec (.ldtLineWrite req) s = .next (performReq s2 id { r with done := 0, lineRd := false } result)) ∧
        (r.done + 1 ≠ nl → exec (.ldtLineWrite req) s = .next (s2.updReq id (fun q => { q with done := r.done + 1, lineRd := false })))) ∧
      (r.opcode = 0x73 → r.done ≠ nl → r.lineRd = false → fe = false → anchorOf k lt = some a → anyBad (scrRd (s.tile a) (64 * line) 64) = false →
        exec (.sttLineWrite req) s = .next (s.updReq id (fun q => { q with
          data := bytesData ((scrRd (s.tile a) (64 * line) 64).map Prod.fst), lineRd := true }))) ∧
      (r.opcode = 0x73 → r.done ≠ nl → r.lineRd = true → r.tags = [] → pagePa r.pages (fld d 0 64 + 64 * r.done) = some (pa, pte) →
        isRemote pa = false → packWrite s k r.home (fld d 0 64 + 64 * r.done) pa (wrAll (dataBytes r.data 64)) pte = .ok [] u →
        (r.done + 1 = nl → exec (.sttLineWrite req) s = .next (performReq u id
          { r with done := 0, lineRd := false } result)) ∧
        (r.done + 1 ≠ nl → exec (.sttLineWrite req) s = .next (u.updReq id (fun _ => { r with done := r.done + 1, lineRd := false }))))

/-- Loads, stores, full/empty accesses and line copies perform. -/
def Obligations.LoadsStoresAndLineCopiesPerform : Prop :=
  Sys2Proof.Claims.LoadsAndStoresPerform ∧ Sys2Proof.Claims.FullEmptyAccessesKeepTheBit ∧ Sys2Proof.Claims.LineCopiesMoveOneLine

/-- R188 to R195, R371, R388, R463: an issued atomic whose turn at its line has come reads its lanes there and writes the lanes that
its operation gives, and performs with the old lanes and its status; an integer operation wraps in its lane, and a CAS writes
operand C where the lane equals operand B. -/
def Obligations.AtomicsReadModifyWrite : Prop :=
  ∀ (s u w : State) (req : W64) (k : Colour) (r : Request) (pa : Nat) (pte : W64) (old : List Byte) (bs : List RdByte),
    let id := req.toNat; let n := 2 ^ r.mem.sz.toNat; let t := r.common.ty; let x := rmwBytes r.opcode t r.common.aop n old r.opb r.opc
    (s.req? id = some r → s.col? r.colour.toNat = some k → r.phase = .issued → r.isRmw = true → accessGate s r = true →
      pagePa r.pages (n64 r.opa 0).toNat = some (pa, pte) → isHbm pa = true → hbmUsable s pa = true →
      let turn : DirReq := .rmw id (effHome pte pa != 3)
      (lineMine s (pa / 128) turn = false → exec (.atomicRmw req) s = .next s) ∧
      (lineMine s (pa / 128) turn = true → deliverBytes (noteUe s pa n) k t pte pa (homeRd s pa n) = some (old, u) →
        exec (.atomicRmw req) s = .next (dirDone (performReq (homeWr u pa (wrAll x.1) (pteTol pte)) id r x.2) (pa / 128) turn))) ∧
    (s.req? id = some r → s.col? r.colour.toNat = some k → r.phase = .issued → r.isRmw = true → accessGate s r = true →
      pagePa r.pages (n64 r.opa 0).toNat = some (pa, pte) → isScratch pa = true → packRead s k r.home (n64 r.opa 0).toNat pa n pte = .ok bs w →
      deliverBytes w k t pte pa bs = some (old, u) → exec (.atomicRmw req) s =
        .next (performReq (scrWr u k (pa / 2 ^ 19 % 512) (pa % 2 ^ 19) (wrAll x.1) (pteTol pte)) id r x.2)) ∧
    (t.isInt = true → n ≤ 32 → ∀ i, i < 8 * n / t.width →
      let o := lane (bytesData old) t.width i; let y := lane r.opb t.width i; let z := lane (bytesData x.1) t.width i
      (r.opcode = 0x7A → lane x.2 t.width i = o ∧ (r.common.aop = 0 → z = (o + y) % 2 ^ t.width) ∧ (r.common.aop = 1 → z = o &&& y) ∧
        (r.common.aop = 2 → z = o ||| y) ∧ (r.common.aop = 3 → z = o ^^^ y) ∧ (r.common.aop = 6 → z = y)) ∧
      (r.opcode = 0x7C → lane x.2 t.width i = o ∧ z = if o = y then lane r.opc t.width i else o))

/-- R52, R450, R451, R457, R458, R481: a control request goes to its unit once every earlier request of its frame has performed, a
QPOP at once; a push returns 0, 1 on a full queue or 2 where there is none, and a pop takes the oldest entry. -/
def Obligations.ControlRequestsReachTheirUnit : Prop :=
  ∀ (s u : State) (req : W64) (k : Colour) (x : Frame) (r : Request) (idx : Nat),
    let id := req.toNat; let d := userDesc s r.colour r.qsel
    let status (t : State) (n : Nat) : State := performReq t id r (BitVec.ofNat 512 n)
    s.req? id = some r → s.col? r.colour.toNat = some k → frame? s r.colour r.frame = some x → r.ctl = true → r.phase = .held →
    x.phase = .live ∨ x.phase = .ending → cutStops k = false → r.supply = false →
      (r.opcode ≠ 0x13 → ctlReady s r = false → exec (.controlRequestSend req) s = .next s) ∧
      (ctlReady s r = true → r.opcode = 0x10 →
        (targetIdx (s.part k.part) (fld r.opb 0 12) = none → exec (.controlRequestSend req) s = .next (haltReq s id r cSTRAY 0 0)) ∧
        (targetIdx (s.part k.part) (fld r.opb 0 12) = some idx → let res := pushRecord s k.part idx (recWithJob r.opa (recJob x.task))
          (res = .ok u → exec (.controlRequestSend req) s = .next (status u 0)) ∧
          (res = .full → exec (.controlRequestSend req) s = .next (status s 1)) ∧
          (res = .noQueue → exec (.controlRequestSend req) s = .next (status s 2)))) ∧
      (ctlReady s r = true → r.opcode = 0x14 → d.waits s d.tail = false → d.log ≠ 0 →
        (d.full = true → exec (.controlRequestSend req) s = .next (status s 1)) ∧
        (d.full = false → waitingPops s r.colour r.qsel = [] →
          exec (.controlRequestSend req) s = .next (status (setTail (physWr s (d.slot d.tail) (dataBytes r.opa 64)) d (d.tail + 1)) 0))) ∧
      (r.opcode = 0x13 → d.waits s d.head = false → d.log ≠ 0 → d.count ≠ 0 → let v : W512 := BitVec.ofNat 512 (cohNat s (d.slot d.head) 64)
        let s1 := setHead s d (d.head + 1)
        exec (.controlRequestSend req) s = .next (finishReq s1 id { r with phase := .performed } (popOut s1 r v))) ∧
      (r.opcode = 0x13 → d.waits s d.head = false → d.log ≠ 0 → d.count = 0 → r.common.d1.isResult = false →
        ∃ t q, exec (.controlRequestSend req) s = .next t ∧ t.req? id = some q ∧
        q.waiting = true ∧ q.phase = .issued ∧ t.mem = s.mem ∧ t.net = s.net)

/-! ## Device steps: translation -/

/-- R142 to R145, R155 to R157, R165, R166: a granule that a request waits for takes a miss slot and a walk of its die; the walk notes
what the tables say; a walk that has ended answers every request of the die that waits, enters the TLBs and frees its slots; a PRIVATE
page of another cluster becomes SHARED first. -/
def Sys2Proof.Claims.WalksFillTheTlbs : Prop :=
  ∀ (s : State) (cluster va : W64) (k : Colour) (home : Nat) (need : Need) (rest : List (Colour × Nat × Need)) (w : Walk) (pa size at_ : Nat)
    (p : W64) (a b : BitVec 8),
    let c := cluster.toNat; let g := va.toNat / 4096 * 4096; let d := dieOfClu c
    (waiters s (· == c) g = (k, home, need) :: rest →
      (missFind s c k.vf g = none → (s.clu c).miss.length < 64 → (s.die d).walkq.length < 1024 → walkFind s d k.vf g = none →
        ∃ t, exec (.pageWalk cluster va) s = .next t ∧ missFind t c k.vf g = some { vf := k.vf, va := g } ∧
          ((walkFind t d k.vf g).isSome = true ∨ (t.die d).walkq.any (fun q => q.1 == k.vf && q.2.1 == g) = true)) ∧
      (missFind s c k.vf g = none → 64 ≤ (s.clu c).miss.length ∨ 1024 ≤ (s.die d).walkq.length →
        exec (.pageWalk cluster va) s = .next s) ∧
      (missFind s c k.vf g ≠ none → walkFind s d k.vf g = some w → w.st = .going →
        (waiters s (fun x => dieOfClu x == d) g).find? (fun x => x.1.vf == k.vf) = some (k, home, need) →
          (walkVia s d k.vf g = .fault a b → exec (.pageWalk cluster va) s = .next (walkSet s d { w with st := .bad a b })) ∧
          (walkVia s d k.vf g = .leaf p size at_ → effHome p (leafPa p size g) = 0 → pteCls p = 2 → exec (.pageWalk cluster va) s =
            .next (walkSet (keepTrail s d k.vf g) d { w with
              home := home, st := .done (leafPa p size g) p false, size := size, pteAt := at_ })) ∧
          (walkVia s d k.vf g = .leaf p size at_ → effHome p (leafPa p size g) = 0 → pteCls p = 1 → pteOwner p ≠ home →
            permFault k.nlt need p (leafPa p size g) = none → exec (.pageWalk cluster va) s =
              .next (walkSet (keepTrail s d k.vf g) d { w with home := home, st := .reclass, size := size, pteAt := at_ })))) ∧
    (slotWalk s c g (fun st => st != .going && st != .reclass) = some w →
      (w.st = .bad a b → ∃ t, exec (.walkComplete cluster va) s = .next t ∧ t.mem = s.mem ∧
        (∀ e, dieOfClu e = d → ∀ y ∈ (t.clu e).miss, ¬(y.vf = w.vf ∧ y.va = w.va)) ∧ ∀ i r, (i, r) ∈ s.reqs →
          dieOfClu r.tclu = d → r.waitsFor g = true → vfOfReq s r = some w.vf →
            ∃ q, (i, q) ∈ t.reqs ∧ ∀ x ∈ q.pages, x.va = g → x.res ≠ .todo ∧ x.res ≠ .walking) ∧
      (w.st = .done pa p false → ∃ t e, exec (.walkComplete cluster va) s = .next t ∧ t.mem = s.mem ∧ e ∈ (t.clu c).tlb ∧
        e.vf = w.vf ∧ e.pte = p ∧ e.size = w.size ∧ e.va ≤ w.va ∧ w.va < e.va + 2 ^ w.size)) ∧
    (slotWalk s c g (· == .reclass) = some w → walkVia s d w.vf w.va = .leaf p size at_ → pteCls p = 1 →
      partOfClu s (pteOwner p) = partOfClu s w.home → pageBusy s (pteOwner p) (ptePa p) (2 ^ size) = false → pteFree s at_ = true →
      exec (.reclassifyRequest cluster va) s = .next (walkSet (reclassify s w.vf w.va p size at_) d { w with
        st := .done (leafPa p size w.va) (pteClassify p 2 (pteOwner p)) false, size := size, pteAt := at_ }))

/-- Walks fill the TLBs, and invalidations empty them. -/
def Obligations.TranslationsAreFoundAndForgotten : Prop :=
  Sys2Proof.Claims.InvalidationEmptiesTheTlbs ∧ Sys2Proof.Claims.WalksFillTheTlbs

/-! ## Device steps: coherence -/

/-- R150 to R152 and Table 6.6: a cluster's request for a line gets it in E, S or M from a home that no other cluster keeps it
from; otherwise the entry is busy until the probes are answered, and behind a busy or locked line the request waits. -/
def Sys2Proof.Claims.LinesAreGrantedByTheirHome : Prop :=
  ∀ (s : State) (cluster line : W64), let c := cluster.toNat; let l := line.toNat; let e := (dirFind s l).getD (DirEnt.fresh l)
    let free : Prop := e.busy = none ∧ e.queue = [] ∧ locked s l = false
    let has (t : State) (st : LineSt) : Prop := ∃ x, l1Find t c l = some x ∧ x.st = st ∧ x.data = (homeLine s l).1
    let others := (bitList 64 e.sharers.toNat).filter (· != c)
    let ldPin := wantsPin s false c l; let stPin := wantsPin s true c l
    (l1Find s c l = none → s.reqs.any (fun r => wantsLine false c l r.2) = true → dirTakes s c l ldPin = true →
      (free → e.owner = none → e.sharers = 0 → ∃ t,
        exec (.gets cluster line) s = .next t ∧ has t .e ∧ (dirFind t l).bind (·.owner) = some c) ∧
      (free → e.owner = none → e.sharers ≠ 0 → ∃ t, exec (.gets cluster line) s = .next t ∧ has t .s) ∧
      (free → ∀ o, e.owner = some o → o ≠ c →
        exec (.gets cluster line) s = .next (dirPut s { e with busy := some (.gets c ldPin), probes := [o] })) ∧
      (e.busy ≠ none ∨ locked s l = true → e.queue.any (DirReq.same (.gets c ldPin)) = false →
        e.busy.any (DirReq.same (.gets c ldPin)) = false →
        exec (.gets cluster line) s = .next (dirPut s { e with queue := e.queue ++ [.gets c ldPin] }))) ∧
    ((∀ x, l1Find s c l = some x → x.st = .s) → s.reqs.any (fun r => wantsLine true c l r.2) = true → dirTakes s c l stPin = true → free →
      (e.owner = none → others = [] → ∃ t,
        exec (.getx cluster line) s = .next t ∧ has t .m ∧ (dirFind t l).bind (·.owner) = some c) ∧
      (e.owner = none → others ≠ [] →
        exec (.getx cluster line) s = .next (dirPut s { e with busy := some (.getx c stPin), probes := others })) ∧
      (∀ o, e.owner = some o → o ≠ c →
        exec (.getx cluster line) s = .next (dirPut s { e with busy := some (.getx c stPin), probes := [o] })))

/-- R151, R152, R189 and Table 6.6: an eviction writes a dirty line back; an atomic that arrives and an eviction of the directory probe
every copy; a probe invalidates the copy, or leaves it in S for a GETS, and the data of an owner go to the requester of a GETX; with
its last answer the entry takes its next state, and an atomic has its turn at the line. -/
def Sys2Proof.Claims.ProbesAndEvictionsTakeLinesBack : Prop :=
  ∀ (s : State) (cluster line req : W64) (e : DirEnt) (x : L1Line) (r : Request) (pa : Nat) (pte : W64)
    (pin : Option (Nat × Nat)) (d i : Nat) (b : Bool), let c := cluster.toNat; let l := line.toNat
    let all : List Nat := match e.owner with
      | some o => [o]
      | none => bitList 64 e.sharers.toNat
    let turn : DirReq := .rmw req.toNat true
    (l1Find s c l = some x → x.st ≠ .s → locked s l = false → ∃ t, exec (.putx cluster line) s = .next t ∧ l1Find t c l = none ∧
      (x.st = .m → (sliceFind s l).isSome = true → (homeLine t l).1 = x.data)) ∧
    (dirFind s l = some e → e.busy = none → e.queue = [] → locked s l = false → e.owner ≠ none ∨ e.sharers ≠ 0 →
      exec (.directoryEviction line) s = .next (dirPut s { e with busy := some .evict, probes := all }) ∧
      (s.req? req.toNat = some r → r.phase = .issued → r.isRmw = true → accessGate s r = true →
        pagePa r.pages (n64 r.opa 0).toNat = some (pa, pte) → isHbm pa = true → hbmUsable s pa = true → effHome pte pa ≠ 3 → pa / 128 = l →
        exec (.directoryRmw req) s = .next (dirPut s { e with busy := some turn, probes := all }))) ∧
    (dirFind s l = some e → c ∈ e.probes → (e.busy = some (.rmw i b) ∨ e.busy = some .evict ∨ e.busy = some (.getx d pin) →
      ∃ t f, exec (.probe cluster line) s = .next t ∧ l1Find t c l = none ∧ dirFind t l = some f ∧ f.busy = e.busy ∧ c ∉ f.probes ∧
        (l1Find s c l = some x → x.st ≠ .s → e.busy = some (.getx d pin) → f.data = some (x.data, x.bad)))) ∧
    (dirFind s l = some e → c ∈ e.probes → l1Find s c l = some x → e.busy = some (.gets d pin) →
      ∃ t y, exec (.probe cluster line) s = .next t ∧ l1Find t c l = some y ∧ y.st = .s ∧ y.data = x.data) ∧
    (dirFind s l = some e → e.probes = [] → e.queue = [] → e.got = false →
      (e.busy = some .evict → ∃ t, exec (.probeAck line) s = .next t ∧ dirFind t l = none) ∧
      (e.busy = some (.rmw i b) → ∃ t f, exec (.probeAck line) s = .next t ∧ dirFind t l = some f ∧ f.owner = none ∧ f.sharers = 0 ∧
        lineMine t l (.rmw i b) = true) ∧
      (e.busy = some (.getx d pin) → ∃ t y, exec (.probeAck line) s = .next t ∧ l1Find t d l = some y ∧ y.st = .m ∧
        (∀ p, e.data = some p → y.data = p.1)))

/-- The directory grants lines and takes them back. -/
def Obligations.CoherenceGrantsAndTakesBackLines : Prop :=
  Sys2Proof.Claims.LinesAreGrantedByTheirHome ∧ Sys2Proof.Claims.ProbesAndEvictionsTakeLinesBack

/-! ## Device steps: MCAS -/

/-- R198, R199, R205 and Tables 8.5 to 8.7: the engine checks the block in order; a misplaced block halts the frame with MCASATTR,
and one that passes every check takes a free slot, with the lines of its targets to lock in rising order. -/
def Sys2Proof.Claims.McasBlocksAreChecked : Prop :=
  ∀ (s s0 s1 s2 s3 s4 s5 v : State) (req : W64) (k : Colour) (r q : Request) (slot pa : Nat) (pte : W64) (hb bb : List RdByte)
    (h bs : List Byte) (ts : List McasTgt), let id := req.toNat; let blk := (n64 r.opa 0).toNat; let base := pa + blk % 4096
    let unit := 131072 + id; let w := leNat (h.take 8); let n (w : Nat) : Nat := 16 + 32 * (w % 256)
    let wq := q.data.toNat; let es := (List.range (wq % 256)).map (mcasEnt bs)
    let header : State := outsideDrop s3 unit base 16
    let noted : State := header.updReq id (fun y => { y with data := BitVec.ofNat 512 w, lineRd := true })
    let reads : Prop := engRead s1 k r.home unit blk base 16 pte false = .ok hb s2 ∧ deliverBytes s2 k .x pte base hb = some (h, s3)
    s.req? id = some r → s.col? r.colour.toNat = some k → freeSolder (s.clu r.home) = some slot → r.opcode = 0x7D →
    r.phase = .issued → inSolder (s.clu r.home) id = false → (frame? s r.colour r.frame).any (·.phase.gone) = false →
    cutStops k = false → earlierOpen s r = [] →
      (blk % 16 ≠ 0 → exec (.mcasChecks req) s = .next (haltReq s id r cMCASATTR mBLOCK blk)) ∧
      (blk % 16 = 0 → engXlat s k r.home (blk / 4096 * 4096) .block = .ok pa pte s1 →
        (r.lineRd = false → reads →
          (w % 256 < 2 ∨ 8 < w % 256 ∨ w / 256 % 4 = 3 ∨ w / 1024 % 4 ≠ 3 ∨ w / 4096 ≠ 0 →
            (haltReq header id r cMCASATTR mHEADER blk).req? id = none →
            exec (.mcasChecks req) s = .next (haltReq header id r cMCASATTR mHEADER blk))) ∧
        ((r.lineRd = true ∧ s0 = s1 ∨ r.lineRd = false ∧ reads ∧ mcasHeaderBad w = false ∧ blk % 4096 + n w ≤ 4096 ∧ s0 = noted) →
          s0.req? id = some q → q.lineRd = true → engRead s0 k r.home unit blk base (n wq) pte false = .ok bb s4 →
          deliverBytes (outsideDrop s4 unit base (n wq)) k .x pte base bb = some (bs, s5) →
          (∀ e, es.find? (fun e => e.addr % 8 != 0) = some e →
            exec (.mcasChecks req) s = .next (haltReq s5 id q cMCASATTR mALIGN e.addr)) ∧
          ((∀ e ∈ es, e.addr % 8 = 0) → mcasXlats s5 k es = some (.ok ts) →
            (∀ x a, mcasAttr s5 k base (n wq) ts = some (x, a) → exec (.mcasChecks req) s = .next (haltReq s5 id q cMCASATTR x a)) ∧
            (mcasAttr s5 k base (n wq) ts = none → mcasShare s5 k q.home ts = some (.ok v) →
              ∃ t m, exec (.mcasChecks req) s = .next t ∧ mapGet? (t.clu q.home).solder slot = some m ∧ m.req = id ∧
                m.todo = linesOfPas (ts.map (·.pa)) ∧ m.pas = ts.map (·.pa) ∧ m.exps = ts.map (·.ent.exp) ∧
                m.news = ts.map (·.ent.new) ∧ m.held = [] ∧ m.performed = false))))

/-- R200 to R204, R206: the engine asks for its locks one after the other; with the last it compares every word; the home writes
only where all compared equal, and unlocks; with the last acknowledgement the request performs with its result, or halts its frame with
UE where a line was in error; an MCAS that a cut or a kill stops asks for no more and gives its locks back. -/
def Sys2Proof.Claims.McasLocksComparesAndWrites : Prop :=
  ∀ (s u : State) (cluster slot line : W64) (m : McasRun) (r : Request) (k : Colour) (l : Nat) (rest : List Nat),
    let c := cluster.toNat; let n := slot.toNat
    let freed : State := u.updClu c (fun x => { x with solder := mapDel x.solder n })
    mcasRun? s c n = some m → s.req? m.req = some r → s.col? r.colour.toNat = some k →
      (mcasLeaves s r = true → exec (.lockRequest cluster slot) s = .next s ∧ exec (.lockGrant cluster slot) s = .next s) ∧
      (m.todo = l :: rest → m.asked = none → m.withdrawn = false → m.ue = false → r.sy = 3 → mcasLeaves s r = false →
        exec (.lockRequest cluster slot) s =
        .next (dirRequest (updMcas s c n (fun m => { m with
          todo := rest, asked := some l, start := if m.held = [] then s.clk else m.start })) l (.lock c n))) ∧
      (m.asked = some l → m.withdrawn = false → lockedFor s l c n = true → mcasLeaves s r = false → mcasLineBad s m l = false →
        (m.todo ≠ [] → exec (.lockGrant cluster slot) s = .next (updMcas s c n (fun _ => { m with
          asked := none, held := m.held ++ [l], last := s.clk }))) ∧
        (m.todo = [] → m.pas.length = m.count → m.exps.length = m.count → m.ptes.length = m.count → m.count ≤ 8 → ∃ t m',
          exec (.lockGrant cluster slot) s = .next t ∧ mcasRun? t c n = some m' ∧ m'.performed = true ∧ m'.toWrite = m.held ++ [l] ∧
          ∀ i, i < m.count → m'.obs.getD i 0 = mcasWord s (m.pas.getD i 0) (m.ptes.getD i 0) ∧
            (m'.mm.getLsbD i = true ↔ m'.obs.getD i 0 ≠ m.exps.getD i 0))) ∧
      (line.toNat ∈ m.toWrite → exec (.writeAndUnlock cluster slot line) s = .next (updMcas (unlockLine
        (if m.performed = true ∧ m.mm = 0 ∧ m.ue = false then mcasWrite s m line.toNat else s) line.toNat c n) c n (fun m => { m with
          toWrite := m.toWrite.filter (· != line.toNat), held := m.held.filter (· != line.toNat), toAck := m.toAck ++ [line.toNat] }))) ∧
      (m.withdrawn = false → m.toWrite = [] → mcasPut s k c n r m = .done u →
        (m.performed = true → m.ue = false → exec (.unlockAck cluster slot) s = .next (performReq freed m.req r
          (BitVec.ofNat 512 ((if m.mm = 0 then 1 else 0) + m.mm.toNat * 2 ^ 8 + min (m.last - m.start) (2 ^ 32 - 1) * 2 ^ 32)))) ∧
        (m.ue = true → exec (.unlockAck cluster slot) s = .next (haltReq freed m.req r cUE 0 (n64 r.opa 0).toNat))) ∧
      (m.performed = false → m.ue = false → m.withdrawn = true ∨ mcasLeaves s r = true →
        (m.held = l :: rest → exec (.lockWithdrawal cluster slot) s = .next (unlockLine (updMcas s c n (fun m => { m with
          withdrawn := true, held := rest })) l c n)) ∧
        (m.held = [] → m.asked = none → ∃ t, exec (.lockWithdrawal cluster slot) s = .next t ∧
          (t.clu c).solder = mapDel (s.clu c).solder n ∧ t.dies = s.dies ∧ t.mem = s.mem))

/-- MCAS checks its block, locks, compares and writes. -/
def Obligations.McasChecksLocksAndWrites : Prop :=
  Sys2Proof.Claims.McasBlocksAreChecked ∧ Sys2Proof.Claims.McasLocksComparesAndWrites

/-! ## Device steps: copies -/

/-- R181 to R183, R378 to R380, R455: the queue home translates both ranges of a copy and gives the command its number; a piece is
read and then written part by part, and the next begins where it ends; a QFENCE returns its token once every queue that it names has
come to it. -/
def Obligations.CopyQueuesMovePieces : Prop :=
  ∀ (s u w : State) (req colour queue idx : W64) (k : Colour) (r : Request) (cmd : CopyCmd) (rest : List QItem) (ps qs : List PageRef)
    (bs : List (Byte × Bool)) (q : QFence) (m before : Nat) (p : Nat × Nat × W64),
    let id := req.toNat; let col : BitVec 12 := colour.setWidth 12
    let n := queue.toNat; let i := idx.toNat; let home := queueHome s col; let parts := entryParts (cmd.side true) (cmd.dst + cmd.off) cmd.size
    let new : CopyCmd :=
      { num := (copyQ k (cpyQueue r.opa)).accepted, frame := r.frame, ty := r.common.ty, wp := r.opcode == 0x81, src := cpySrc r.opa,
        dst := cpyDst r.opa, len := cpyLen r.opa, off := 0, acked := 0, pages := ps ++ qs, data := none, snap := [], tags := [],
        part := 0, acks := [] }
    let turn : DirReq := .piece col.toNat n
    let passed : State := (updCopyQ s col m (fun y => { y with items := rest })).updCol col.toNat (fun k => { k with
      qfences := mapUpd k.qfences i (fun f => { f with left := f.left.filter (· != m) }) })
    s.col? col.toNat = some k → cutStops k = false →
      (s.req? id = some r → r.colour = col → r.opcode = 0x80 ∨ r.opcode = 0x81 → r.phase = .issued → copyWaits s r = false →
        (copyQ k (cpyQueue r.opa)).commands < 64 →
        engPages s k home .load (granules (cpySrc r.opa) (cpyLen r.opa)) = ((ps, none, false), u) →
        engPages u k home .store (granules (cpyDst r.opa) (cpyLen r.opa)) = ((qs, none, false), w) →
        exec (.copyCommandAccept req) s = .next (performReq (updCopyQ w col (cpyQueue r.opa) (fun q => { q with
          accepted := q.accepted + 1, items := q.items ++ [.cmd new] })) id r
          (BitVec.ofNat 512 ((copyQ k (cpyQueue r.opa)).accepted.toNat + cpyQueue r.opa * 2 ^ 32)))) ∧
      ((copyQ k n).items = .cmd cmd :: rest → cmd.off < cmd.len →
        (cmd.data = none → cmd.selfOverlap = false → copyRead s k home col n cmd cmd.off cmd.size = (some bs, u) →
          let x := copyChoose u cmd bs cmd.off
          exec (.copyPiece colour queue) s = .next (updHeadCmd x.2 col n (fun _ => { cmd with data := some x.1, acks := [] }))) ∧
        (cmd.data = some bs → partAt cmd.part parts 0 = some (p, before) → isRemote p.1 = false → (isHbm p.1 && hbmWaits s p.1) = false →
          enterLines s turn (partLines [p]) = (true, u) → (∀ b ∈ bs, b.2 = false) → exec (.copyPiece colour queue) s =
            .next (partDone (leaveLines (engWrite u k home p.1 (((bs.drop before).take p.2.1).map Prod.fst) p.2.2) turn (partLines [p]))
              col n p.2.1)) ∧
        (cmd.data = some bs → partAt cmd.part parts 0 = none → exec (.copyPiece colour queue) s =
          .next (copyEnd (updHeadCmd s col n (fun x => { x with data := none, off := x.off + cmd.size, part := 0 })) col n))) ∧
      (mapGet? k.qfences i = some q → q.left = [m] → (copyQ k m).items = .fence i :: rest → exec (.qfenceRelease colour idx) s =
        .next (unitReturn (passed.updCol col.toNat (fun k => { k with qfences := mapDel k.qfences i })) col q.lstake
          (resultOut (Common.ofWord (wordOf passed col q.lstake)) (mkToken q.data q.fmt col q.frame q.wave (tileOfStake passed col q.lstake))))) ∧
      (mapGet? k.qfences i = some q → q.left = [m] → (copyQ k m).items.head? ≠ some (.fence i) →
        exec (.qfenceRelease colour idx) s = .next s)

/-! ## Device steps: the matrix unit -/

/-- R72, R208, R219, R441: the first MZERO or MLDACC of a bank that nothing before it blocks clears the bank or loads it from 256 full
lines of scratch, takes it for its frame and sends STEPS; a line in error stops the frame, and a line that is not full makes it
wait. A result that its channels could not take leaves by a later step. -/
def Sys2Proof.Claims.AccumulatorBanksAreZeroedAndLoaded : Prop :=
  ∀ (s : State) (tile bank : W64) (n : Nat) (m : MatCmd), let tl := tile.toNat; let t := s.tile tl; let b := bank.toNat
    let base := desc0 m.opa 0 13; let lines := rangeFrom base 256
    let taken (s : State) (xs : NMap (BitVec 32)) (steps : BitVec 32) : State :=
      cmdSteps (s.updTile tl (fun x => x.setAcc m.bank { x.acc m.bank with
        elems := xs, isInt := m.common.ty.isInt, steps := steps, owner := some (m.colour, m.frame), commit := none })) tl n m steps
    let left : State := groupSend (cmdDirty (cmdDel s tl n) m) m.colour .unit m.lstake m.common m.out
    (cmdReady (MatCmd.is 0x98 b) t.cmds = some (n, m) → exec (.mzeroPerform tile bank) s = .next (taken s [] 0)) ∧
    (cmdReady (MatCmd.is 0x9C b) t.cmds = some (n, m) →
      (linesFull t lines = false → exec (.mldaccPerform tile bank) s = .next s) ∧
      (linesFull t lines = true → linesBad t lines = true → exec (.mldaccPerform tile bank) s = .next (cmdError s tl n m)) ∧
      (linesFull t lines = true → linesBad t lines = false → ∃ xs, exec (.mldaccPerform tile bank) s = .next (taken
          (if desc0 m.opa 31 1 = 1 then cmdEmpty s m lines else s) xs (BitVec.ofNat 32 (desc0 m.opa 32 32))) ∧
        ∀ i, i < 4096 → mapGet xs i 0 = BitVec.ofNat 32 (leNat ((rangeFrom (64 * base + 4 * i) 4).map (scrGet t))))) ∧
    (cmdLive s m = true → groupRoom s m.colour .unit m.lstake m.common m.out = true →
      (cmdReady (MatCmd.is 0x98 b) t.cmds = none → cmdFind (fun x => x.performed && MatCmd.is 0x98 b x) t.cmds = some (n, m) →
        exec (.mzeroPerform tile bank) s = .next left) ∧
      (cmdReady (MatCmd.is 0x9C b) t.cmds = none → cmdFind (fun x => x.performed && MatCmd.is 0x9C b x) t.cmds = some (n, m) →
        exec (.mldaccPerform tile bank) s = .next left))

/-- R115, R116, R208, R213, R215, R217, R344, R442: an MMA step that is ready, in a clk in which DUTY lets it start, reads its lines and
sets those with REL empty; it commits by adding to element (i, j) the product of row i of A and column j of B, I32 products modulo 2^32
and float ones as one chunk sum rounded once to F32, and sends STEPS + 1. -/
def Obligations.MatrixStepsMultiplyAndAccumulate : Prop :=
  ∀ (s : State) (n : Nat) (m : MatCmd), let tl := s.cur.place; let t := s.tile tl; let lines := mmaLines m
    (cmdReady (fun x => x.opc == 0x99) t.cmds = some (n, m) →
      (linesFull t lines = false ∨ issueOpen s = false → exec .mmaStepStart s = .next s) ∧
      (issueOpen s = true → linesFull t lines = true → linesBad t lines = true → exec .mmaStepStart s = .next (cmdError s tl n m)) ∧
      (issueOpen s = true → linesFull t lines = true → linesBad t lines = false → exec .mmaStepStart s = .next (cmdEmpty (cmdDirty
        (cmdPut s tl n { m with started := true, bytes := lineBytes t lines }) m) m (mmaRel m)))) ∧
    (cmdFind (fun x => x.opc == 0x99 && x.started && !x.performed) t.cmds = some (n, m) → m.bytes = lineBytes t lines →
      let a := t.acc m.bank; let ta := m.common.ty; let tb := m.bty
      let code (u : Ty) (bs : List Byte) (r k : Nat) : Nat := leNat bs / 2 ^ (u.width * (32 * r + k)) % 2 ^ u.width
      let ca := code ta (lineBytes t (opDataLines ta m.opa)); let cb := code tb (lineBytes t (opDataLines tb m.opb))
      let va (r : Nat) : List FVal := (List.range 32).map (fun (k : Nat) =>
        scaled (decodeF ta (ca r k)) (opScale m.opa m.ha (lineBytes t (opScaleLines m.opa m.ha)) r k))
      let vb (r : Nat) : List FVal := (List.range 32).map (fun (k : Nat) =>
        scaled (decodeF tb (cb r k)) (opScale m.opb m.hb (lineBytes t (opScaleLines m.opb m.hb)) r k))
      ∃ es fl, exec .mmaStepCommit s = .next (cmdSteps (raiseFlags (s.updTile tl (fun x => x.setAcc m.bank
          (a.commitStep s.clk (accElems es)))) m.colour fl) tl n m (a.steps + 1)) ∧ es.length = 4096 ∧
        ∀ i j, i < 64 → j < 64 → let old := mapGet a.elems (64 * i + j) 0
          es.getD (64 * i + j) 0 = if ta.isInt then
              old + BitVec.ofInt 32 ((List.range 32).map (fun (k : Nat) => laneInt ta (ca i k) * laneInt tb (cb j k))).sum
            else BitVec.ofNat 32 (finish .step .f32 (addF .step (decodeF .f32 (finish .step .f32 (chunkSum (va i) (vb j))).1)
              (decodeF .f32 old.toNat))).1) ∧
    (∀ a b : List FVal, a.length = b.length → (∀ x ∈ a ++ b, ∃ sg p q, x = .num sg p q ∧ q ≠ 0) →
      (chunkSum a b).1.isNum = true ∧ (chunkSum a b).1.q = (List.zipWith (fun x y => x.q * y.q) a b).sum)

/-- R218, R220 to R222, R435, R436, R446: a snapshot of an F32 or I32 bank, as the commits before this clk left it, sends STEPS and then
every element in order; a drain sends the values of its bank in its type in order, an I32 one unchanged; each next token leaves when its
channel accepts it, and after the last the command ends. -/
def Sys2Proof.Claims.SnapshotsAndDrainsStreamTheirBank : Prop :=
  ∀ (s : State) (tile bank : W64) (n : Nat) (m : MatCmd) (e : Emission) (rest : List Emission),
    let tl := tile.toNat; let t := s.tile tl; let b := bank.toNat; let a := t.acc m.bank; let ty := m.common.ty; let was := a.before s.clk
    let dest := m.common.dests.getD e.d Dest.none; let key := destKey m.colour .unit m.lstake e.d dest
    let data (l : List Emission) : List Nat := (l.filter (fun x => x.d == 0 && x.tok.fmt != 7)).flatMap (fun x =>
      (List.range ty.lanes).map (fun (k : Nat) => lane x.tok.data ty.width k))
    let streams (l : List Emission) : State := cmdPut s tl n { m with started := true, out := l }
    let sent (last : State → State) : State := let s1 := chanPush s key (e.tok.to dest)
      if rest = [] then cmdDirty (cmdDel (last s1) tl n) m else cmdPut s1 tl n { m with out := rest }
    let snap := cmdFind (fun x => x.opc == 0x9A && x.started) t.cmds
    let drain := cmdFind (fun x => x.started && MatCmd.is 0x9B b x) t.cmds
    (snap = none → cmdReady (MatCmd.is 0x9A b) t.cmds = some (n, m) → ty = .f32 ∨ ty = .i32 → m.common.d0.isResult = true → ∃ out,
      exec (.msnapStart tile bank) s = .next (streams (stepsOut m tl was.2 ++ out)) ∧ data out = was.1.map BitVec.toNat ∧
      out.length = if ty = .i32 then 256 else 288) ∧
    ((∀ x ∈ a.commit, x.1 ≠ s.clk) → was = (a.list, a.steps)) ∧
    (∀ es, a.commit = none → (a.commitStep s.clk es).before s.clk = (a.list, a.steps)) ∧
    (snap = some (n, m) → m.bank = b → m.out = e :: rest → cmdLive s m = true →
      (chanRoom s key = true → exec (.msnapStart tile bank) s = .next (sent id)) ∧
      (chanRoom s key = false → exec (.msnapStart tile bank) s = .next s)) ∧
    (drain = none → cmdReady (MatCmd.is 0x9B b) t.cmds = some (n, m) → let lines := drainLines m.opa
      (linesFull t lines = false → exec (.mdrainPerform tile bank) s = .next s) ∧
      (linesFull t lines = true → linesBad t lines = true → exec (.mdrainPerform tile bank) s = .next (cmdError s tl n m)) ∧
      (linesFull t lines = true → linesBad t lines = false → m.common.d0.isResult = true → ∃ out fl,
        exec (.mdrainPerform tile bank) s = .next (raiseFlags
          (if desc1 m.opa 43 1 = 1 then cmdEmpty (streams out) m lines else streams out) m.colour fl) ∧
        data out = (drainVals m a.list (residual t m.opa)).1.map (· % 2 ^ ty.width) ∧
        (ty = .i32 → data out = a.list.map BitVec.toNat ∧ fl = 0))) ∧
    (drain = some (n, m) → m.out = e :: rest → cmdLive s m = true →
      (chanRoom s key = true → exec (.mdrainPerform tile bank) s = .next (sent (fun u => drainEnd u tl m))) ∧
      (chanRoom s key = false → exec (.mdrainPerform tile bank) s = .next s))

/-- Accumulator banks are zeroed, loaded, snapped and drained. -/
def Obligations.AccumulatorBanksLoadAndDrain : Prop :=
  Sys2Proof.Claims.AccumulatorBanksAreZeroedAndLoaded ∧ Sys2Proof.Claims.SnapshotsAndDrainsStreamTheirBank

/-! ## Device steps: tokens at tiles -/

/-- R36, R62 to R64, R67, R70, R71, R74, R76: a token that reaches its tile is discarded for a frame that is purged, stops its frame with
UE where it is mangled, joins its FIFO port behind what lies there, stays in its channel where that port is full, and at a MATCH port
completes its operand set, takes a row, or is spilled. -/
def Sys2Proof.Claims.TokensArriveAtTheirPorts : Prop :=
  ∀ (s s1 u : State) (colour src dst : W64) (k : Colour) (st : StakeSt) (t : Token),
    let key := argKey colour src dst; let c := key.colour; let p := t.port.toNat; let s0 := settleTile s key
    let tile := tileOfStake s1 c key.ldst
    let held (misfit : Bool) : State := settleHead (updStake s1 c st.lstake (fun x => x.setPort p { x.port p with
      buf := (x.port p).buf ++ [{ key := key, tok := t, misfit := misfit }] })) c st.lstake
    (chanPop s0 key = none → exec (.tokenArrival colour src dst) s = .next s0) ∧
    (chanPop s0 key = some (t, s1) → t.kind = 0 → s1.col? c.toNat = some k → (s0.part k.part).hasColour c.toNat = true →
      (k.purging t.frame = true → exec (.tokenArrival colour src dst) s = .next (countPurged s1 c 1)) ∧
      (k.purging t.frame = false → t.parityErr = true →
        exec (.tokenArrival colour src dst) s = .next (corruptTok s1 c tile (wordOf s1 c key.ldst) key.ldst t)) ∧
      (k.purging t.frame = false → t.parityErr = false → weaveAbsent s1 c k tile = false → tile ∉ k.unflipped →
        (s1.tile tile).keepsEarly key = false → stake? s1 c key.ldst = some st →
        (isMisfit st t = true → st.portReady p = true → exec (.tokenArrival colour src dst) s = .next (held true)) ∧
        (isMisfit st t = false → (st.port p).bounded key = false →
          (st.isMatch = false → key.kind = .spill ∨ spilledAt s1 c k st.lstake t.port = false →
            (st.portReady p = true → exec (.tokenArrival colour src dst) s = .next (held false)) ∧
            (st.portReady p = false → exec (.tokenArrival colour src dst) s = .next s0)) ∧
          (st.isMatch = true → (st.port p).waitsLookup key = false → st.latches p = false ∨ t.fmt ≠ 7 →
            (∀ o ps, completes (s1.tile tile) st t = some (o, ps) → exec (.tokenArrival colour src dst) s = .next (rowBits (updStake
              (s1.setTile tile { s1.tile tile with rows := ps.foldl List.erase (s1.tile tile).rows }) c st.lstake
              (fun x => { x with ready := x.ready ++ [o] })) k st.lstake c)) ∧
            (completes (s1.tile tile) st t = none → rowFree s1 tile k c = true →
              key.kind = .spill ∨ spilledFor s1 c k tile = false ∧ spillStuck s1 k tile = false →
              exec (.tokenArrival colour src dst) s = .next (rowBits
                (s1.setTile tile { s1.tile tile with rows := (s1.tile tile).rows ++ [t] }) k st.lstake c)) ∧
            (completes (s1.tile tile) st t = none → rowFree s1 tile k c = false → key.kind ≠ .spill → spillStuck s1 k tile = false →
              spillWrite s1 c key t tile false = .ok [] u → exec (.tokenArrival colour src dst) s = .next u)))))

/-- R57, R64, R76, R77, R242, R247, R344: spill writes that faulted are tried again in order; the oldest spilled token of its tile with a
free row goes back to its stake; a misfit goes, in a firing slot of its tile, to its stake's misfit route, or stops its frame with ILLOP
where there is none; a stray is counted and returned, and stops the sending frame with STRAY. -/
def Sys2Proof.Claims.SpilledTokensMisfitsAndStraysGoOn : Prop :=
  ∀ (s u : State) (colour lstake port src dst : W64) (k : Colour) (i : PItem) (more : List PItem) (e : SpillEnt) (t : Token)
      (tile slot : Nat) (st : StakeSt) (d : Nat × Dest) (rest : List Token),
    let c : BitVec 12 := colour.setWidth 12; let p := port.toNat; let key := argKey colour src dst
    (s.col? c.toNat = some k → k.spillFault = i :: more → k.ovf = [] →
      spillWrite s c i.key i.tok (tileOfStake s c i.key.ldst) false = .ok [] u →
      exec (.spillWriteRetry colour) s = .next ((retrySpills (u.updCol c.toNat (fun y => { y with
        spillFault := y.spillFault.erase i })) c more).updCol c.toNat (fun y => { y with retry := s.clk }))) ∧
    (s.col? c.toNat = some k → k.running = true → nextSpill s c k [] k.spilled = some e → spillRead s c e.seq = some (t, u) →
      exec (.spillReinject colour) s = .next (chanPush u (spillKey c e.key.ldst e.key.port) t)) ∧
    (s.col? c.toNat = some k → findStake s c (lstake.setWidth 16) = some (tile, slot, st) → misfitNext k st tile p = some i →
      k.running = true → cutHolds k st = false → issueOpen s = true → slotFree s (fireAt tile c k st (OpSet.empty.put p i.tok)) = true →
      let s1 := settleHead (putStake (useSlot s tile none) c (st.setPort p ((st.port p).remove i))) c st.lstake
      (misfitRoute st = none → exec (.misfitForward colour lstake port) s = .next (haltFrame s1 c i.tok.frame cILLOP 0 0 st.lstake
        [tokenRecord st.word i.tok st.lstake cILLOP false])) ∧
      (misfitRoute st = some d → let dst := destKey c .stake st.lstake d.1 d.2
        (chanRoom s dst = true → exec (.misfitForward colour lstake port) s = .next (chanPush s1 dst { i.tok.to d.2 with src := tile })) ∧
        (chanRoom s dst = false → exec (.misfitForward colour lstake port) s = .next s))) ∧
    (chanPop s key = some (t, u) → t.kind ≠ 1 → isStray u key t = true → let tl := tileOfStake u key.colour key.ldst
      ∃ v, exec (.strayReject colour src dst) s = .next v ∧
      v.strays = u.strays ++ [t] ∧ (v.tile tl).stray = countUp (u.tile tl).stray 1 ∧ v.net = u.net ∧ v.cols = u.cols ∧ v.mem = u.mem) ∧
    (takeFirst (fun y => y.src == s.cur.place) s.strays = some (t, rest) → exec .strayReturn s = .next (haltFrame
      { s with strays := rest } t.colour t.frame cSTRAY 0 0 t.lstake
      [tokenRecord (wordOf s t.colour t.lstake) t t.lstake cSTRAY false]))

/-- Tokens arrive at their ports; spilled tokens, misfits and strays go on. -/
def Obligations.TokensArriveOrGoElsewhere : Prop :=
  Sys2Proof.Claims.TokensArriveAtTheirPorts ∧ Sys2Proof.Claims.SpilledTokensMisfitsAndStraysGoOn

/-- R39, R86, R87, R241: an absent weave that has been asked for is loaded where its VF may hold the partition; the upsett token that
reaches a tile of an incoming weave flips it and presents what waited for it; it is sent only to a tile whose active bank runs no
weave. -/
def Obligations.WeavesAreLoadedAndFlippedIn : Prop :=
  ∀ (s : State) (colour : W64) (k : Colour) (w : Weave) (x : Token) (k' : Colour),
    let c : BitVec 12 := colour.setWidth 12; let tl := s.cur.place
    (s.col? c.toNat = some k → k.loadReq = true → holdsPart s k.vf = true → weave? s k.vf k.weave = some w →
      exec (.weaveLoad colour) s = .next (install s c w)) ∧
    (s.col? c.toNat = some k → k.loadReq = false → exec (.weaveLoad colour) s = .next s) ∧
    ((s.tile tl).upsett = some x → x.kind = 2 → (s.tile tl).shadow.colour = some x.colour → s.col? x.colour.toNat = some k' →
      tl ∈ k'.unflipped → exec .upsettArrival s = .next (presentEarly (flipTile s tl) tl)) ∧
    ((s.tile tl).upsett = none → exec .upsettArrival s = .next s) ∧
    (∀ (y : Tile) (d : BitVec 12), (y.active.colour = some d → (y.sendUpsett tl).upsett = none) ∧
      (y.active.colour = none → y.shadow.colour = some d → (y.sendUpsett tl).upsett.map (fun z => (z.kind, z.colour)) = some (2, d)))

/-! ## Device steps: rounds, cuts and migration -/

/-- R70, R73, R79 to R84, R259, R431, R432: a marker leaves a boundary record at its port, or is absorbed where the stake is already in
the new round; one that fails its checks stops its frame; a stake whose forward inputs are all marked enters the round and sends its
markers; a unit forwards the marker once what it received before it has returned; markers start at the entries, for the MARKs that
wait or a pre-emption. -/
def Sys2Proof.Claims.MarkersCarryTheRoundThroughTheWeave : Prop :=
  ∀ (s u : State) (colour src dst lstake : W64) (k : Colour) (st : StakeSt) (t : Token) (w : BitVec 16) (n : Nat),
    let key := argKey colour src dst; let c : BitVec 12 := colour.setWidth 12; let l : BitVec 16 := lstake.setWidth 16
    let s0 := settleTile s key; let tl := tileOfStake u c key.ldst
    let keys := (allDests st.common).map (outKey c st); let tile := tileOfStake s c st.lstake
    let entries := ((stakesOf s c).filter (·.entry)).map (fun y => taskKey c y.lstake)
    let injected (why : CutWhy) : State := checkRound ((entries.foldl (fun s e => chanPush s e { mkMarker c k.round
        (tileOfStake s c e.ldst) with lstake := e.ldst, port := e.port }) s).updCol c.toNat (fun y => { y with
      cut := some { why := why, start := s.clk, forced := false, whole := false }, want := none })) c
    let s1 := releaseResult s c l
    (chanPop s0 key = some (t, u) → t.kind = 1 →
      ((u.tile tl).keepsEarly key = true → exec (.waleMarkerArrival colour src dst) s = .next s0) ∧
      ((u.tile tl).keepsEarly key = false →
        (t.ok = false → exec (.waleMarkerArrival colour src dst) s = .next (corruptTok u c tl (wordOf u c key.ldst) key.ldst t)) ∧
        (t.ok = true → stake? u c key.ldst = some st →
          (st.round.toNat = t.data.toNat → exec (.waleMarkerArrival colour src dst) s = .next (updStake u c key.ldst (fun x =>
            x.setPort key.port.toNat { x.port key.port.toNat with
              buf := (x.port key.port.toNat).buf ++ [{ key := key, tok := t, misfit := false }] }))) ∧
          (st.round.toNat ≠ t.data.toNat → exec (.waleMarkerArrival colour src dst) s = .next u)))) ∧
    (s.col? c.toNat = some k → stake? s c l = some st →
      (mayEnter s c k st = true → exec (.roundEntry colour lstake) s = .next (checkRound (presentHeld (settleHead (updStake
        ((keys.filter (fun e => e.kind != .unit)).foldl (fun s e => chanPush s e { mkMarker c k.round tile with
          lstake := e.ldst, port := e.port }) s) c st.lstake (fun x => { x.unbound with
        round := x.round + 1, fresh := true,
        unitMark := if keys.any (fun e => e.kind == .unit) then some (k.round, s.nextReq) else none })) c st.lstake) c st.lstake) c)) ∧
      (mayEnter s c k st = false → exec (.roundEntry colour lstake) s = .next s) ∧
      (k.inflight = false ∨ st.round ≠ k.round ∨ (∃ e ∈ forwardInputs s c st, marked st e = false) ∨
        (∃ e ∈ keys, e.kind ≠ .unit ∧ chanRoom s e = false) → mayEnter s c k st = false)) ∧
    (s1.col? c.toNat = some k → stake? s1 c l = some st → st.unitMark = some (w, n) →
      (unitBusy s1 c k st n = true → exec (.unitMarkerForward colour lstake) s = .next s1) ∧
      (unitBusy s1 c k st n = false → (∀ e ∈ keys, e.kind = .unit → chanRoom s1 e = true) →
        exec (.unitMarkerForward colour lstake) s = .next (updStake ((keys.filter (fun e => e.kind == .unit)).foldl (fun s e =>
          chanPush s e { mkMarker c w (tileOfStake s1 c st.lstake) with lstake := e.ldst, port := e.port }) s1) c st.lstake
          (fun x => { x with unitMark := none })))) ∧
    (s.col? c.toNat = some k → k.cut = none → (∀ e ∈ entries, chanRoom s e = true) →
      (∀ why, k.want = some why → k.loadReq = false → k.unflipped = [] → exec (.markerInjection colour) s = .next (injected why)) ∧
      (k.want = none → k.marks ≠ [] → k.running = true → exec (.markerInjection colour) s = .next (injected .round)) ∧
      (k.want = none → k.marks = [] → exec (.markerInjection colour) s = .next s)) ∧
    (s.col? c.toNat = some k → k.cut ≠ none → exec (.markerInjection colour) s = .next s)

/-- R259, R260: a cut for a save, or a round that a pre-emption waits for, that is not whole 12 µs after its start is forced, and not
before then; another round never is. -/
def Sys2Proof.Claims.CutsAreForcedAfterTwelveMicroseconds : Prop :=
  ∀ (s : State) (colour : W64) (k : Colour) (x : Cut), let c : BitVec 12 := colour.setWidth 12
    s.col? c.toNat = some k → k.cut = some x →
      (x.why ≠ .round ∨ k.want ≠ none → x.whole = false → x.start + usClk 12 ≤ s.clk →
        exec (.forcedCut colour) s = .next (forceCut s c k)) ∧
      ((x.why = .round ∧ k.want = none) ∨ x.whole = true ∨ s.clk < x.start + usClk 12 → exec (.forcedCut colour) s = .next s)

/-- Markers carry a round through the weave, and cuts are forced in time. -/
def Obligations.RoundsAndCutsReachEveryStake : Prop :=
  Sys2Proof.Claims.MarkersCarryTheRoundThroughTheWeave ∧ Sys2Proof.Claims.CutsAreForcedAfterTwelveMicroseconds

/-- R14, R87, R238 to R240 and Table 10.7: migration rounds start 65,536 clk apart where MIGEN allows them; a stake that may move and has drained
goes to its new slot with its rows and its state, leaves the old slot empty, is remapped, and counts as a move; no other stake moves. -/
def Obligations.StakesMigrateInMigrationRounds : Prop :=
  ∀ (s : State) (colour lstake tile slot : W64) (k : Colour) (frm fslot : Nat) (st : StakeSt),
    let c : BitVec 12 := colour.setWidth 12; let l : BitVec 16 := lstake.setWidth 16; let tl := tile.toNat; let sl := slot.toNat
    let mine (t : Token) : Bool := t.colour == c && t.lstake == st.lstake
    let due : Prop := (s.part k.part).migen = true ∧ ∀ w at_, k.mig = some (w, at_) → at_ + 65536 ≤ s.clk
    let entries := ((stakesOf s c).filter (·.entry)).map (fun y => taskKey c y.lstake)
    s.col? c.toNat = some k →
      (¬due ∨ k.cut ≠ none ∨ k.running = false → exec (.migrationRound colour) s = .next s) ∧
      (due → k.cut = none → k.want = none → k.running = true → (∀ e ∈ entries, chanRoom s e = true) →
        (∀ k1, (injectMarker s c k .round).col? c.toNat = some k1 → k1.cut ≠ none ∨ k1.round ≠ k.round →
          exec (.migrationRound colour) s = .next ((injectMarker s c k .round).updCol c.toNat (fun x => { x with
            mig := some (k.round + 1, s.clk), moves := 0 })))) ∧
      (findStake s c l = some (frm, fslot, st) →
        (mayMove s c k st frm tl sl = true → moveDrained s c frm st = true → ∃ t, exec (.stakeMove colour lstake tile slot) s = .next t ∧
          (∀ k', t.col? c.toNat = some k' → k'.moves = k.moves + 1 ∧ k'.frames = k.frames) ∧ t.mem = s.mem ∧ t.net = s.net ∧
          t.reqs = s.reqs ∧ (tl ≠ frm → (t.tile tl).rows = (s.tile tl).rows ++ (s.tile frm).rows.filter mine ∧
            (t.tile frm).rows = (s.tile frm).rows.filter (fun r => !mine r) ∧
            (t.tile tl).early = (s.tile tl).early ++ (s.tile frm).early.filter (fun i => mine i.tok) ∧
            mapGet? (t.tile tl).active.slots sl = some { st with fresh := false })) ∧
        (mayMove s c k st frm tl sl = false ∨ moveDrained s c frm st = false → exec (.stakeMove colour lstake tile slot) s = .next s) ∧
        (st.fix = true ∨ st.fresh = false ∨ k.running = false ∨ (s.part k.part).migmax.toNat ≤ k.moves ∨
          (tl ≠ frm ∧ 1024 < (s.tile tl).poolGiven + st.depths) → mayMove s c k st frm tl sl = false))

/-! ## Device steps: frames end, tasks start -/

/-- R36, R55, R138, R209: an ending frame that has quiesced leaves its barriers and banks and is purged while fewer than 16 retire; a
purge waits for the frame's open requests and commands, then ends the frame; a KDONE's decrement lands at its gate, or stops the
frame with ILLOP at a count of 0. -/
def Obligations.FramesQuiesceAndArePurged : Prop :=
  ∀ (s : State) (colour frame gate : W64) (k : Colour) (x : Frame) (d : KDec) (rest : List KDec) (st : StakeSt),
    let c : BitVec 12 := colour.setWidth 12; let f : BitVec 12 := frame.setWidth 12; let g : BitVec 16 := gate.setWidth 16
    let busy := (reqsOf s c f).any (fun r => r.2.phase != .chan && !waitsOnBit s r.2) ||
      k.tileList.any (fun t => (s.tile t).cmds.any (fun m => m.colour == c && m.frame == f))
    (s.col? c.toNat = some k → frame? s c f = some x →
      (quiesced s k c f x = true → k.retiring.length < 16 → exec (.frameQuiesced colour frame) s = .next (updFrame
        (freeBanks (leaveBarriers s c f false) c f) c f (fun y => { y with phase := .purging, awaitTiles := k.tileList }))) ∧
      (quiesced s k c f x = false ∨ 16 ≤ k.retiring.length → exec (.frameQuiesced colour frame) s = .next s) ∧
      (x.phase ≠ .ending ∨ reqsOf s c f ≠ [] ∨ x.last ≠ none → quiesced s k c f x = false) ∧
      (x.phase ≠ .purging ∨ busy = true → exec (.purgeSweepDone colour frame) s = .next s) ∧
      (x.phase = .purging → busy = false → (∀ e ∈ k.spilled, ∀ v, devRead s k.vf e.va 128 true ≠ .wait v) →
        exec (.purgeSweepDone colour frame) s = .next (endPurge (countPurged
        ((reqsOf s c f).foldl (fun s r => leaveRing (dropAcks (s.delReq r.1) r.2) r.2) s) c ((reqsOf s c f).filter (fun r => r.2.phase == .chan)).length) c f x))) ∧
    (takeFirst (fun d => d.tok.colour == c && d.gate == g) s.kdecs = some (d, rest) → let s1 := { s with kdecs := rest }
      stake? s1 c d.gate = some st →
        (st.kn ≠ 0 → exec (.kgateDecrement colour gate) s = .next (updStake s1 c d.gate (fun y => { y with kn := y.kn - 1 }))) ∧
        (st.kn = 0 → exec (.kgateDecrement colour gate) s = .next (haltFrame s1 c d.tok.frame cILLOP 0 0 d.lstake
          [{ tokenRecord (wordOf s1 c d.lstake) d.tok d.lstake cILLOP false with rkind := 2, flags := 8 }])))

/-- R40, R51, R54, R58: an idle colour that may start takes the record served first, drops its weave's record of a failed job, and
starts the root frame of a good one, with its entry token, while its entry takes it; a join that found its queue full is tried
again after 1,024 clk; an idle colour is unbound. -/
def Obligations.IdleColoursTakeUpTasks : Prop :=
  ∀ (s : State) (colour : W64) (k : Colour) (h : HeadRec) (n : BitVec 12) (rcd : W512) (at_ : Nat),
    let c : BitVec 12 := colour.setWidth 12; let idx := colidx s k.lead.toNat; let r := h.rcd; let e := recEntry r
    let trap := isTrapRec (s.part k.part) idx h; let failed := (s.vf k.vf).failed.contains (recJob r) && recJob r != 0
    s.col? c.toNat = some k →
      (mayStart s k = false ∨ nextRec s k idx = none → exec (.taskTakeup colour) s = .next s) ∧
      (mayStart s k = true → nextRec s k idx = some h →
        (failed = true → trap = false → exec (.taskTakeup colour) s = .next (popRec s h)) ∧
        (failed = false ∨ trap = true → recWeave r = k.weave →
          (recRsvd r = true ∨ entryOk s c e = false → exec (.taskTakeup colour) s = .next (discardRec s k idx h)) ∧
          (recRsvd r = false → entryOk s c e = true → freeFrame k = none → exec (.taskTakeup colour) s = .next s) ∧
          (recRsvd r = false → entryOk s c e = true → freeFrame k = some n →
            chanRoom s (taskKey c e) = false → exec (.taskTakeup colour) s = .next s) ∧
          (recRsvd r = false → entryOk s c e = true → freeFrame k = some n → chanRoom s (taskKey c e) = true →
            homedIn s (cluOfTile (tileOfStake s c e)) < 1024 → ∃ t u,
              exec (.taskTakeup colour) s = .next t ∧ (t = u ∨ t = dropTrapRec u k.part idx h) ∧
              u = chanPush ((noteJobCol (takePartition (popRec s h) k.vf) k.vf (recJob r) c.toNat).updCol c.toNat (fun y => { y with
                frames := mapPut y.frames n.toNat { newFrame n k.nextSeq 0 (cluOfTile (tileOfStake s c e)) (e.toNat / 128) 0 true trap r with
                  stamp := h.stamp }, nextSeq := y.nextSeq + 1, fired := 0, fireLog := [] })) (taskKey c e)
                { mkToken r 0 c n 0 (tileOfStake s c e) with lstake := e, port := 0 }))) ∧
      (k.join = some (rcd, at_) → (at_ + 1024 ≤ s.clk → exec (.taskjoinRetry colour) s = .next (endTask s c rcd)) ∧
        (s.clk < at_ + 1024 → exec (.taskjoinRetry colour) s = .next s)) ∧
      (k.isIdle = true → k.join = none → preempted k = false → k.cut = none → k.swap = none ∨ canRaise s k.vf = true →
        exec (.schedulerUnbind colour) s = .next (unbindColour (forgetOut (dropSwap s c k (.save 0)) c) c)) ∧
      (k.isIdle = false ∨ k.join ≠ none → exec (.schedulerUnbind colour) s = .next s)

/-! ## Device steps: jobs -/

/-- R228, R229, R234 to R236: a malformed job descriptor ends with one event of status 2; a LAUNCH writes its completion block and pushes its
root record, and waits 1,024 clk where the queue is full; a REPLAY refuses a bad graph, waits for one in flight, and otherwise marks
it, writes its nodes and its completion block and pushes the nodes with no predecessors; a PATCH sets the next version of a
graph, or ends with status 6. -/
def Obligations.JobDescriptorsLaunchReplayAndPatch : Prop :=
  ∀ (s s1 s2 s3 s4 s5 s6 : State) (vf : W64) (bs rb h : List Byte) (t : Nat), let v := vf.toNat; let d := bytesData bs
    let r := setFld (recWithJob (bytesData rb) (jdJob d)) 64 64 (jdDone d); let g := jdGraph d
    let push := pushRecord s3 (s3.vf v).part.toNat (jdCol d) r; let nodes := graphField h 0 4; let ver := graphField h 8 4
    let pushed (step : Host.Outcome State Fault Refusal) : Prop :=
      (push = .ok s4 → step = .next (takeDesc (openJob s4 v d 0) v)) ∧
      (push = .full → step = .next (s3.updVf v (fun f => { f with launchWait := some s3.clk }))) ∧
      (push = .noQueue → step = .next (descEvent s3 v d 1 2)) ∧ (push = .wait → step = .next s3)
    (jobReady s v = false → exec (.launch vf) s = .next s ∧ exec (.replay vf) s = .next s ∧ exec (.patch vf) s = .next s) ∧
    (jobReady s v = true → headDesc s v = .ok bs s1 →
      ((s.vf v).launchWait = none → jdBad s1 v d = true → let e : State := descEvent s1 v d 1 2
        exec (.launch vf) s = .next e ∧ exec (.replay vf) s = .next e ∧ exec (.patch vf) s = .next e) ∧
      ((s.vf v).launchWait = none → jdBad s1 v d = false →
        (jdOp d = 1 → devWrites s1 v [(jdDone d, natBytes 8 1), (jdDone d + 8, [0xFF, 0xFF]),
          (jdDone d + 64, natBytes 4 (jdJob d).toNat)] = .ok [] s2 → devRead s2 v (jdRoot d) 64 = .ok rb s3 → pushed (exec (.launch vf) s)) ∧
        (jdOp d = 2 → devRead s1 v g 256 = .ok h s2 →
          (∀ n, (s2.vf v).fill = some n → exec (.replay vf) s = .next (replayPush s2 v d (nodes - n) n)) ∧
          ((s2.vf v).fill = none → graphBad h = true → exec (.replay vf) s = .next (descEvent s2 v d 1 2)) ∧
          ((s2.vf v).fill = none → graphBad h = false → graphField h 16 1 = 1 → (s2.vf v).infl = false →
            exec (.replay vf) s = .next s2) ∧
          ((s2.vf v).fill = none → graphBad h = false → graphField h 16 1 ≠ 1 ∨ (s2.vf v).infl = true →
            devWrite s2 v (g + 16) [1] = .ok [] s3 →
            devWrite (s3.updVf v (fun f => { f with infl := true })) v (g + 12) (natBytes 4 ver) = .ok [] s6 →
            replayNodes s6 v d ver nodes 0 = .ok [] s4 →
            devWrites s4 v (doneWrites d (graphField h 6 2)) = .ok [] s5 →
            exec (.replay vf) s = .next (replayPush (openJob s5 v d g) v d nodes 0))) ∧
        (jdOp d = 3 → devRead s1 v g 256 = .ok h s2 →
          let good := jdVer d = (ver + 1) % 2 ^ 32 ∧ (graphField h 16 1 = 0 ∨ jdVer d % graphField h 4 2 ≠ graphField h 12 4 % graphField h 4 2)
          (¬good → exec (.patch vf) s = .next (descEvent s2 v d 2 6)) ∧
          (good → devWrite s2 v (g + 8) (natBytes 4 (jdVer d)) = .ok [] s3 → exec (.patch vf) s = .next (descEvent s3 v d 2 0)))) ∧
      ((s.vf v).launchWait = some t → t + 1024 ≤ s.clk → devRead s1 v (jdRoot d) 64 = .ok rb s3 → pushed (exec (.launchPushRetry vf) s)) ∧
      ((s.vf v).launchWait = some t → s.clk < t + 1024 → exec (.launchPushRetry vf) s = .next s))

/-! ## Device steps: the commands of the physical function -/

/-- R38, R40, R50, R231, R263, R295, R324 to R331: a command with a reserved OP or a stray byte ends with BADCMD; WVREG reads and checks the
image and registers the weave, or gives LOADDIAG and status 10; BIND binds a new colour of a registered weave, or ends with BADCMD,
QDESC or CTXFULL; UNBIND unbinds an idle colour. -/
def Sys2Proof.Claims.CommandsRegisterBindAndUnbind : Prop :=
  ∀ (u s s1 s2 : State) (d : W512) (w : Weave) (e : LoadFail) (c : BitVec 12) (k : Colour) (head bs : List Byte),
    let ends (t : State) (status : BitVec 8) : State := raisePf (t.updPf (fun p => { p with q := { p.q with sqhead := p.q.sqhead + 1 } }))
      { Event.zero with ty := 11, status := status, id := d.extractLsb' 32 32 }
    let v := cmdVf d; let f := s.vf v; let p := s.part f.part.toNat; let pa := fld d 128 64; let img := readerOf bs
    let failed (t : State) : State := ends (t.updPf (fun q => { q with loaddiag := loadDiag d e })) 10
    let id : BitVec 32 := d.extractLsb' 64 32; let wid : BitVec 32 := d.extractLsb' 96 32
    let idx := fld d 64 16; let lidx := fld d 80 16; let b := p.tbase + BitVec.ofNat 12 idx; let lead := p.tbase + BitVec.ofNat 12 lidx
    (pfHead u = (none, s) → ∀ i ∈ [Instr.wvreg, .bind, .unbind, .save, .resume, .ckptall], exec i u = .next s) ∧
    (pfHead u = (some d, s) →
      (cmdBad d = true → ∀ i ∈ [Instr.wvreg, .bind, .unbind, .save, .resume, .ckptall], exec i u = .next (ends s 11)) ∧
      (cmdBad d = false → cmdOp d = 1 →
        (1024 ≤ v ∨ pa % 64 ≠ 0 → exec .wvreg u = .next (ends s 11)) ∧
        (v < 1024 → pa % 64 = 0 → paPeek s pfUnit pa 128 = .ok head s1 →
          (checkHeader (readerOf head) id (weaveBound s1 v id) = some e → exec .wvreg u = .next (failed s1)) ∧
          (checkHeader (readerOf head) id (weaveBound s1 v id) = none → paRead s1 pfUnit pa (imageEnd (readerOf head)) = .ok bs s2 →
            (validate s2.mgmt img id (weaveBound s2 v id) = some e → exec .wvreg u = .next (failed s2)) ∧
            (validate s2.mgmt img id (weaveBound s2 v id) = none → exec .wvreg u = .next (ends
              ((s2.updVf v (fun g => { g with weaves := g.weaves.filter (fun x => x.id != (weaveOf img id s2.pf.nextReg).id) ++
                [weaveOf img id s2.pf.nextReg] })).updPf (fun q => { q with nextReg := q.nextReg + 1 })) 0))))) ∧
      (cmdBad d = false → cmdOp d = 2 → (idx < p.block → descsWait s p idx = false) →
        (weave? s v wid = none ∨ 1024 ≤ v ∨ f.runs = false ∨ p.en = false ∨ p.block ≤ idx ∨ p.block ≤ lidx ∨ s.col? b.toNat ≠ none ∨
          idxHeld s v idx = true ∨ leadOk s v wid b lead = false → exec .bind u = .next (ends s 11)) ∧
        (weave? s v wid = some w → v < 1024 → f.runs = true → p.en = true → idx < p.block → lidx < p.block → s.col? b.toNat = none →
          idxHeld s v idx = false → leadOk s v wid b lead = true →
          (descsBad s p idx = true → exec .bind u = .next (ends s 7)) ∧
          (descsBad s p idx = false → ctxFull s v w.nlt = true → exec .bind u = .next (ends s 8)) ∧
          (descsBad s p idx = false → ctxFull s v w.nlt = false → exec .bind u = .next (ends (install
            { s with cols := mapPut s.cols b.toNat (newColour v f.part.toNat w lead s.clk) } b w) 0)))) ∧
      (cmdBad d = false → cmdOp d = 3 →
        (cmdColour s d = none → exec .unbind u = .next (ends s 11)) ∧
        (cmdColour s d = some (c, k) → k.isIdle = false ∨ k.join ≠ none ∨ preempted k = true ∨ k.cut ≠ none →
          exec .unbind u = .next (ends s 11)) ∧
        (cmdColour s d = some (c, k) → k.isIdle = true → k.join = none → preempted k = false → k.cut = none →
          k.swap = none ∨ canRaise s k.vf = true →
          exec .unbind u = .next (ends (unbindColour (forgetOut (dropSwap s c k (.save 0)) c) c) 0))))

/-- R259, R263, R267 to R269, R295, R304, R511, R513: SAVE pre-empts its colour and ends at the commit; RESUME restores a committed context of
its VF in the VF's partition, or moves the VF first; CKPTALL saves every colour of its partitions, copies their ranges to the pool,
then writes its manifest, and ends when every write has been acknowledged. -/
def Sys2Proof.Claims.CommandsSaveResumeAndCheckpoint : Prop :=
  ∀ (u s s1 : State) (d : W512) (c : BitVec 12) (k : Colour) (cause reason : BitVec 8) (va : Nat) (ck : Ckpt) (pa at_ n : Nat) (rest : List (Nat × Nat × Nat))
      (bs : List Byte),
    let ends (t : State) (status : BitVec 8) : State := raisePf (t.updPf (fun p => { p with q := { p.q with sqhead := p.q.sqhead + 1 } }))
      { Event.zero with ty := 11, status := status, id := d.extractLsb' 32 32 }
    let v := cmdVf d; let f := s.vf v; let i := fld d 64 16; let q := fld d 80 8; let pool := fld d 128 64
    let k0 : Ckpt := ⟨cmdId d, d.extractLsb' 64 64, pool, s.pf.q.sqhead.toNat, [], false, none⟩
    let upd (t : State) (g : Ckpt → Ckpt) : State := t.updPf (fun p => { p with ckpt := p.ckpt.map g })
    let noted (t : State) (m : W64) : State := (bitList 64 m.toNat).foldl noteLoads t
    pfHead u = (some d, s) → cmdBad d = false →
      (cmdOp d = 4 →
        (cmdColour s d = none → exec .save u = .next (ends s 11)) ∧
        (cmdColour s d = some (c, k) → preempted k = false → areaWaits s (s.vf k.vf) = false → placeCtx s k = none → exec .save u = .next (ends s 8)) ∧
        (cmdColour s d = some (c, k) → preempted k = false → areaWaits s (s.vf k.vf) = false → placeCtx s k ≠ none → exec .save u = .next (preemptFor
          (s.updPf (fun p => { p with q := { p.q with sqhead := p.q.sqhead + 1 } })) c (.save (cmdId d))))) ∧
      (cmdOp d = 5 →
        (1024 ≤ v ∨ f.runs = false ∨ 126 < i ∨ 63 < q → exec .resume u = .next (ends s 11)) ∧
        (v < 1024 → f.runs = true → i ≤ 126 → q ≤ 63 → areaWaits s f = false →
          (dirCount s f ≤ i ∨ dirState s f i ≠ 1 → exec .resume u = .next (ends s 9)) ∧
          (i < dirCount s f → dirState s f i = 1 →
            (q = f.part.toNat → resumeOwn s v i noShadow = .done s1 → exec .resume u = .next (ends (resumed s1 v) 0)) ∧
            (q = f.part.toNat → resumeOwn s v i noShadow = .noFit → exec .resume u = .next (ends s 9)) ∧
            (q = f.part.toNat → resumeOwn s v i noShadow = .fault cause reason va s1 → exec .resume u = .next (ends s1 9)) ∧
            (q ≠ f.part.toNat → mayMoveVf s v q = false → exec .resume u = .next (ends s 11)) ∧
            (q ≠ f.part.toNat → mayMoveVf s v q = true → moveWaits s f q = false →
              (resumeOwn (moveVf s v q) v i noShadow = .done s1 → exec .resume u = .next (ends (resumed s1 v) 0)) ∧
              (resumeOwn (moveVf s v q) v i noShadow = .noFit → exec .resume u = .next (ends s 11)))))) ∧
      (cmdOp d = 6 →
        (s.pf.ckpt = none → v ≠ 0 ∨ pool % 4096 ≠ 0 ∨ 2 ^ 49 ≤ pool → exec .ckptall u = .next (ends s 11)) ∧
        (s.pf.ckpt = none → v = 0 → pool % 4096 = 0 → pool < 2 ^ 49 → exec .ckptall u = .next
          ((maskCols (s.updPf (fun p => { p with ckpt := some k0 })) k0.mask).foldl
          (fun t b => preemptFor t b (.ckpt k0.cmd)) (noted (s.updPf (fun p => { p with ckpt := some k0 })) k0.mask))) ∧
        (s.pf.ckpt = some ck → ck.copying = false → maskCols s ck.mask ≠ [] → exec .ckptall u = .next ((maskCols s ck.mask).foldl
          (fun t b => preemptFor t b (.ckpt ck.cmd)) (noted s ck.mask))) ∧
        (s.pf.ckpt = some ck → ck.copying = false → maskCols s ck.mask = [] → exec .ckptall u = .next
          (upd s (fun x => { x with copying := true, runs := poolRuns (ck.pool + 4096) (rangesOf s ck.mask) }))) ∧
        (s.pf.ckpt = some ck → ck.copying = true → ck.runs = (pa, at_, n) :: rest → physWaits s pa (min 64 n) = false →
          rangeFree s pa (min 64 n) = true → exec .ckptall u = .next (upd (poolWrite s at_ ((cohRd s pa (min 64 n)).map Prod.fst)) 
            (fun x => { x with runs := if n ≤ 64 then rest else (pa + 64, at_ + 64, n - 64) :: rest }))) ∧
        (s.pf.ckpt = some ck → ck.copying = true → ck.runs = [] → ck.manifest = some (at_, bs) → bs ≠ [] → exec .ckptall u = .next
          (upd (poolWrite s at_ (bs.take 64)) (fun x => { x with manifest := some (at_ + 64, bs.drop 64) }))) ∧
        (s.pf.ckpt = some ck → ck.copying = true → ck.runs = [] →
          (poolAcked s = false → ck.manifest = none ∨ ck.manifest = some (at_, []) → exec .ckptall u = .next s) ∧
          (poolAcked s = true → ck.manifest = none → exec .ckptall u = .next
            (upd s (fun x => { x with manifest := some (ck.pool, manifestBytes s ck) }))) ∧
          (poolAcked s = true → ck.manifest = some (at_, []) → exec .ckptall u = .next (ends
            ((((s.saved.filter (fun x => x.2.why == .ckpt ck.cmd)).map (fun x => x.2.vf) ++
              mapKeys (s.vfs.filter (fun f => f.2.gsw == .load))).foldl setIns []).foldl
              (fun t v => if holdsPart t v then resumeAuto t v else t) (s.updPf (fun p => { p with ckpt := none }))) 0))))

/-- The commands of the physical function. -/
def Obligations.CommandsOfThePhysicalFunction : Prop :=
  Sys2Proof.Claims.CommandsRegisterBindAndUnbind ∧ Sys2Proof.Claims.CommandsSaveResumeAndCheckpoint

/-! ## Device steps: the partition scheduler -/

/-- R56, R232, R233, R259, R276, R373: with no holder the lowest VF with work takes its partition; a holder keeps it until its slice is over
or its work is done; then its colours are pre-empted, the next VF's configuration loads into their shadow banks, and once none is bound
that VF takes over. A CFGSWAP request goes on at a slice boundary. -/
def Sys2Proof.Claims.PartitionsAreTimeSliced : Prop :=
  ∀ (s : State) (p colour : W64) (v w reg : Nat) (k : Colour) (id : BitVec 32), let n := p.toNat; let x := s.part n
    let c : BitVec 12 := colour.setWidth 12; let idle := x.en = true ∧ x.state ≠ .accepted ∧ ckptHolds s n = false
    (64 ≤ n ∨ ¬idle → exec (.sliceExpiry p) s = .next s) ∧
    (n < 64 → idle →
      (holder s n = none → (workers s n).head? = some v → exec (.sliceExpiry p) s = .next (resumeAuto (takePartition s v) v)) ∧
      (holder s n = none → workers s n = [] → exec (.sliceExpiry p) s = .next s) ∧
      (holder s n = some v → turnEnds s n v = false → exec (.sliceExpiry p) s = .next (resumeAuto s v)) ∧
      (holder s n = some v → turnEnds s n v = true → nextWorker s n v = none → exec (.sliceExpiry p) s = .next
        (resumeAuto (s.updPart n (fun y => { y with sliceStart := s.clk })) v)) ∧
      (holder s n = some v → turnEnds s n v = true → nextWorker s n v = some w →
        (colsOf s v = [] → exec (.sliceExpiry p) s = .next (grantPart ((noteLoad s v).updVf v (fun f => { f with holds := false })) w)) ∧
        (colsOf s v ≠ [] → exec (.sliceExpiry p) s = .next (preload ((colsOf s v).foldl endTurn s) v w)))) ∧
    (hasWork s v = true → (x.slice = 0 ∨ s.clk < x.sliceStart + usClk x.slice.toNat → turnEnds s n v = false) ∧
      (x.slice ≠ 0 → x.sliceStart + usClk x.slice.toNat ≤ s.clk → turnEnds s n v = true)) ∧
    (hasWork s v = false → turnEnds s n v = true) ∧
    (s.col? c.toNat = some k → k.swap = some (id, reg) → sliceOver s k.part = true → preempted k = false → canRaise s k.vf = true →
      (swapWeave s k id = none → exec (.cfgswapSwitch colour) s = .next (endSwap s c k 10 id)) ∧
      (swapWeave s k id ≠ none → placeCtx s k = none → exec (.cfgswapSwitch colour) s = .next (endSwap s c k 8 id)) ∧
      (swapWeave s k id ≠ none → placeCtx s k ≠ none → exec (.cfgswapSwitch colour) s = .next (preemptFor s c (.swap id)))) ∧
    (s.col? c.toNat = some k → k.swap = none ∨ sliceOver s k.part = false → exec (.cfgswapSwitch colour) s = .next s)

/-- R259, R264 to R267, R276: a colour whose cut is whole and whose local work has drained is committed to its context and unbound; a guest
switch goes from its cut to its save and then to its load; GO is ignored while one is under way. -/
def Sys2Proof.Claims.SavesCommitAndGuestsSwitch : Prop :=
  ∀ (s s1 s2 : State) (colour vf g : W64) (k : Colour) (why : CutWhy) (i v : Nat),
    let c : BitVec 12 := colour.setWidth 12; let f := s.vf k.vf; let ld := s.vf v
    let n := barNum vf; let y := s.vf n; let p := s.part y.part.toNat; let idx : BitVec 12 := g.setWidth 12; let b := p.tbase + idx
    let chosen := s.updVf n (fun f => { f with gswCol := idx })
    let restored := restoreTo s v (.guest v ld.gswLoad.toNat) ld.part.toNat c none ld.gswCol.toNat noShadow
    (s.col? c.toNat = some k → commitReady s c k = none → exec (.saveCommit colour) s = .next s) ∧
    (s.col? c.toNat = some k → commitReady s c k = some why → why ≠ .guest → (∀ id, why ≠ .swap id) → takeCtx s c k = some (i, s1) →
      let a := dirCtx s1 (s1.vf k.vf) i; let shot := snapshot s1 c { k with ctx := some i } why (some i)
      commitAt s1 (.area a) (s1.part k.part).tbase.toNat shot = .ok [] s2 →
        let s3 := setDirState s2 (s1.vf k.vf) i 1
        let s4 := if gswCutting (s1.vf k.vf) s c then setDirGsw s3 (s1.vf k.vf) i 1 else s3
        exec (.saveCommit colour) s = .next (afterSave (leaveTiles (dropSwap s4 c k why) c) c k why)) ∧
    (s.col? c.toNat = some k → commitReady s c k = some .guest →
      (f.gsw = .cut → exec (.saveCommit colour) s = .next (setGsw s k.vf .save)) ∧
      (f.gsw = .save → f.gswSave = 0 → exec (.saveCommit colour) s = .next (setGsw
        (unbindColour (forgetOut (dropSolder (dropSwap s c k .guest) c) c) c) k.vf (if f.gswLoad = 0 then .done else .load))) ∧
      (f.gsw = .save → f.gswSave ≠ 0 →
        commitAt s (.guest k.vf f.gswSave.toNat) (s.part k.part).tbase.toNat (snapshot s c k .guest none) = .ok [] s1 →
        exec (.saveCommit colour) s = .next (setGsw (leaveTiles (dropSwap s1 c k .guest) c) k.vf
          (if f.gswLoad = 0 then .done else .load)))) ∧
    (s.col? c.toNat = none → loadingVf s c = none → exec (.saveCommit colour) s = .next s) ∧
    (s.col? c.toNat = none → loadingVf s c = some v → holdsPart s v = true → ld.runs = true → ld.pause = false →
      ckptHolds s ld.part.toNat = false → (s.part ld.part.toNat).state ≠ .accepted → loadEntry s ld = none ∨ ld.gswAgain = true →
      (restored = .done s1 → exec (.saveCommit colour) s = .next (endLoad s1 v .done)) ∧
      (restored = .noFit → exec (.saveCommit colour) s = .next (gswFail (endLoad s v .load) v 9))) ∧
    (1024 ≤ n → exec (.gswctlGo vf g) s = .next s) ∧
    (n < 1024 → barOpen s n vf = false → exec (.gswctlGo vf g) s = .next (hostUr s vf)) ∧
    (n < 1024 → barOpen s n vf = true → g.getLsbD 12 = false ∨ y.gsw = .cut ∨ y.gsw = .save ∨ y.gsw = .load →
      exec (.gswctlGo vf g) s = .next s) ∧
    (n < 1024 → barOpen s n vf = true → g.getLsbD 12 = true → y.gsw = .idle ∨ y.gsw = .done ∨ y.gsw = .fail →
      (idx.toNat < p.block → s.col? b.toNat = some k → k.vf = n →
        exec (.gswctlGo vf g) s = .next (preemptFor (setGsw chosen n .cut) b .guest)) ∧
      (idx.toNat < p.block → s.col? b.toNat = none → y.gswSave = 0 →
        exec (.gswctlGo vf g) s = .next (setGsw chosen n (if y.gswLoad = 0 then .done else .load))) ∧
      (p.block ≤ idx.toNat ∨ s.col? b.toNat = none ∧ y.gswSave ≠ 0 → exec (.gswctlGo vf g) s = .next (gswFail chosen n 11)))

/-- Partitions are time-sliced, saves commit and guests switch. -/
def Obligations.TurnsEndAndSavesCommit : Prop :=
  Sys2Proof.Claims.PartitionsAreTimeSliced ∧ Sys2Proof.Claims.SavesCommitAndGuestsSwitch

/-- R140, R243 to R245, R248, R459: a colour that has been silent for 2^WDOG clk has its first full edge extended once, and else takes
one DEADLK event; one that is waiting, or silent for less, is left alone. -/
def Obligations.SilentColoursAreExtendedOrDeadlocked : Prop :=
  ∀ (s : State) (colour : W64) (k : Colour) (e : Edge), let c : BitVec 12 := colour.setWidth 12
    let due := k.running = true ∧ k.cut = none ∧ isSilent s c k = true ∧ k.wdFrom + 2 ^ (s.part k.part).wdlog.toNat ≤ s.clk
    let first := firstEdge ((fullEdges s c k).filter (fun e => e.what != .never))
    let afresh (t : State) (ext posted : Bool) : State := t.updCol c.toNat (fun y => { y with
      wdFrom := t.clk, wdExt := ext, wdPosted := posted })
    s.col? c.toNat = some k →
      (¬due → exec (.watchdogExpiry colour) s = .next s) ∧ (colWaiting s c k = true → isSilent s c k = false) ∧
      (due → first = some e → k.wdExt = false → k.exts < 16 → exec (.watchdogExpiry colour) s =
        .next ((afresh (extendEdge s c e) true k.wdPosted).updCol c.toNat (fun y => { y with exts := y.exts + 1 }))) ∧
      (due → first = none ∨ k.wdExt = true ∨ 16 ≤ k.exts → k.wdPosted = true →
        exec (.watchdogExpiry colour) s = .next (afresh s false true)) ∧
      (due → first = none ∨ k.wdExt = true ∨ 16 ≤ k.exts → k.wdPosted = false → firstEdge (fullEdges s c k) = some e →
        exec (.watchdogExpiry colour) s = .next (afresh (raise s k.vf { Event.zero with
          ty := 5, colidx := BitVec.ofNat 16 (colidx s c.toNat), cause := cDEADLK,
          info := BitVec.ofNat 64 (e.lstake.toNat + e.port.toNat * 2 ^ 16) }) false true))

/-! ## Device steps: the interface of a virtual function -/

/-- R293, R298 to R300 and Table 12.7: LOCK takes an unlocked, enabled TDI, on the IDE stream bound to it, to CONFIG_LOCKED under a nonce,
START with that nonce to RUN, STOP back to CONFIG_UNLOCKED after a reset of the VF that ERROR had not already done, and an integrity
failure takes a locked TDI to ERROR; in any other state a request changes nothing. -/
def Sys2Proof.Claims.InterfacesLockStartAndStop : Prop :=
  ∀ (s : State) (vf nonce stream : W64), let v := vf.toNat; let f := s.vf v
    (v < 1024 → f.tdi = .configUnlocked → f.en = true → f.enabled = true → f.stream = some stream →
      exec (.lockInterfaceRequest vf nonce stream) s = .next
        (s.updVf v (fun f => { f with tdi := .configLocked, nonce := nonce, scrubbed := false }))) ∧
    (f.tdi ≠ .configUnlocked ∨ f.en = false ∨ f.enabled = false ∨ f.stream ≠ some stream →
      exec (.lockInterfaceRequest vf nonce stream) s = .next s) ∧
    (f.tdi = .configLocked → f.nonce = nonce → exec (.startInterfaceRequest vf nonce) s = .next (s.updVf v (fun f => { f with tdi := .run }))) ∧
    (f.tdi ≠ .configLocked ∨ f.nonce ≠ nonce → exec (.startInterfaceRequest vf nonce) s = .next s) ∧
    (v < 1024 → ∃ t, exec (.stopInterfaceRequest vf) s = .next (t.updVf v (fun f => { f with
        tdi := .configUnlocked, scrubbed := false })) ∧ t = if f.scrubbed then s else vfReset s v) ∧
    (f.tdi = .configLocked ∨ f.tdi = .run → exec (.ideIntegrityFailure vf) s = .next ((vfScrub s v).updVf v (fun f => { f with
      tdi := .error, scrubbed := true }))) ∧
    (f.tdi = .configUnlocked ∨ f.tdi = .error → exec (.ideIntegrityFailure vf) s = .next s)

/-- Virtual functions and their interfaces change state as R283, R292, R293 and R299 say. -/
def Obligations.VirtualFunctionsAndTheirInterfaces : Prop :=
  Sys2Proof.Claims.VirtualFunctionsStartStopAndPause ∧ Sys2Proof.Claims.InterfacesLockStartAndStop

/-! ## Device steps: the host port -/

/-- R162, R186, R201, R278, R298: a host read of at most 4,096 bytes returns the bytes of HBM4, a host write puts its bytes there, and one
that must wait keeps its place; an AtomicOp completes with Unsupported Request and does nothing; a register read returns the register,
but not from a TDI in ERROR, nor from one in RUN without T on its IDE stream. -/
def Sys2Proof.Claims.HostRequestsReachMemoryAndRegisters : Prop :=
  ∀ (s u : State) (write addr size : W64) (data : W512) (bs : List Byte) (y : Inbound) (num die : Nat),
    let pa := addr.toNat; let n := size.toNat; let op := (write.extractLsb' 0 8).toNat
    let x (kind : MsgKind) : Inbound :=
      { num := s.nextIn, port := 0, src := (write.extractLsb' 16 16).toNat, tag := 0, ro := write.getLsbD 32, kind := kind, addr := pa,
        data := data, got := [] }
    let come (kind : MsgKind) : State := { s with inq := [x kind], nextIn := s.nextIn + 1 }
    let left (t : State) (l : List Inbound) : State := { t with inq := l }
    let send (t : State) (m : HostMsg) : State := { t with host := { t.host with sent := m :: t.host.sent } }
    let refused : State := { s with host := { s.host with ur := addr :: s.host.ur } }
    let space := (addr.extractLsb' 32 11).toNat; let v := if space = 0 then pfQ else space - 1; let f := s.vf v
    let reg := (regRead s space (addr.extractLsb' 0 32).toNat).toNat
    (s.inq = [] → addr.getLsbD 63 = false →
      (op = 0 → 1 ≤ n → n ≤ 4096 →
        (performIn (come (.read n)) (x (.read n)) pa 0 = (.ok bs u, y) →
          exec (.hostInboundRequest write addr size data) s = .next (left (send u { addr := pa, bs := bs, stream := none }) [])) ∧
        (performIn (come (.read n)) (x (.read n)) pa 0 = (.ue u, y) → exec (.hostInboundRequest write addr size data) s = .next (left u [])) ∧
        (performIn (come (.read n)) (x (.read n)) pa 0 = (.wait u, y) →
          exec (.hostInboundRequest write addr size data) s = .next (left u [y]))) ∧
      (op = 1 → 1 ≤ n → n ≤ 64 → let k : MsgKind := .write n (fullMask n)
        (performIn (come k) (x k) pa 0 = (.ok bs u, y) → exec (.hostInboundRequest write addr size data) s = .next (left u [])) ∧
        (performIn (come k) (x k) pa 0 = (.wait u, y) → exec (.hostInboundRequest write addr size data) s = .next (left u [y])))) ∧
    (op = 2 ∨ op = 0 ∧ addr.getLsbD 63 = false ∧ (n = 0 ∨ 4096 < n) →
      exec (.hostInboundRequest write addr size data) s = .next refused) ∧
    (addr.getLsbD 63 = true → op = 0 →
      (barOpen s v addr = true → exec (.hostInboundRequest write addr size data) s = .next (send s
        { addr := pa, bs := natBytes 8 reg, stream := if space = 0 then none else vfStream s (some (space - 1)) })) ∧
      (barOpen s v addr = false → exec (.hostInboundRequest write addr size data) s = .next refused) ∧
      (v ≠ pfQ → (f.tdi = .error → barOpen s v addr = false) ∧ (f.tdi = .configUnlocked ∨ f.tdi = .configLocked → barOpen s v addr = true) ∧
        (f.tdi = .run → (barOpen s v addr = true ↔
          addr.getLsbD 62 = true ∧ f.stream = some ((addr.extractLsb' 48 8).setWidth 64))))) ∧
    (isHbm pa = true → hbmUsable s pa = true → hbmWaits s pa = false → (∀ l ∈ linesOf pa n, lineFree s l = true) →
      let r := recallRange s pa n; let leave (t : State) : State := leaveLines t (.port num) (linesOf pa n)
      (anyBad (homeRd r pa n) = false → portRead s num pa n die = .ok ((homeRd r pa n).map Prod.fst) (leave r)) ∧
      (anyBad (homeRd r pa n) = true → portRead s num pa n die = .ue (leave (noteUe r pa n))) ∧
      (n = bs.length → portWrite s num pa bs 0xFFFFFFFFFFFFFFFF die = .ok [] (leave (homeWr r pa
        ((bs.zipIdx).map (fun b => if b.2 < 64 then some b.1 else none)) false))))

/-- R83, R175, R176, R190, R278, R279: a completion frees its tag and answers what awaits it, is kept for a colour that has been saved, or
is held back behind the marker of a cut; a translation that grants the access joins the cache, and one that lacks a permission asks for
the page; a failed page is kept as failed; an invalidation drops its range and completes once no access that used it is left. -/
def Sys2Proof.Claims.HostAnswersAndTranslations : Prop :=
  ∀ (s : State) (tag status page perm xlat ok base log2l : W64) (data : W512) (o : Outbound), let p := page.toNat
    let bad : Option (BitVec 8 × BitVec 8) := if status = 0 then none else some (cUE, 0); let h := s.host; let t := tag.toNat
    let s1 := invStep s t
    let outs (l : List Outbound) : State := { s1 with host := { s1.host with out := l } }
    let freed := ackBack (outs (s1.host.out.filter (fun x => x.tag != t))) o
    let lo := base.toNat % 2 ^ 50; let len := log2l.toNat
    let hit (g : Nat) : Bool := overlaps (g * 4096) 4096 lo (2 ^ len)
    let users := (h.out.filter (fun x => x.late.isNone && x.page.any hit)).map (·.tag)
    let cut : HostPort := { h with ats := h.ats.filter (fun e => !hit e.page) }
    let asks (w : Bool) : Prop := (p, w) ∈ h.atsAsked
    (h.out.find? (fun x => x.tag == t) = some o → o.late = none →
      (comesLate s o = true → exec (.hostCompletion tag status data) s = .next (ackBack (outs (s1.host.out.map (fun x =>
        if x.tag = t then { x with late := some (data, bad), epoch := none } else x))) o)) ∧
      (comesLate s o = false → o.recorded = false → exec (.hostCompletion tag status data) s = .next (deliverOut freed o data bad)) ∧
      (comesLate s o = false → o.recorded = true → exec (.hostCompletion tag status data) s = .next
        (storeResult freed t (if status = 0 then some data else none) bad))) ∧
    ((∀ x ∈ h.out, x.tag ≠ t) → exec (.hostCompletion tag status data) s = .next s) ∧
    (asks true ∨ asks false → ∃ t, exec (.atsTranslationResponse page perm xlat) s = .next t ∧
      (∀ w, (p, w) ∉ t.host.atsAsked) ∧ t.host.out = h.out ∧ t.mem = s.mem ∧
      (perm.getLsbD 0 = true ∨ perm.getLsbD 1 = true → t.host.ats.head? = some (⟨p, xlat.toNat, perm.getLsbD 0, perm.getLsbD 1⟩ : Ats)) ∧
      ((asks true ∧ perm.getLsbD 1 = false) ∨ (asks false ∧ perm.getLsbD 0 = false) →
        t.host.priAsked = if h.priAsked.length < 512 then setIns h.priAsked p else h.priAsked)) ∧
    (¬asks true → ¬asks false → exec (.atsTranslationResponse page perm xlat) s = .next s) ∧
    (p ∈ h.priAsked → exec (.priPageResponse page ok) s = .next { s with host := { h with
      priAsked := setDel h.priAsked p, priFailed := if ok = 0 then setIns h.priFailed p else h.priFailed } }) ∧
    (p ∉ h.priAsked → exec (.priPageResponse page ok) s = .next s) ∧
    (users = [] → exec (.atsInvalidation base log2l) s = .next { s with host := { cut with invdone := (lo, len) :: h.invdone } }) ∧
    (users ≠ [] → h.invq.length < 32 → exec (.atsInvalidation base log2l) s =
      .next { s with host := { cut with invq := h.invq ++ [(lo, len, users)] } }) ∧
    (users ≠ [] → 32 ≤ h.invq.length → exec (.atsInvalidation base log2l) s = .next s)

/-- The host port serves requests and takes answers. -/
def Obligations.HostPortServesAndIsAnswered : Prop :=
  Sys2Proof.Claims.HostRequestsReachMemoryAndRegisters ∧ Sys2Proof.Claims.HostAnswersAndTranslations

/-! ## Device steps: the wicker links -/

/-- R186, R193, R301 to R303: a peer's request goes through the lowest enabled window that covers it, or is answered NOWIN or NOPERM; a
read returns the bytes there; a write or an atomic performs once, answers, and is kept until REL, a repeated one returning the kept answer
and a full cache withholding it; one that must wait keeps its place. -/
def Sys2Proof.Claims.WickerRequestsPerformOnce : Prop :=
  ∀ (s u : State) (port srcdev tag off size mask op : W64) (data : W512) (pa num die : Nat) (st : BitVec 2) (bs : List Byte) (dn : Done)
      (y : Inbound),
    let p := port.toNat; let dev := srcdev.toNat; let t := tag.toNat % 2 ^ 32; let o := off.toNat % 2 ^ 40; let n := size.toNat
    let opc : BitVec 8 := op.extractLsb' 0 8; let an := (op.extractLsb' 16 8).toNat; let ty := Ty.ofCode (op.extractLsb' 8 4)
    let wn := (bitList 64 mask.toNat).getLastD 0 + 1; let aop := (op.extractLsb' 12 4).toNat
    let x (kind : MsgKind) (data : W512) : Inbound :=
      { num := s.nextIn, port := p + 1, src := dev, tag := t, ro := false, kind := kind, addr := o, data := data, got := [] }
    let come (q : Inbound) : State := { s with inq := [q], nextIn := s.nextIn + 1 }
    let left (t : State) (l : List Inbound) : State := { t with inq := l }
    let answer (v : State) (q : Inbound) (st : BitVec 2) (d : W512) : State :=
      wickSend v p {
        ty := answerTy q.kind, src := dev, dst := some Config.devNumber, tag := t, reis := false, off := o, size := answerSize q.kind
        op := none, mask := 0, status := st, data := d }
    let kept (v : State) (st : BitVec 2) (d : W512) : State := updPort v p (fun w => { w with
      cache := w.cache ++ [{ dev := dev, tag := t, status := st, data := d }] })
    let once (i : Instr) (q : Inbound) : Prop :=
      (cached s p dev t = some dn → exec i s = .next (left (answer (come q) q dn.status dn.data) [])) ∧
      (cached s p dev t = none → 4096 ≤ (wport s p).cache.length → exec i s = .next (left (come q) [q])) ∧
      (cached s p dev t = none → (wport s p).cache.length < 4096 →
        (windowAt (come q) o q.kind.perm = .error st → exec i s = .next (left (answer (come q) q st 0) [])) ∧
        (windowAt (come q) o q.kind.perm = .ok pa →
          (performIn (come q) q pa (portDie p) = (.ok bs u, y) → let d : W512 := if answerSize q.kind = 0 then 0 else bytesData bs
            exec i s = .next (left (answer (kept u 0 d) q 0 d) [])) ∧
          (performIn (come q) q pa (portDie p) = (.ue u, y) → exec i s = .next (left (answer (kept u 3 0) q 3 0) [])) ∧
          (performIn (come q) q pa (portDie p) = (.wait u, y) → exec i s = .next (left u [y]))))
    p < 36 → dev < 192 → s.inq = [] →
      (1 ≤ n → n ≤ 64 → let q := x (.read n) 0
        (windowAt (come q) o 0 = .error st → exec (.rdq port srcdev tag off size) s = .next (left (answer (come q) q st 0) [])) ∧
        (windowAt (come q) o 0 = .ok pa →
          (performIn (come q) q pa (portDie p) = (.ok bs u, y) →
            exec (.rdq port srcdev tag off size) s = .next (left (answer u q 0 (bytesData bs)) [])) ∧
          (performIn (come q) q pa (portDie p) = (.ue u, y) → exec (.rdq port srcdev tag off size) s = .next (left (answer u q 3 0) [])) ∧
          (performIn (come q) q pa (portDie p) = (.wait u, y) → exec (.rdq port srcdev tag off size) s = .next (left u [y])))) ∧
      once (.wrq port srcdev tag off mask data) (x (.write wn mask) data) ∧
      (opc.toNat ∈ [0x7A, 0x7B, 0x7C, 0x7E, 0x7F] → 1 ≤ an → an ≤ 64 →
        once (.atq port srcdev tag off op data) (x (.atomic opc ty aop an) data)) ∧
      exec (.rel port srcdev tag) s = .next (updPort s p (fun w => { w with
        cache := w.cache.filter (fun d => !(d.dev == dev && d.tag == tag.toNat)) })) ∧
      ((∀ w ∈ s.pf.wins, w.en = false) → windowAt s o 0 = .error 1) ∧
      (isHbm pa = true → hbmUsable s pa = true → hbmWaits s pa = false → (∀ l ∈ linesOf pa an, lineFree s l = true) →
        let r := recallRange s pa an
        let z := rmwBytes opc.toNat ty aop an ((homeRd r pa an).map Prod.fst)
          (if opc = 0x7C then data &&& BitVec.ofNat 512 (2 ^ 64 - 1) else data) (data >>> 64)
        anyBad (homeRd r pa an) = false → portRmw s num pa an die opc.toNat ty aop data =
          .ok (dataBytes z.2 64) (leaveLines (homeWr r pa (wrAll z.1) false) (.port num) (linesOf pa an)))

/-- R83, R175, R176, R301 to R303, R349: an answer from a peer frees its tag and reaches what awaits it, one to a write or an atomic after
REL has gone back; one that a cut recorded is discarded, and one behind the marker of a cut is held back. A CRC failure sends the
flits from its sequence number on again where they are kept, and a link that goes down is counted. -/
def Sys2Proof.Claims.WickerAnswersReturnAndLinksReplay : Prop :=
  ∀ (s : State) (port tag status seq : W64) (data : W512) (o : Outbound), let p := port.toNat; let t := tag.toNat
    let outs (l : List Outbound) : State := { s with wick := { s.wick with out := l } }
    let answers (i : Instr) (ty : BitVec 3) (d : W512) : Prop :=
      (s.wick.out.find? (fun x => x.tag == t && answerTy x.kind == ty && portFor x.addr == p) = some o → o.late = none →
        let s1 := ackBack (outs (s.wick.out.filter (fun x => x.tag != t))) o
        (comesLate s o = true → exec i s = .next (ackBack (outs (s.wick.out.map (fun x =>
          if x.tag = t then { x with late := some (d, wickStatus status), epoch := none } else x))) o)) ∧
        (comesLate s o = false → o.recorded = true → o.own = false → exec i s = .next s1) ∧
        (comesLate s o = false → o.recorded = false ∨ o.own = true →
          exec i s = .next (deliverOut (sendRel s1 o) o d (wickStatus status)))) ∧
      ((∀ x ∈ s.wick.out, x.tag ≠ t ∨ answerTy x.kind ≠ ty ∨ portFor x.addr ≠ p) → exec i s = .next s)
    let w := wport s p; let n := (w.seq - seq.setWidth 12).toNat; let again := if n ≤ w.kept.length then w.kept.take n else []
    answers (.rdr port tag status data) 1 data ∧ answers (.wra port tag status) 3 0 ∧ answers (.atr port tag status data) 5 data ∧
    (status = 0 → wickStatus status = none) ∧ (status = 1 ∨ status = 2 → wickStatus status = some (cPERM, rREMOTE)) ∧
    (isHost o.addr = false → o.kind.writes = true → sendRel s o = wickSend s (portFor o.addr) { wmsgOf o with
      ty := 6, reis := false, size := 0, op := none, mask := 0, data := 0 }) ∧
    (p < 36 → exec (.flitReplayRequest port seq) s = .next (updPort s p (fun w => { w with
      sent := again.map (·.msg) ++ w.sent, replayed := countUp w.replayed again.length, crc := countUp w.crc 1 }))) ∧
    (s.cur.place < 36 → exec .wickerLinkDown s = .next (updPort s s.cur.place (fun w => { w with downs := countUp w.downs 1 })))

/-- The wicker links serve requests once and take answers. -/
def Obligations.WickerLinksServeAndAreAnswered : Prop :=
  Sys2Proof.Claims.WickerRequestsPerformOnce ∧ Sys2Proof.Claims.WickerAnswersReturnAndLinksReplay
end

