-- ==== Sys2Proof/Laws/Encoding.lean ====
section
/-! SUPPORT. The fields of an encoded word read back: what each field reader finds in a word that the encoder has packed. -/

namespace Sys2Proof

/-! ## Fields of a concatenation -/

theorem extract_append_low {m n : Nat} (a : BitVec m) (b : BitVec n) (lo k : Nat) (h : lo + k ≤ n) :
    (a ++ b).extractLsb' lo k = b.extractLsb' lo k := by
  apply BitVec.eq_of_getLsbD_eq
  intro i hi
  simp [BitVec.getLsbD_append, hi]
  intro h'; omega

theorem extract_append_high {m n : Nat} (a : BitVec m) (b : BitVec n) (lo k : Nat) (h : n ≤ lo) :
    (a ++ b).extractLsb' lo k = a.extractLsb' (lo - n) k := by
  apply BitVec.eq_of_getLsbD_eq
  intro i hi
  have h1 : ¬ (lo + i < n) := by omega
  have h2 : lo + i - n = lo - n + i := by omega
  simp [BitVec.getLsbD_append, hi, h1, h2]

theorem extract_self {n : Nat} (a : BitVec n) : a.extractLsb' 0 n = a := by simp

/-! ## Codes -/

theorem Ty.ofCode_code (t : Ty) : Ty.ofCode t.code = t := by cases t <;> rfl

theorem Sel.ofCode_code (s : Sel) : Sel.ofCode s.code = s := by cases s <;> rfl

theorem Dest.ofBits_bits (d : Dest) : Dest.ofBits d.bits = d := by
  obtain ⟨v, q, l, p⟩ := d
  have hl : (Dest.bits ⟨v, q, l, p⟩).extractLsb' 2 16 = l :=
    (extract_append_high (BitVec.ofBool v ++ BitVec.ofBool q ++ l) p 2 16 (by decide)).trans <|
    (extract_append_low (BitVec.ofBool v ++ BitVec.ofBool q) l 0 16 (by decide)).trans (extract_self _)
  have hp : (Dest.bits ⟨v, q, l, p⟩).extractLsb' 0 2 = p :=
    (extract_append_low (BitVec.ofBool v ++ BitVec.ofBool q ++ l) p 0 2 (by decide)).trans (extract_self _)
  have e1 (i : Nat) := @BitVec.getLsbD_append (1 + 1 + 16) 2 i (BitVec.ofBool v ++ BitVec.ofBool q ++ l) p
  have e2 (i : Nat) := @BitVec.getLsbD_append (1 + 1) 16 i (BitVec.ofBool v ++ BitVec.ofBool q) l
  have e3 (i : Nat) := @BitVec.getLsbD_append 1 1 i (BitVec.ofBool v) (BitVec.ofBool q)
  have hv : (Dest.bits ⟨v, q, l, p⟩).getLsbD 19 = v := (e1 19).trans ((e2 17).trans ((e3 1).trans (by cases v <;> rfl)))
  have hq : (Dest.bits ⟨v, q, l, p⟩).getLsbD 18 = q := (e1 18).trans ((e2 16).trans ((e3 0).trans (by cases q <;> rfl)))
  simp only [Dest.ofBits, hl, hp, hv, hq]

/-! ## Common fields -/

theorem Common.bits_ty (c : Common) : c.bits.extractLsb' 81 4 = c.ty.code :=
  (extract_append_high (c.ty.code ++ c.md ++ c.acc ++ c.sa.code ++ c.sb.code ++ c.sc.code ++ c.d0.bits ++ c.d1.bits) c.d2.bits 81 4 (by decide)).trans <|
  (extract_append_high (c.ty.code ++ c.md ++ c.acc ++ c.sa.code ++ c.sb.code ++ c.sc.code ++ c.d0.bits) c.d1.bits 61 4 (by decide)).trans <|
  (extract_append_high (c.ty.code ++ c.md ++ c.acc ++ c.sa.code ++ c.sb.code ++ c.sc.code) c.d0.bits 41 4 (by decide)).trans <|
  (extract_append_high (c.ty.code ++ c.md ++ c.acc ++ c.sa.code ++ c.sb.code) c.sc.code 21 4 (by decide)).trans <|
  (extract_append_high (c.ty.code ++ c.md ++ c.acc ++ c.sa.code) c.sb.code 18 4 (by decide)).trans <|
  (extract_append_high (c.ty.code ++ c.md ++ c.acc) c.sa.code 15 4 (by decide)).trans <|
  (extract_append_high (c.ty.code ++ c.md) c.acc 12 4 (by decide)).trans <|
  (extract_append_high (c.ty.code) c.md 4 4 (by decide)).trans <|
  extract_self _

theorem Common.bits_md (c : Common) : c.bits.extractLsb' 77 4 = c.md :=
  (extract_append_high (c.ty.code ++ c.md ++ c.acc ++ c.sa.code ++ c.sb.code ++ c.sc.code ++ c.d0.bits ++ c.d1.bits) c.d2.bits 77 4 (by decide)).trans <|
  (extract_append_high (c.ty.code ++ c.md ++ c.acc ++ c.sa.code ++ c.sb.code ++ c.sc.code ++ c.d0.bits) c.d1.bits 57 4 (by decide)).trans <|
  (extract_append_high (c.ty.code ++ c.md ++ c.acc ++ c.sa.code ++ c.sb.code ++ c.sc.code) c.d0.bits 37 4 (by decide)).trans <|
  (extract_append_high (c.ty.code ++ c.md ++ c.acc ++ c.sa.code ++ c.sb.code) c.sc.code 17 4 (by decide)).trans <|
  (extract_append_high (c.ty.code ++ c.md ++ c.acc ++ c.sa.code) c.sb.code 14 4 (by decide)).trans <|
  (extract_append_high (c.ty.code ++ c.md ++ c.acc) c.sa.code 11 4 (by decide)).trans <|
  (extract_append_high (c.ty.code ++ c.md) c.acc 8 4 (by decide)).trans <|
  (extract_append_low (c.ty.code) c.md 0 4 (by decide)).trans (extract_self _)

theorem Common.bits_acc (c : Common) : c.bits.extractLsb' 69 8 = c.acc :=
  (extract_append_high (c.ty.code ++ c.md ++ c.acc ++ c.sa.code ++ c.sb.code ++ c.sc.code ++ c.d0.bits ++ c.d1.bits) c.d2.bits 69 8 (by decide)).trans <|
  (extract_append_high (c.ty.code ++ c.md ++ c.acc ++ c.sa.code ++ c.sb.code ++ c.sc.code ++ c.d0.bits) c.d1.bits 49 8 (by decide)).trans <|
  (extract_append_high (c.ty.code ++ c.md ++ c.acc ++ c.sa.code ++ c.sb.code ++ c.sc.code) c.d0.bits 29 8 (by decide)).trans <|
  (extract_append_high (c.ty.code ++ c.md ++ c.acc ++ c.sa.code ++ c.sb.code) c.sc.code 9 8 (by decide)).trans <|
  (extract_append_high (c.ty.code ++ c.md ++ c.acc ++ c.sa.code) c.sb.code 6 8 (by decide)).trans <|
  (extract_append_high (c.ty.code ++ c.md ++ c.acc) c.sa.code 3 8 (by decide)).trans <|
  (extract_append_low (c.ty.code ++ c.md) c.acc 0 8 (by decide)).trans (extract_self _)

theorem Common.bits_sa (c : Common) : c.bits.extractLsb' 66 3 = c.sa.code :=
  (extract_append_high (c.ty.code ++ c.md ++ c.acc ++ c.sa.code ++ c.sb.code ++ c.sc.code ++ c.d0.bits ++ c.d1.bits) c.d2.bits 66 3 (by decide)).trans <|
  (extract_append_high (c.ty.code ++ c.md ++ c.acc ++ c.sa.code ++ c.sb.code ++ c.sc.code ++ c.d0.bits) c.d1.bits 46 3 (by decide)).trans <|
  (extract_append_high (c.ty.code ++ c.md ++ c.acc ++ c.sa.code ++ c.sb.code ++ c.sc.code) c.d0.bits 26 3 (by decide)).trans <|
  (extract_append_high (c.ty.code ++ c.md ++ c.acc ++ c.sa.code ++ c.sb.code) c.sc.code 6 3 (by decide)).trans <|
  (extract_append_high (c.ty.code ++ c.md ++ c.acc ++ c.sa.code) c.sb.code 3 3 (by decide)).trans <|
  (extract_append_low (c.ty.code ++ c.md ++ c.acc) c.sa.code 0 3 (by decide)).trans (extract_self _)

theorem Common.bits_sb (c : Common) : c.bits.extractLsb' 63 3 = c.sb.code :=
  (extract_append_high (c.ty.code ++ c.md ++ c.acc ++ c.sa.code ++ c.sb.code ++ c.sc.code ++ c.d0.bits ++ c.d1.bits) c.d2.bits 63 3 (by decide)).trans <|
  (extract_append_high (c.ty.code ++ c.md ++ c.acc ++ c.sa.code ++ c.sb.code ++ c.sc.code ++ c.d0.bits) c.d1.bits 43 3 (by decide)).trans <|
  (extract_append_high (c.ty.code ++ c.md ++ c.acc ++ c.sa.code ++ c.sb.code ++ c.sc.code) c.d0.bits 23 3 (by decide)).trans <|
  (extract_append_high (c.ty.code ++ c.md ++ c.acc ++ c.sa.code ++ c.sb.code) c.sc.code 3 3 (by decide)).trans <|
  (extract_append_low (c.ty.code ++ c.md ++ c.acc ++ c.sa.code) c.sb.code 0 3 (by decide)).trans (extract_self _)

theorem Common.bits_sc (c : Common) : c.bits.extractLsb' 60 3 = c.sc.code :=
  (extract_append_high (c.ty.code ++ c.md ++ c.acc ++ c.sa.code ++ c.sb.code ++ c.sc.code ++ c.d0.bits ++ c.d1.bits) c.d2.bits 60 3 (by decide)).trans <|
  (extract_append_high (c.ty.code ++ c.md ++ c.acc ++ c.sa.code ++ c.sb.code ++ c.sc.code ++ c.d0.bits) c.d1.bits 40 3 (by decide)).trans <|
  (extract_append_high (c.ty.code ++ c.md ++ c.acc ++ c.sa.code ++ c.sb.code ++ c.sc.code) c.d0.bits 20 3 (by decide)).trans <|
  (extract_append_low (c.ty.code ++ c.md ++ c.acc ++ c.sa.code ++ c.sb.code) c.sc.code 0 3 (by decide)).trans (extract_self _)

theorem Common.bits_d0 (c : Common) : c.bits.extractLsb' 40 20 = c.d0.bits :=
  (extract_append_high (c.ty.code ++ c.md ++ c.acc ++ c.sa.code ++ c.sb.code ++ c.sc.code ++ c.d0.bits ++ c.d1.bits) c.d2.bits 40 20 (by decide)).trans <|
  (extract_append_high (c.ty.code ++ c.md ++ c.acc ++ c.sa.code ++ c.sb.code ++ c.sc.code ++ c.d0.bits) c.d1.bits 20 20 (by decide)).trans <|
  (extract_append_low (c.ty.code ++ c.md ++ c.acc ++ c.sa.code ++ c.sb.code ++ c.sc.code) c.d0.bits 0 20 (by decide)).trans (extract_self _)

theorem Common.bits_d1 (c : Common) : c.bits.extractLsb' 20 20 = c.d1.bits :=
  (extract_append_high (c.ty.code ++ c.md ++ c.acc ++ c.sa.code ++ c.sb.code ++ c.sc.code ++ c.d0.bits ++ c.d1.bits) c.d2.bits 20 20 (by decide)).trans <|
  (extract_append_low (c.ty.code ++ c.md ++ c.acc ++ c.sa.code ++ c.sb.code ++ c.sc.code ++ c.d0.bits) c.d1.bits 0 20 (by decide)).trans (extract_self _)

theorem Common.bits_d2 (c : Common) : c.bits.extractLsb' 0 20 = c.d2.bits :=
  (extract_append_low (c.ty.code ++ c.md ++ c.acc ++ c.sa.code ++ c.sb.code ++ c.sc.code ++ c.d0.bits ++ c.d1.bits) c.d2.bits 0 20 (by decide)).trans (extract_self _)

theorem packStake_bit (opc : BitVec 8) (c : Common) (xf : BitVec 35) (i : Nat) :
    ((packStake opc c xf).setWidth 128).getLsbD i = (decide (i < 128) &&
      if i < 35 then xf.getLsbD i else if i - 35 < 85 then c.bits.getLsbD (i - 35) else opc.getLsbD (i - 35 - 85)) := by
  have e1 := @BitVec.getLsbD_append (8 + 85) 35 i (opc ++ c.bits) xf
  have e2 := @BitVec.getLsbD_append 8 85 (i - 35) opc c.bits
  rw [e2] at e1
  rw [← e1, packStake, BitVec.getLsbD_setWidth, BitVec.getLsbD_setWidth]
  by_cases h : i < 128
  · have h' : i < 1152 := by omega
    simp only [h, h', decide_true, Bool.true_and]
  · simp [h]

theorem packStake_xf (opc : BitVec 8) (c : Common) (xf : BitVec 35) :
    ((packStake opc c xf).setWidth 128).extractLsb' 0 35 = xf := by
  apply BitVec.eq_of_getLsbD_eq
  intro i hi
  have h : i < 128 := by omega
  rw [BitVec.getLsbD_extractLsb', packStake_bit]
  simp [hi, h]

theorem packStake_opc128 (opc : BitVec 8) (c : Common) (xf : BitVec 35) :
    ((packStake opc c xf).setWidth 128).extractLsb' 120 8 = opc := by
  apply BitVec.eq_of_getLsbD_eq
  intro i hi
  rw [BitVec.getLsbD_extractLsb', packStake_bit, if_neg (by omega), if_neg (by omega)]
  have h : 120 + i < 128 := by omega
  have h' : 120 + i - 35 - 85 = i := by omega
  simp [hi, h, h']

theorem packStake_bits (opc : BitVec 8) (c : Common) (xf : BitVec 35) (lo n : Nat) (hn : 35 ≤ lo) (h : lo + n ≤ 120) :
    ((packStake opc c xf).setWidth 128).extractLsb' lo n = c.bits.extractLsb' (lo - 35) n := by
  apply BitVec.eq_of_getLsbD_eq
  intro i hi
  rw [BitVec.getLsbD_extractLsb', BitVec.getLsbD_extractLsb', packStake_bit, if_neg (by omega), if_pos (by omega)]
  have h1 : lo + i < 128 := by omega
  have h2 : lo + i - 35 = lo - 35 + i := by omega
  simp [hi, h1, h2]

theorem packStake_common (opc : BitVec 8) (c : Common) (xf : BitVec 35) :
    Common.ofWord ((packStake opc c xf).setWidth 128) = c := by
  have f (lo n : Nat) (h1 : 35 ≤ lo) (h2 : lo + n ≤ 120) := packStake_bits opc c xf lo n h1 h2
  rw [Common.ofWord, f 116 4 (by decide) (by decide), f 112 4 (by decide) (by decide), f 104 8 (by decide) (by decide),
    f 101 3 (by decide) (by decide), f 98 3 (by decide) (by decide), f 95 3 (by decide) (by decide),
    f 75 20 (by decide) (by decide), f 55 20 (by decide) (by decide), f 35 20 (by decide) (by decide)]
  simp only [Nat.reduceSub, Common.bits_ty, Common.bits_md, Common.bits_acc, Common.bits_sa, Common.bits_sb, Common.bits_sc,
    Common.bits_d0, Common.bits_d1, Common.bits_d2, Ty.ofCode_code, Sel.ofCode_code, Dest.ofBits_bits]

theorem packStake_opc (opc : BitVec 8) (c : Common) (xf : BitVec 35) : (packStake opc c xf).extractLsb' 120 8 = opc := by
  refine Eq.trans ?_ (packStake_opc128 opc c xf)
  apply BitVec.eq_of_getLsbD_eq
  intro i hi
  have h : 120 + i < 128 := by omega
  simp [hi, h]

/-! ## XF -/

theorem ImmX.ofBits_bits (x : ImmX) : ImmX.ofBits x.bits = x := by
  have hsub : x.bits.extractLsb' 32 3 = x.sub :=
    (extract_append_high (x.sub) x.imm 32 3 (by decide)).trans <|
    extract_self _
  have himm : x.bits.extractLsb' 0 32 = x.imm :=
    (extract_append_low (x.sub) x.imm 0 32 (by decide)).trans (extract_self _)
  simp only [ImmX.ofBits, hsub, himm]

theorem MemX.ofBits_bits (x : MemX) : MemX.ofBits x.bits = x := by
  have hpred : x.bits.extractLsb' 26 9 = x.pred :=
    (extract_append_high (x.pred ++ x.own ++ x.succ ++ x.fc ++ x.sz) x.ord 26 9 (by decide)).trans <|
    (extract_append_high (x.pred ++ x.own ++ x.succ ++ x.fc) x.sz 24 9 (by decide)).trans <|
    (extract_append_high (x.pred ++ x.own ++ x.succ) x.fc 21 9 (by decide)).trans <|
    (extract_append_high (x.pred ++ x.own) x.succ 18 9 (by decide)).trans <|
    (extract_append_high (x.pred) x.own 9 9 (by decide)).trans <|
    extract_self _
  have hown : x.bits.extractLsb' 17 9 = x.own :=
    (extract_append_high (x.pred ++ x.own ++ x.succ ++ x.fc ++ x.sz) x.ord 17 9 (by decide)).trans <|
    (extract_append_high (x.pred ++ x.own ++ x.succ ++ x.fc) x.sz 15 9 (by decide)).trans <|
    (extract_append_high (x.pred ++ x.own ++ x.succ) x.fc 12 9 (by decide)).trans <|
    (extract_append_high (x.pred ++ x.own) x.succ 9 9 (by decide)).trans <|
    (extract_append_low (x.pred) x.own 0 9 (by decide)).trans (extract_self _)
  have hsucc : x.bits.extractLsb' 8 9 = x.succ :=
    (extract_append_high (x.pred ++ x.own ++ x.succ ++ x.fc ++ x.sz) x.ord 8 9 (by decide)).trans <|
    (extract_append_high (x.pred ++ x.own ++ x.succ ++ x.fc) x.sz 6 9 (by decide)).trans <|
    (extract_append_high (x.pred ++ x.own ++ x.succ) x.fc 3 9 (by decide)).trans <|
    (extract_append_low (x.pred ++ x.own) x.succ 0 9 (by decide)).trans (extract_self _)
  have hfc : x.bits.extractLsb' 5 3 = x.fc :=
    (extract_append_high (x.pred ++ x.own ++ x.succ ++ x.fc ++ x.sz) x.ord 5 3 (by decide)).trans <|
    (extract_append_high (x.pred ++ x.own ++ x.succ ++ x.fc) x.sz 3 3 (by decide)).trans <|
    (extract_append_low (x.pred ++ x.own ++ x.succ) x.fc 0 3 (by decide)).trans (extract_self _)
  have hsz : x.bits.extractLsb' 2 3 = x.sz :=
    (extract_append_high (x.pred ++ x.own ++ x.succ ++ x.fc ++ x.sz) x.ord 2 3 (by decide)).trans <|
    (extract_append_low (x.pred ++ x.own ++ x.succ ++ x.fc) x.sz 0 3 (by decide)).trans (extract_self _)
  have hord : x.bits.extractLsb' 0 2 = x.ord :=
    (extract_append_low (x.pred ++ x.own ++ x.succ ++ x.fc ++ x.sz) x.ord 0 2 (by decide)).trans (extract_self _)
  simp only [MemX.ofBits, hpred, hown, hsucc, hfc, hsz, hord]

theorem FenceX.ofBits_bits (x : FenceX) : FenceX.ofBits x.bits = x := by
  have hpred : x.bits.extractLsb' 26 9 = x.pred :=
    (extract_append_high (x.pred ++ x.own ++ x.succ) x.mask 26 9 (by decide)).trans <|
    (extract_append_high (x.pred ++ x.own) x.succ 18 9 (by decide)).trans <|
    (extract_append_high (x.pred) x.own 9 9 (by decide)).trans <|
    extract_self _
  have hown : x.bits.extractLsb' 17 9 = x.own :=
    (extract_append_high (x.pred ++ x.own ++ x.succ) x.mask 17 9 (by decide)).trans <|
    (extract_append_high (x.pred ++ x.own) x.succ 9 9 (by decide)).trans <|
    (extract_append_low (x.pred) x.own 0 9 (by decide)).trans (extract_self _)
  have hsucc : x.bits.extractLsb' 8 9 = x.succ :=
    (extract_append_high (x.pred ++ x.own ++ x.succ) x.mask 8 9 (by decide)).trans <|
    (extract_append_low (x.pred ++ x.own) x.succ 0 9 (by decide)).trans (extract_self _)
  have hmask : x.bits.extractLsb' 0 8 = x.mask :=
    (extract_append_low (x.pred ++ x.own ++ x.succ) x.mask 0 8 (by decide)).trans (extract_self _)
  simp only [FenceX.ofBits, hpred, hown, hsucc, hmask]

theorem TmemX.ofBits_bits (x : TmemX) : TmemX.ofBits x.bits = x := by
  have hpred : x.bits.extractLsb' 26 9 = x.pred :=
    (extract_append_high (x.pred ++ x.own ++ x.succ ++ x.fc ++ (0 : BitVec 1) ++ x.tmLow) x.ord 26 9 (by decide)).trans <|
    (extract_append_high (x.pred ++ x.own ++ x.succ ++ x.fc ++ (0 : BitVec 1)) x.tmLow 24 9 (by decide)).trans <|
    (extract_append_high (x.pred ++ x.own ++ x.succ ++ x.fc) (0 : BitVec 1) 22 9 (by decide)).trans <|
    (extract_append_high (x.pred ++ x.own ++ x.succ) x.fc 21 9 (by decide)).trans <|
    (extract_append_high (x.pred ++ x.own) x.succ 18 9 (by decide)).trans <|
    (extract_append_high (x.pred) x.own 9 9 (by decide)).trans <|
    extract_self _
  have hown : x.bits.extractLsb' 17 9 = x.own :=
    (extract_append_high (x.pred ++ x.own ++ x.succ ++ x.fc ++ (0 : BitVec 1) ++ x.tmLow) x.ord 17 9 (by decide)).trans <|
    (extract_append_high (x.pred ++ x.own ++ x.succ ++ x.fc ++ (0 : BitVec 1)) x.tmLow 15 9 (by decide)).trans <|
    (extract_append_high (x.pred ++ x.own ++ x.succ ++ x.fc) (0 : BitVec 1) 13 9 (by decide)).trans <|
    (extract_append_high (x.pred ++ x.own ++ x.succ) x.fc 12 9 (by decide)).trans <|
    (extract_append_high (x.pred ++ x.own) x.succ 9 9 (by decide)).trans <|
    (extract_append_low (x.pred) x.own 0 9 (by decide)).trans (extract_self _)
  have hsucc : x.bits.extractLsb' 8 9 = x.succ :=
    (extract_append_high (x.pred ++ x.own ++ x.succ ++ x.fc ++ (0 : BitVec 1) ++ x.tmLow) x.ord 8 9 (by decide)).trans <|
    (extract_append_high (x.pred ++ x.own ++ x.succ ++ x.fc ++ (0 : BitVec 1)) x.tmLow 6 9 (by decide)).trans <|
    (extract_append_high (x.pred ++ x.own ++ x.succ ++ x.fc) (0 : BitVec 1) 4 9 (by decide)).trans <|
    (extract_append_high (x.pred ++ x.own ++ x.succ) x.fc 3 9 (by decide)).trans <|
    (extract_append_low (x.pred ++ x.own) x.succ 0 9 (by decide)).trans (extract_self _)
  have hfc : x.bits.extractLsb' 5 3 = x.fc :=
    (extract_append_high (x.pred ++ x.own ++ x.succ ++ x.fc ++ (0 : BitVec 1) ++ x.tmLow) x.ord 5 3 (by decide)).trans <|
    (extract_append_high (x.pred ++ x.own ++ x.succ ++ x.fc ++ (0 : BitVec 1)) x.tmLow 3 3 (by decide)).trans <|
    (extract_append_high (x.pred ++ x.own ++ x.succ ++ x.fc) (0 : BitVec 1) 1 3 (by decide)).trans <|
    (extract_append_low (x.pred ++ x.own ++ x.succ) x.fc 0 3 (by decide)).trans (extract_self _)
  have htm : x.bits.extractLsb' 2 2 = x.tmLow :=
    (extract_append_high (x.pred ++ x.own ++ x.succ ++ x.fc ++ (0 : BitVec 1) ++ x.tmLow) x.ord 2 2 (by decide)).trans <|
    (extract_append_low (x.pred ++ x.own ++ x.succ ++ x.fc ++ (0 : BitVec 1)) x.tmLow 0 2 (by decide)).trans (extract_self _)
  have hord : x.bits.extractLsb' 0 2 = x.ord :=
    (extract_append_low (x.pred ++ x.own ++ x.succ ++ x.fc ++ (0 : BitVec 1) ++ x.tmLow) x.ord 0 2 (by decide)).trans (extract_self _)
  simp only [TmemX.ofBits, hpred, hown, hsucc, hfc, htm, hord]

theorem BfX.ofBits_bits (x : BfX) : BfX.ofBits x.bits = x := by
  have hlen : x.bits.extractLsb' 8 8 = x.len :=
    (extract_append_high ((0 : BitVec 19) ++ x.len) x.pos 8 8 (by decide)).trans <|
    (extract_append_low ((0 : BitVec 19)) x.len 0 8 (by decide)).trans (extract_self _)
  have hpos : x.bits.extractLsb' 0 8 = x.pos :=
    (extract_append_low ((0 : BitVec 19) ++ x.len) x.pos 0 8 (by decide)).trans (extract_self _)
  simp only [BfX.ofBits, hlen, hpos]

theorem MatX.ofBits_bits (x : MatX) : MatX.ofBits x.bits = x := by
  have hbank : x.bits.extractLsb' 33 2 = x.bank :=
    (extract_append_high (x.bank ++ x.bty.code) (0 : BitVec 29) 33 2 (by decide)).trans <|
    (extract_append_high (x.bank) x.bty.code 4 2 (by decide)).trans <|
    extract_self _
  have hbty : x.bits.extractLsb' 29 4 = x.bty.code :=
    (extract_append_high (x.bank ++ x.bty.code) (0 : BitVec 29) 29 4 (by decide)).trans <|
    (extract_append_low (x.bank) x.bty.code 0 4 (by decide)).trans (extract_self _)
  simp only [MatX.ofBits, hbank, hbty, Ty.ofCode_code]

theorem xfLow_extract {n : Nat} (b : BitVec n) (h : n ≤ 35) : (xfLow b).extractLsb' 0 n = b := by
  apply BitVec.eq_of_getLsbD_eq
  intro i hi
  have h' : i < 35 := by omega
  simp [xfLow, hi, h']

theorem xfLow_ty (t : Ty) : Ty.ofCode ((xfLow t.code).extractLsb' 0 4) = t := by
  rw [xfLow_extract t.code (by decide), Ty.ofCode_code]

/-- A stake word parses to what its fields spell. -/
theorem parse_packStake (opc : BitVec 8) (c : Common) (xf : BitVec 35) (h : (opc == 0) = false) :
    parse (packStake opc c xf) = stakeTable opc.toNat c xf := by
  rw [parse, packStake_opc, if_neg (by simpa using h), parseStake, packStake_opc128, packStake_common, packStake_xf]

/-! ## Device steps -/

theorem packEvent_opc (code : BitVec 8) (f0 f1 f2 f3 f4 f5 : W64) (data : W512) :
    (packEvent code f0 f1 f2 f3 f4 f5 data).extractLsb' 120 8 = 0 :=
  (extract_append_high (data ++ (0 : W64) ++ (0 : W64) ++ f5 ++ f4 ++ f3 ++ f2 ++ f1 ++ f0 ++ (0 : BitVec 8) ++ code) (0 : BitVec 112) 120 8 (by decide)).trans <|
  (extract_append_high (data ++ (0 : W64) ++ (0 : W64) ++ f5 ++ f4 ++ f3 ++ f2 ++ f1 ++ f0 ++ (0 : BitVec 8)) code 8 8 (by decide)).trans <|
  (extract_append_low (data ++ (0 : W64) ++ (0 : W64) ++ f5 ++ f4 ++ f3 ++ f2 ++ f1 ++ f0) (0 : BitVec 8) 0 8 (by decide)).trans (extract_self _)

theorem packEvent_code (code : BitVec 8) (f0 f1 f2 f3 f4 f5 : W64) (data : W512) :
    (packEvent code f0 f1 f2 f3 f4 f5 data).extractLsb' 112 8 = code :=
  (extract_append_high (data ++ (0 : W64) ++ (0 : W64) ++ f5 ++ f4 ++ f3 ++ f2 ++ f1 ++ f0 ++ (0 : BitVec 8) ++ code) (0 : BitVec 112) 112 8 (by decide)).trans <|
  (extract_append_low (data ++ (0 : W64) ++ (0 : W64) ++ f5 ++ f4 ++ f3 ++ f2 ++ f1 ++ f0 ++ (0 : BitVec 8)) code 0 8 (by decide)).trans (extract_self _)

theorem packEvent_f0 (code : BitVec 8) (f0 f1 f2 f3 f4 f5 : W64) (data : W512) :
    eventField (packEvent code f0 f1 f2 f3 f4 f5 data) 0 = f0 :=
  (extract_append_high (data ++ (0 : W64) ++ (0 : W64) ++ f5 ++ f4 ++ f3 ++ f2 ++ f1 ++ f0 ++ (0 : BitVec 8) ++ code) (0 : BitVec 112) 128 64 (by decide)).trans <|
  (extract_append_high (data ++ (0 : W64) ++ (0 : W64) ++ f5 ++ f4 ++ f3 ++ f2 ++ f1 ++ f0 ++ (0 : BitVec 8)) code 16 64 (by decide)).trans <|
  (extract_append_high (data ++ (0 : W64) ++ (0 : W64) ++ f5 ++ f4 ++ f3 ++ f2 ++ f1 ++ f0) (0 : BitVec 8) 8 64 (by decide)).trans <|
  (extract_append_low (data ++ (0 : W64) ++ (0 : W64) ++ f5 ++ f4 ++ f3 ++ f2 ++ f1) f0 0 64 (by decide)).trans (extract_self _)

theorem packEvent_f1 (code : BitVec 8) (f0 f1 f2 f3 f4 f5 : W64) (data : W512) :
    eventField (packEvent code f0 f1 f2 f3 f4 f5 data) 1 = f1 :=
  (extract_append_high (data ++ (0 : W64) ++ (0 : W64) ++ f5 ++ f4 ++ f3 ++ f2 ++ f1 ++ f0 ++ (0 : BitVec 8) ++ code) (0 : BitVec 112) 192 64 (by decide)).trans <|
  (extract_append_high (data ++ (0 : W64) ++ (0 : W64) ++ f5 ++ f4 ++ f3 ++ f2 ++ f1 ++ f0 ++ (0 : BitVec 8)) code 80 64 (by decide)).trans <|
  (extract_append_high (data ++ (0 : W64) ++ (0 : W64) ++ f5 ++ f4 ++ f3 ++ f2 ++ f1 ++ f0) (0 : BitVec 8) 72 64 (by decide)).trans <|
  (extract_append_high (data ++ (0 : W64) ++ (0 : W64) ++ f5 ++ f4 ++ f3 ++ f2 ++ f1) f0 64 64 (by decide)).trans <|
  (extract_append_low (data ++ (0 : W64) ++ (0 : W64) ++ f5 ++ f4 ++ f3 ++ f2) f1 0 64 (by decide)).trans (extract_self _)

theorem packEvent_f2 (code : BitVec 8) (f0 f1 f2 f3 f4 f5 : W64) (data : W512) :
    eventField (packEvent code f0 f1 f2 f3 f4 f5 data) 2 = f2 :=
  (extract_append_high (data ++ (0 : W64) ++ (0 : W64) ++ f5 ++ f4 ++ f3 ++ f2 ++ f1 ++ f0 ++ (0 : BitVec 8) ++ code) (0 : BitVec 112) 256 64 (by decide)).trans <|
  (extract_append_high (data ++ (0 : W64) ++ (0 : W64) ++ f5 ++ f4 ++ f3 ++ f2 ++ f1 ++ f0 ++ (0 : BitVec 8)) code 144 64 (by decide)).trans <|
  (extract_append_high (data ++ (0 : W64) ++ (0 : W64) ++ f5 ++ f4 ++ f3 ++ f2 ++ f1 ++ f0) (0 : BitVec 8) 136 64 (by decide)).trans <|
  (extract_append_high (data ++ (0 : W64) ++ (0 : W64) ++ f5 ++ f4 ++ f3 ++ f2 ++ f1) f0 128 64 (by decide)).trans <|
  (extract_append_high (data ++ (0 : W64) ++ (0 : W64) ++ f5 ++ f4 ++ f3 ++ f2) f1 64 64 (by decide)).trans <|
  (extract_append_low (data ++ (0 : W64) ++ (0 : W64) ++ f5 ++ f4 ++ f3) f2 0 64 (by decide)).trans (extract_self _)

theorem packEvent_f3 (code : BitVec 8) (f0 f1 f2 f3 f4 f5 : W64) (data : W512) :
    eventField (packEvent code f0 f1 f2 f3 f4 f5 data) 3 = f3 :=
  (extract_append_high (data ++ (0 : W64) ++ (0 : W64) ++ f5 ++ f4 ++ f3 ++ f2 ++ f1 ++ f0 ++ (0 : BitVec 8) ++ code) (0 : BitVec 112) 320 64 (by decide)).trans <|
  (extract_append_high (data ++ (0 : W64) ++ (0 : W64) ++ f5 ++ f4 ++ f3 ++ f2 ++ f1 ++ f0 ++ (0 : BitVec 8)) code 208 64 (by decide)).trans <|
  (extract_append_high (data ++ (0 : W64) ++ (0 : W64) ++ f5 ++ f4 ++ f3 ++ f2 ++ f1 ++ f0) (0 : BitVec 8) 200 64 (by decide)).trans <|
  (extract_append_high (data ++ (0 : W64) ++ (0 : W64) ++ f5 ++ f4 ++ f3 ++ f2 ++ f1) f0 192 64 (by decide)).trans <|
  (extract_append_high (data ++ (0 : W64) ++ (0 : W64) ++ f5 ++ f4 ++ f3 ++ f2) f1 128 64 (by decide)).trans <|
  (extract_append_high (data ++ (0 : W64) ++ (0 : W64) ++ f5 ++ f4 ++ f3) f2 64 64 (by decide)).trans <|
  (extract_append_low (data ++ (0 : W64) ++ (0 : W64) ++ f5 ++ f4) f3 0 64 (by decide)).trans (extract_self _)

theorem packEvent_f4 (code : BitVec 8) (f0 f1 f2 f3 f4 f5 : W64) (data : W512) :
    eventField (packEvent code f0 f1 f2 f3 f4 f5 data) 4 = f4 :=
  (extract_append_high (data ++ (0 : W64) ++ (0 : W64) ++ f5 ++ f4 ++ f3 ++ f2 ++ f1 ++ f0 ++ (0 : BitVec 8) ++ code) (0 : BitVec 112) 384 64 (by decide)).trans <|
  (extract_append_high (data ++ (0 : W64) ++ (0 : W64) ++ f5 ++ f4 ++ f3 ++ f2 ++ f1 ++ f0 ++ (0 : BitVec 8)) code 272 64 (by decide)).trans <|
  (extract_append_high (data ++ (0 : W64) ++ (0 : W64) ++ f5 ++ f4 ++ f3 ++ f2 ++ f1 ++ f0) (0 : BitVec 8) 264 64 (by decide)).trans <|
  (extract_append_high (data ++ (0 : W64) ++ (0 : W64) ++ f5 ++ f4 ++ f3 ++ f2 ++ f1) f0 256 64 (by decide)).trans <|
  (extract_append_high (data ++ (0 : W64) ++ (0 : W64) ++ f5 ++ f4 ++ f3 ++ f2) f1 192 64 (by decide)).trans <|
  (extract_append_high (data ++ (0 : W64) ++ (0 : W64) ++ f5 ++ f4 ++ f3) f2 128 64 (by decide)).trans <|
  (extract_append_high (data ++ (0 : W64) ++ (0 : W64) ++ f5 ++ f4) f3 64 64 (by decide)).trans <|
  (extract_append_low (data ++ (0 : W64) ++ (0 : W64) ++ f5) f4 0 64 (by decide)).trans (extract_self _)

theorem packEvent_f5 (code : BitVec 8) (f0 f1 f2 f3 f4 f5 : W64) (data : W512) :
    eventField (packEvent code f0 f1 f2 f3 f4 f5 data) 5 = f5 :=
  (extract_append_high (data ++ (0 : W64) ++ (0 : W64) ++ f5 ++ f4 ++ f3 ++ f2 ++ f1 ++ f0 ++ (0 : BitVec 8) ++ code) (0 : BitVec 112) 448 64 (by decide)).trans <|
  (extract_append_high (data ++ (0 : W64) ++ (0 : W64) ++ f5 ++ f4 ++ f3 ++ f2 ++ f1 ++ f0 ++ (0 : BitVec 8)) code 336 64 (by decide)).trans <|
  (extract_append_high (data ++ (0 : W64) ++ (0 : W64) ++ f5 ++ f4 ++ f3 ++ f2 ++ f1 ++ f0) (0 : BitVec 8) 328 64 (by decide)).trans <|
  (extract_append_high (data ++ (0 : W64) ++ (0 : W64) ++ f5 ++ f4 ++ f3 ++ f2 ++ f1) f0 320 64 (by decide)).trans <|
  (extract_append_high (data ++ (0 : W64) ++ (0 : W64) ++ f5 ++ f4 ++ f3 ++ f2) f1 256 64 (by decide)).trans <|
  (extract_append_high (data ++ (0 : W64) ++ (0 : W64) ++ f5 ++ f4 ++ f3) f2 192 64 (by decide)).trans <|
  (extract_append_high (data ++ (0 : W64) ++ (0 : W64) ++ f5 ++ f4) f3 128 64 (by decide)).trans <|
  (extract_append_high (data ++ (0 : W64) ++ (0 : W64) ++ f5) f4 64 64 (by decide)).trans <|
  (extract_append_low (data ++ (0 : W64) ++ (0 : W64)) f5 0 64 (by decide)).trans (extract_self _)

theorem packEvent_data (code : BitVec 8) (f0 f1 f2 f3 f4 f5 : W64) (data : W512) :
    eventData (packEvent code f0 f1 f2 f3 f4 f5 data) = data :=
  (extract_append_high (data ++ (0 : W64) ++ (0 : W64) ++ f5 ++ f4 ++ f3 ++ f2 ++ f1 ++ f0 ++ (0 : BitVec 8) ++ code) (0 : BitVec 112) 640 512 (by decide)).trans <|
  (extract_append_high (data ++ (0 : W64) ++ (0 : W64) ++ f5 ++ f4 ++ f3 ++ f2 ++ f1 ++ f0 ++ (0 : BitVec 8)) code 528 512 (by decide)).trans <|
  (extract_append_high (data ++ (0 : W64) ++ (0 : W64) ++ f5 ++ f4 ++ f3 ++ f2 ++ f1 ++ f0) (0 : BitVec 8) 520 512 (by decide)).trans <|
  (extract_append_high (data ++ (0 : W64) ++ (0 : W64) ++ f5 ++ f4 ++ f3 ++ f2 ++ f1) f0 512 512 (by decide)).trans <|
  (extract_append_high (data ++ (0 : W64) ++ (0 : W64) ++ f5 ++ f4 ++ f3 ++ f2) f1 448 512 (by decide)).trans <|
  (extract_append_high (data ++ (0 : W64) ++ (0 : W64) ++ f5 ++ f4 ++ f3) f2 384 512 (by decide)).trans <|
  (extract_append_high (data ++ (0 : W64) ++ (0 : W64) ++ f5 ++ f4) f3 320 512 (by decide)).trans <|
  (extract_append_high (data ++ (0 : W64) ++ (0 : W64) ++ f5) f4 256 512 (by decide)).trans <|
  (extract_append_high (data ++ (0 : W64) ++ (0 : W64)) f5 192 512 (by decide)).trans <|
  (extract_append_high (data ++ (0 : W64)) (0 : W64) 128 512 (by decide)).trans <|
  (extract_append_high (data) (0 : W64) 64 512 (by decide)).trans <|
  extract_self _

/-- The word of a device step parses to what its fields spell. -/
theorem parse_packEvent (code : BitVec 8) (f0 f1 f2 f3 f4 f5 : W64) (data : W512) :
    parse (packEvent code f0 f1 f2 f3 f4 f5 data) = eventTable code.toNat f0 f1 f2 f3 f4 f5 data := by
  rw [parse, packEvent_opc, if_pos rfl, parseEvent, packEvent_code, packEvent_f0, packEvent_f1, packEvent_f2, packEvent_f3,
    packEvent_f4, packEvent_f5, packEvent_data]

end Sys2Proof
end

