-- ==== Sys2Proof/Laws/Maps.lean ====
section
/-! SUPPORT. What the operations on tables, and the readers and writers of the units, give back. -/

namespace Sys2Proof.Machine

@[simp] theorem mapGet?_mapPut_same {α : Type} (m : NMap α) (n : Nat) (v : α) : mapGet? (mapPut m n v) n = some v := by
  induction m with
  | nil => simp [mapPut, mapGet?]
  | cons x m ih =>
    obtain ⟨k, w⟩ := x
    simp only [mapPut]
    split
    · simp [mapGet?]
    · split
      · simp [mapGet?]
      · simp [mapGet?, *]

theorem mapGet?_mapPut_ne {α : Type} (m : NMap α) {n k : Nat} (v : α) (h : k ≠ n) :
    mapGet? (mapPut m n v) k = mapGet? m k := by
  induction m with
  | nil => simp [mapPut, mapGet?, h]
  | cons x m ih =>
    obtain ⟨j, w⟩ := x
    simp only [mapPut]
    split
    · simp [mapGet?, h]
    · split
      · subst_vars; simp [mapGet?, h]
      · simp only [mapGet?, ih]

theorem mapGet?_mapPut {α : Type} (m : NMap α) (n k : Nat) (v : α) :
    mapGet? (mapPut m n v) k = if k = n then some v else mapGet? m k := by
  split
  · next h => subst h; simp
  · next h => exact mapGet?_mapPut_ne m v h

@[simp] theorem mapGet_mapPut_same {α : Type} (m : NMap α) (n : Nat) (v d : α) : mapGet (mapPut m n v) n d = v := by
  simp [mapGet]

theorem mapGet_mapPut_ne {α : Type} (m : NMap α) {n k : Nat} (v d : α) (h : k ≠ n) :
    mapGet (mapPut m n v) k d = mapGet m k d := by
  simp [mapGet, mapGet?_mapPut_ne m v h]

theorem mapGet?_mapUpd {α : Type} (m : NMap α) (n k : Nat) (f : α → α) :
    mapGet? (mapUpd m n f) k = if k = n then (mapGet? m n).map f else mapGet? m k := by
  unfold mapUpd
  split
  · next v hv => rw [mapGet?_mapPut]; simp [hv]
  · next hv => split
               · next h => subst h; simp [hv]
               · rfl

theorem mapGet?_mapDel_ne {α : Type} (m : NMap α) {n k : Nat} (h : k ≠ n) : mapGet? (mapDel m n) k = mapGet? m k := by
  induction m with
  | nil => rfl
  | cons x m ih =>
    obtain ⟨j, w⟩ := x
    simp only [mapDel]
    split
    · subst_vars; simp [mapGet?, h]
    · simp only [mapGet?, ih]

/-! ## Units read after they are changed -/

@[simp] theorem vf_updVf_same (s : State) (v : Nat) (f : Vf → Vf) : (s.updVf v f).vf v = f (s.vf v) := by
  simp [State.updVf, State.vf]

theorem vf_updVf_ne (s : State) {v u : Nat} (f : Vf → Vf) (h : u ≠ v) : (s.updVf v f).vf u = s.vf u := by
  simp [State.updVf, State.vf, mapGet_mapPut_ne _ _ _ h]

@[simp] theorem part_updPart_same (s : State) (p : Nat) (f : Part → Part) : (s.updPart p f).part p = f (s.part p) := by
  simp [State.updPart, State.part]

theorem part_updPart_ne (s : State) {p q : Nat} (f : Part → Part) (h : q ≠ p) : (s.updPart p f).part q = s.part q := by
  simp [State.updPart, State.part, mapGet_mapPut_ne _ _ _ h]

@[simp] theorem die_updDie_same (s : State) (d : Nat) (f : Die → Die) : (s.updDie d f).die d = f (s.die d) := by
  simp [State.updDie, State.die]

theorem die_updDie_ne (s : State) {d e : Nat} (f : Die → Die) (h : e ≠ d) : (s.updDie d f).die e = s.die e := by
  simp [State.updDie, State.die, mapGet_mapPut_ne _ _ _ h]

@[simp] theorem clu_updClu_same (s : State) (c : Nat) (f : Cluster → Cluster) : (s.updClu c f).clu c = f (s.clu c) := by
  simp [State.updClu, State.clu]

theorem clu_updClu_ne (s : State) {c d : Nat} (f : Cluster → Cluster) (h : d ≠ c) : (s.updClu c f).clu d = s.clu d := by
  simp [State.updClu, State.clu, mapGet_mapPut_ne _ _ _ h]

@[simp] theorem tile_setTile_same (s : State) (t : Nat) (x : Tile) : (s.setTile t x).tile t = x := by
  simp [State.setTile, State.tile]

theorem tile_setTile_ne (s : State) {t u : Nat} (x : Tile) (h : u ≠ t) : (s.setTile t x).tile u = s.tile u := by
  simp [State.setTile, State.tile, mapGet_mapPut_ne _ _ _ h]

@[simp] theorem tile_updTile_same (s : State) (t : Nat) (f : Tile → Tile) : (s.updTile t f).tile t = f (s.tile t) := by
  simp [State.updTile]

theorem tile_updTile_ne (s : State) {t u : Nat} (f : Tile → Tile) (h : u ≠ t) : (s.updTile t f).tile u = s.tile u := by
  simp [State.updTile, tile_setTile_ne _ _ h]

theorem col_updCol (s : State) (n k : Nat) (f : Colour → Colour) :
    (s.updCol n f).col? k = if k = n then (s.col? n).map f else s.col? k := by
  simp [State.updCol, State.col?, mapGet?_mapUpd]

theorem req_updReq (s : State) (n k : Nat) (f : Request → Request) :
    (s.updReq n f).req? k = if k = n then (s.req? n).map f else s.req? k := by
  simp [State.updReq, State.req?, mapGet?_mapUpd]

theorem req_delReq_ne (s : State) {n k : Nat} (h : k ≠ n) : (s.delReq n).req? k = s.req? k := by
  simp [State.delReq, State.req?, mapGet?_mapDel_ne _ h]

end Sys2Proof.Machine
end

