-- ==== Sys2Proof/Laws/Firing.lean ====
section
/-! SUPPORT. What the shared firing operations do when a firing may begin. -/

namespace Sys2Proof.Machine

/-- Everything that a firing does when it may begin. -/
theorem runFire_of_fires {gate : State → Fire → Bool} {s : State} {f : Fire} (h : Fires gate s f)
    (body : State → Fire → State) : runFire gate body s = f.done (body (f.begun s) f) := by
  simp [runFire, startFire, h.picked, h.inputs, h.ready, h.turn, Fire.done, Fire.begun, Fire.begunWith]

/-- A stake that has nothing to fire stays as it is. -/
theorem runFire_of_none {gate : State → Fire → Bool} {s : State} (h : pick s = none) (body : State → Fire → State) :
    runFire gate body s = s := by
  simp [runFire, h]

/-- A firing that is held back stays as it is. -/
theorem runFire_of_blocked {gate : State → Fire → Bool} {s : State} {f : Fire} (hp : pick s = some f) (hg : gate s f = false)
    (body : State → Fire → State) : runFire gate body s = s := by
  simp [runFire, startFire, hp, hg]

/-- A firing to which no slot of its tile falls in this clk stays as it is (R57). -/
theorem runFire_of_noTurn {gate : State → Fire → Bool} {s : State} {f : Fire} (hp : pick s = some f) (ht : hasTurn s f = false)
    (body : State → Fire → State) : runFire gate body s = s := by
  simp [runFire, startFire, hp, ht]

/-- A firing with a bad input traps with UE. -/
theorem runFire_of_corrupt {gate : State → Fire → Bool} {s : State} {f : Fire} (hp : pick s = some f)
    (hi : f.ops.toks.all Token.ok = false) (hg : gate s f = true) (ht : hasTurn s f = true) (body : State → Fire → State) :
    runFire gate body s = f.done (trapCorrupt (f.begun s) f) := by
  simp [runFire, startFire, hp, hi, hg, ht, Fire.done, Fire.begun, Fire.begunWith]

/-- A firing that emits one result does so when it may begin. -/
theorem fireResult_of_fires {s : State} {f : Fire} (h : Fires destsReady s f) (data : State → Fire → W512)
    (fmt : State → Fire → BitVec 3) :
    fireResult data fmt s = f.done (emitResult (f.begun s) f (f.token (data (f.begun s) f) (fmt (f.begun s) f))) := by
  simp [fireResult, runFire_of_fires h]

/-- A firing that emits one result with flags does so when it may begin. -/
theorem fireFlags_of_fires {s : State} {f : Fire} (h : Fires destsReady s f) (val : Fire → W512 × Flags) (fmt : BitVec 3) :
    fireFlags val fmt s = f.done (raiseFlags (emitResult (f.begun s) f (f.token (val f).1 fmt)) f.colour (val f).2) := by
  simp [fireFlags, runFire_of_fires h]

/-- An accepted request lies in the request table under the next number, on its stake's channel. -/
theorem sendReq_req (s : State) (r : Request) : (sendReq s r).req? s.nextReq = some { r with order := s.nextReq, ring := (ringReq s r).2 } := by
  simp [sendReq, State.req?]

end Sys2Proof.Machine
end

