-- ==== Sys2Proof/Laws/Lanes.lean ====
section
/-! SUPPORT. Lanes of a value put together from lanes. -/

namespace Sys2Proof.Machine

theorem lanesNat_lt (w : Nat) (xs : List Nat) : lanesNat w xs < 2 ^ (w * xs.length) := by
  induction xs with
  | nil => simp [lanesNat]
  | cons x xs ih =>
    have h1 : x % 2 ^ w < 2 ^ w := Nat.mod_lt _ (Nat.two_pow_pos w)
    simp only [lanesNat, List.length_cons, Nat.mul_add, Nat.mul_one, Nat.pow_add]
    calc x % 2 ^ w + 2 ^ w * lanesNat w xs < 2 ^ w + 2 ^ w * lanesNat w xs := by omega
      _ = 2 ^ w * (lanesNat w xs + 1) := by rw [Nat.mul_add]; omega
      _ ≤ 2 ^ w * 2 ^ (w * xs.length) := Nat.mul_le_mul_left _ ih
      _ = 2 ^ (w * xs.length) * 2 ^ w := Nat.mul_comm _ _

theorem lanesNat_lane (w : Nat) (xs : List Nat) (i : Nat) :
    (lanesNat w xs >>> (w * i)) % 2 ^ w = (xs.getD i 0) % 2 ^ w := by
  induction xs generalizing i with
  | nil => simp [lanesNat]
  | cons x xs ih =>
    cases i with
    | zero => simp [lanesNat, Nat.add_mul_mod_self_left]
    | succ i =>
      have hp : 0 < 2 ^ w := Nat.two_pow_pos w
      rw [Nat.mul_add, Nat.mul_one, Nat.add_comm (w * i) w, Nat.shiftRight_add, Nat.shiftRight_eq_div_pow (lanesNat w (x :: xs)) w]
      have : lanesNat w (x :: xs) / 2 ^ w = lanesNat w xs := by
        simp only [lanesNat]
        rw [Nat.add_mul_div_left _ _ hp, Nat.div_eq_of_lt (Nat.mod_lt _ hp), Nat.zero_add]
      rw [this, ih]
      simp

theorem ofLanes_toNat {w : Nat} {xs : List Nat} (h : w * xs.length ≤ 512) : (ofLanes w xs).toNat = lanesNat w xs := by
  simp only [ofLanes, BitVec.toNat_ofNat]
  exact Nat.mod_eq_of_lt (Nat.lt_of_lt_of_le (lanesNat_lt w xs) (Nat.pow_le_pow_right (by omega) h))

theorem lane_ofLanes {w : Nat} {xs : List Nat} (h : w * xs.length ≤ 512) (i : Nat) :
    lane (ofLanes w xs) w i = xs.getD i 0 % 2 ^ w := by
  simp only [lane, ofLanes_toNat h]
  exact lanesNat_lane w xs i

theorem ofLanes_lt {w : Nat} {xs : List Nat} (h : w * xs.length ≤ 512) : (ofLanes w xs).toNat < 2 ^ (w * xs.length) := by
  rw [ofLanes_toNat h]; exact lanesNat_lt w xs

theorem lane_lt (v : W512) (w i : Nat) : lane v w i < 2 ^ w := Nat.mod_lt _ (Nat.two_pow_pos w)

end Sys2Proof.Machine
end

