-- ==== Sys2Proof/Laws/State.lean ====
section
/-! SUPPORT. Every field of State after every update of it that changes one unit: one lemma each, true by unfolding. -/

namespace Sys2Proof.Machine

/-! ## setTile -/

@[simp] theorem State.setTile_agenda (s : State) (t : Nat) (x : Tile) : (s.setTile t x).agenda = s.agenda := rfl
@[simp] theorem State.setTile_cur (s : State) (t : Nat) (x : Tile) : (s.setTile t x).cur = s.cur := rfl
@[simp] theorem State.setTile_clk (s : State) (t : Nat) (x : Tile) : (s.setTile t x).clk = s.clk := rfl
@[simp] theorem State.setTile_free (s : State) (t : Nat) (x : Tile) : (s.setTile t x).free = s.free := rfl
@[simp] theorem State.setTile_pf (s : State) (t : Nat) (x : Tile) : (s.setTile t x).pf = s.pf := rfl
@[simp] theorem State.setTile_vfs (s : State) (t : Nat) (x : Tile) : (s.setTile t x).vfs = s.vfs := rfl
@[simp] theorem State.setTile_parts (s : State) (t : Nat) (x : Tile) : (s.setTile t x).parts = s.parts := rfl
@[simp] theorem State.setTile_cols (s : State) (t : Nat) (x : Tile) : (s.setTile t x).cols = s.cols := rfl
@[simp] theorem State.setTile_purged (s : State) (t : Nat) (x : Tile) : (s.setTile t x).purged = s.purged := rfl
@[simp] theorem State.setTile_clus (s : State) (t : Nat) (x : Tile) : (s.setTile t x).clus = s.clus := rfl
@[simp] theorem State.setTile_dies (s : State) (t : Nat) (x : Tile) : (s.setTile t x).dies = s.dies := rfl
@[simp] theorem State.setTile_net (s : State) (t : Nat) (x : Tile) : (s.setTile t x).net = s.net := rfl
@[simp] theorem State.setTile_reqs (s : State) (t : Nat) (x : Tile) : (s.setTile t x).reqs = s.reqs := rfl
@[simp] theorem State.setTile_nextReq (s : State) (t : Nat) (x : Tile) : (s.setTile t x).nextReq = s.nextReq := rfl
@[simp] theorem State.setTile_kdecs (s : State) (t : Nat) (x : Tile) : (s.setTile t x).kdecs = s.kdecs := rfl
@[simp] theorem State.setTile_strays (s : State) (t : Nat) (x : Tile) : (s.setTile t x).strays = s.strays := rfl
@[simp] theorem State.setTile_mem (s : State) (t : Nat) (x : Tile) : (s.setTile t x).mem = s.mem := rfl
@[simp] theorem State.setTile_poison (s : State) (t : Nat) (x : Tile) : (s.setTile t x).poison = s.poison := rfl
@[simp] theorem State.setTile_scrubbed (s : State) (t : Nat) (x : Tile) : (s.setTile t x).scrubbed = s.scrubbed := rfl
@[simp] theorem State.setTile_host (s : State) (t : Nat) (x : Tile) : (s.setTile t x).host = s.host := rfl
@[simp] theorem State.setTile_wick (s : State) (t : Nat) (x : Tile) : (s.setTile t x).wick = s.wick := rfl
@[simp] theorem State.setTile_mgmt (s : State) (t : Nat) (x : Tile) : (s.setTile t x).mgmt = s.mgmt := rfl
@[simp] theorem State.setTile_saved (s : State) (t : Nat) (x : Tile) : (s.setTile t x).saved = s.saved := rfl
@[simp] theorem State.setTile_inq (s : State) (t : Nat) (x : Tile) : (s.setTile t x).inq = s.inq := rfl
@[simp] theorem State.setTile_nextIn (s : State) (t : Nat) (x : Tile) : (s.setTile t x).nextIn = s.nextIn := rfl
@[simp] theorem State.setTile_nextSave (s : State) (t : Nat) (x : Tile) : (s.setTile t x).nextSave = s.nextSave := rfl
@[simp] theorem State.setTile_reis (s : State) (t : Nat) (x : Tile) : (s.setTile t x).reis = s.reis := rfl

/-! ## updTile -/

@[simp] theorem State.updTile_agenda (s : State) (t : Nat) (f : Tile → Tile) : (s.updTile t f).agenda = s.agenda := rfl
@[simp] theorem State.updTile_cur (s : State) (t : Nat) (f : Tile → Tile) : (s.updTile t f).cur = s.cur := rfl
@[simp] theorem State.updTile_clk (s : State) (t : Nat) (f : Tile → Tile) : (s.updTile t f).clk = s.clk := rfl
@[simp] theorem State.updTile_free (s : State) (t : Nat) (f : Tile → Tile) : (s.updTile t f).free = s.free := rfl
@[simp] theorem State.updTile_pf (s : State) (t : Nat) (f : Tile → Tile) : (s.updTile t f).pf = s.pf := rfl
@[simp] theorem State.updTile_vfs (s : State) (t : Nat) (f : Tile → Tile) : (s.updTile t f).vfs = s.vfs := rfl
@[simp] theorem State.updTile_parts (s : State) (t : Nat) (f : Tile → Tile) : (s.updTile t f).parts = s.parts := rfl
@[simp] theorem State.updTile_cols (s : State) (t : Nat) (f : Tile → Tile) : (s.updTile t f).cols = s.cols := rfl
@[simp] theorem State.updTile_purged (s : State) (t : Nat) (f : Tile → Tile) : (s.updTile t f).purged = s.purged := rfl
@[simp] theorem State.updTile_clus (s : State) (t : Nat) (f : Tile → Tile) : (s.updTile t f).clus = s.clus := rfl
@[simp] theorem State.updTile_dies (s : State) (t : Nat) (f : Tile → Tile) : (s.updTile t f).dies = s.dies := rfl
@[simp] theorem State.updTile_net (s : State) (t : Nat) (f : Tile → Tile) : (s.updTile t f).net = s.net := rfl
@[simp] theorem State.updTile_reqs (s : State) (t : Nat) (f : Tile → Tile) : (s.updTile t f).reqs = s.reqs := rfl
@[simp] theorem State.updTile_nextReq (s : State) (t : Nat) (f : Tile → Tile) : (s.updTile t f).nextReq = s.nextReq := rfl
@[simp] theorem State.updTile_kdecs (s : State) (t : Nat) (f : Tile → Tile) : (s.updTile t f).kdecs = s.kdecs := rfl
@[simp] theorem State.updTile_strays (s : State) (t : Nat) (f : Tile → Tile) : (s.updTile t f).strays = s.strays := rfl
@[simp] theorem State.updTile_mem (s : State) (t : Nat) (f : Tile → Tile) : (s.updTile t f).mem = s.mem := rfl
@[simp] theorem State.updTile_poison (s : State) (t : Nat) (f : Tile → Tile) : (s.updTile t f).poison = s.poison := rfl
@[simp] theorem State.updTile_scrubbed (s : State) (t : Nat) (f : Tile → Tile) : (s.updTile t f).scrubbed = s.scrubbed := rfl
@[simp] theorem State.updTile_host (s : State) (t : Nat) (f : Tile → Tile) : (s.updTile t f).host = s.host := rfl
@[simp] theorem State.updTile_wick (s : State) (t : Nat) (f : Tile → Tile) : (s.updTile t f).wick = s.wick := rfl
@[simp] theorem State.updTile_mgmt (s : State) (t : Nat) (f : Tile → Tile) : (s.updTile t f).mgmt = s.mgmt := rfl
@[simp] theorem State.updTile_saved (s : State) (t : Nat) (f : Tile → Tile) : (s.updTile t f).saved = s.saved := rfl
@[simp] theorem State.updTile_inq (s : State) (t : Nat) (f : Tile → Tile) : (s.updTile t f).inq = s.inq := rfl
@[simp] theorem State.updTile_nextIn (s : State) (t : Nat) (f : Tile → Tile) : (s.updTile t f).nextIn = s.nextIn := rfl
@[simp] theorem State.updTile_nextSave (s : State) (t : Nat) (f : Tile → Tile) : (s.updTile t f).nextSave = s.nextSave := rfl
@[simp] theorem State.updTile_reis (s : State) (t : Nat) (f : Tile → Tile) : (s.updTile t f).reis = s.reis := rfl

/-! ## updClu -/

@[simp] theorem State.updClu_agenda (s : State) (c : Nat) (f : Cluster → Cluster) : (s.updClu c f).agenda = s.agenda := rfl
@[simp] theorem State.updClu_cur (s : State) (c : Nat) (f : Cluster → Cluster) : (s.updClu c f).cur = s.cur := rfl
@[simp] theorem State.updClu_clk (s : State) (c : Nat) (f : Cluster → Cluster) : (s.updClu c f).clk = s.clk := rfl
@[simp] theorem State.updClu_free (s : State) (c : Nat) (f : Cluster → Cluster) : (s.updClu c f).free = s.free := rfl
@[simp] theorem State.updClu_pf (s : State) (c : Nat) (f : Cluster → Cluster) : (s.updClu c f).pf = s.pf := rfl
@[simp] theorem State.updClu_vfs (s : State) (c : Nat) (f : Cluster → Cluster) : (s.updClu c f).vfs = s.vfs := rfl
@[simp] theorem State.updClu_parts (s : State) (c : Nat) (f : Cluster → Cluster) : (s.updClu c f).parts = s.parts := rfl
@[simp] theorem State.updClu_cols (s : State) (c : Nat) (f : Cluster → Cluster) : (s.updClu c f).cols = s.cols := rfl
@[simp] theorem State.updClu_purged (s : State) (c : Nat) (f : Cluster → Cluster) : (s.updClu c f).purged = s.purged := rfl
@[simp] theorem State.updClu_tiles (s : State) (c : Nat) (f : Cluster → Cluster) : (s.updClu c f).tiles = s.tiles := rfl
@[simp] theorem State.updClu_dies (s : State) (c : Nat) (f : Cluster → Cluster) : (s.updClu c f).dies = s.dies := rfl
@[simp] theorem State.updClu_net (s : State) (c : Nat) (f : Cluster → Cluster) : (s.updClu c f).net = s.net := rfl
@[simp] theorem State.updClu_reqs (s : State) (c : Nat) (f : Cluster → Cluster) : (s.updClu c f).reqs = s.reqs := rfl
@[simp] theorem State.updClu_nextReq (s : State) (c : Nat) (f : Cluster → Cluster) : (s.updClu c f).nextReq = s.nextReq := rfl
@[simp] theorem State.updClu_kdecs (s : State) (c : Nat) (f : Cluster → Cluster) : (s.updClu c f).kdecs = s.kdecs := rfl
@[simp] theorem State.updClu_strays (s : State) (c : Nat) (f : Cluster → Cluster) : (s.updClu c f).strays = s.strays := rfl
@[simp] theorem State.updClu_mem (s : State) (c : Nat) (f : Cluster → Cluster) : (s.updClu c f).mem = s.mem := rfl
@[simp] theorem State.updClu_poison (s : State) (c : Nat) (f : Cluster → Cluster) : (s.updClu c f).poison = s.poison := rfl
@[simp] theorem State.updClu_scrubbed (s : State) (c : Nat) (f : Cluster → Cluster) : (s.updClu c f).scrubbed = s.scrubbed := rfl
@[simp] theorem State.updClu_host (s : State) (c : Nat) (f : Cluster → Cluster) : (s.updClu c f).host = s.host := rfl
@[simp] theorem State.updClu_wick (s : State) (c : Nat) (f : Cluster → Cluster) : (s.updClu c f).wick = s.wick := rfl
@[simp] theorem State.updClu_mgmt (s : State) (c : Nat) (f : Cluster → Cluster) : (s.updClu c f).mgmt = s.mgmt := rfl
@[simp] theorem State.updClu_saved (s : State) (c : Nat) (f : Cluster → Cluster) : (s.updClu c f).saved = s.saved := rfl
@[simp] theorem State.updClu_inq (s : State) (c : Nat) (f : Cluster → Cluster) : (s.updClu c f).inq = s.inq := rfl
@[simp] theorem State.updClu_nextIn (s : State) (c : Nat) (f : Cluster → Cluster) : (s.updClu c f).nextIn = s.nextIn := rfl
@[simp] theorem State.updClu_nextSave (s : State) (c : Nat) (f : Cluster → Cluster) : (s.updClu c f).nextSave = s.nextSave := rfl
@[simp] theorem State.updClu_reis (s : State) (c : Nat) (f : Cluster → Cluster) : (s.updClu c f).reis = s.reis := rfl

/-! ## updDie -/

@[simp] theorem State.updDie_agenda (s : State) (d : Nat) (f : Die → Die) : (s.updDie d f).agenda = s.agenda := rfl
@[simp] theorem State.updDie_cur (s : State) (d : Nat) (f : Die → Die) : (s.updDie d f).cur = s.cur := rfl
@[simp] theorem State.updDie_clk (s : State) (d : Nat) (f : Die → Die) : (s.updDie d f).clk = s.clk := rfl
@[simp] theorem State.updDie_free (s : State) (d : Nat) (f : Die → Die) : (s.updDie d f).free = s.free := rfl
@[simp] theorem State.updDie_pf (s : State) (d : Nat) (f : Die → Die) : (s.updDie d f).pf = s.pf := rfl
@[simp] theorem State.updDie_vfs (s : State) (d : Nat) (f : Die → Die) : (s.updDie d f).vfs = s.vfs := rfl
@[simp] theorem State.updDie_parts (s : State) (d : Nat) (f : Die → Die) : (s.updDie d f).parts = s.parts := rfl
@[simp] theorem State.updDie_cols (s : State) (d : Nat) (f : Die → Die) : (s.updDie d f).cols = s.cols := rfl
@[simp] theorem State.updDie_purged (s : State) (d : Nat) (f : Die → Die) : (s.updDie d f).purged = s.purged := rfl
@[simp] theorem State.updDie_tiles (s : State) (d : Nat) (f : Die → Die) : (s.updDie d f).tiles = s.tiles := rfl
@[simp] theorem State.updDie_clus (s : State) (d : Nat) (f : Die → Die) : (s.updDie d f).clus = s.clus := rfl
@[simp] theorem State.updDie_net (s : State) (d : Nat) (f : Die → Die) : (s.updDie d f).net = s.net := rfl
@[simp] theorem State.updDie_reqs (s : State) (d : Nat) (f : Die → Die) : (s.updDie d f).reqs = s.reqs := rfl
@[simp] theorem State.updDie_nextReq (s : State) (d : Nat) (f : Die → Die) : (s.updDie d f).nextReq = s.nextReq := rfl
@[simp] theorem State.updDie_kdecs (s : State) (d : Nat) (f : Die → Die) : (s.updDie d f).kdecs = s.kdecs := rfl
@[simp] theorem State.updDie_strays (s : State) (d : Nat) (f : Die → Die) : (s.updDie d f).strays = s.strays := rfl
@[simp] theorem State.updDie_mem (s : State) (d : Nat) (f : Die → Die) : (s.updDie d f).mem = s.mem := rfl
@[simp] theorem State.updDie_poison (s : State) (d : Nat) (f : Die → Die) : (s.updDie d f).poison = s.poison := rfl
@[simp] theorem State.updDie_scrubbed (s : State) (d : Nat) (f : Die → Die) : (s.updDie d f).scrubbed = s.scrubbed := rfl
@[simp] theorem State.updDie_host (s : State) (d : Nat) (f : Die → Die) : (s.updDie d f).host = s.host := rfl
@[simp] theorem State.updDie_wick (s : State) (d : Nat) (f : Die → Die) : (s.updDie d f).wick = s.wick := rfl
@[simp] theorem State.updDie_mgmt (s : State) (d : Nat) (f : Die → Die) : (s.updDie d f).mgmt = s.mgmt := rfl
@[simp] theorem State.updDie_saved (s : State) (d : Nat) (f : Die → Die) : (s.updDie d f).saved = s.saved := rfl
@[simp] theorem State.updDie_inq (s : State) (d : Nat) (f : Die → Die) : (s.updDie d f).inq = s.inq := rfl
@[simp] theorem State.updDie_nextIn (s : State) (d : Nat) (f : Die → Die) : (s.updDie d f).nextIn = s.nextIn := rfl
@[simp] theorem State.updDie_nextSave (s : State) (d : Nat) (f : Die → Die) : (s.updDie d f).nextSave = s.nextSave := rfl
@[simp] theorem State.updDie_reis (s : State) (d : Nat) (f : Die → Die) : (s.updDie d f).reis = s.reis := rfl

/-! ## updVf -/

@[simp] theorem State.updVf_agenda (s : State) (v : Nat) (f : Vf → Vf) : (s.updVf v f).agenda = s.agenda := rfl
@[simp] theorem State.updVf_cur (s : State) (v : Nat) (f : Vf → Vf) : (s.updVf v f).cur = s.cur := rfl
@[simp] theorem State.updVf_clk (s : State) (v : Nat) (f : Vf → Vf) : (s.updVf v f).clk = s.clk := rfl
@[simp] theorem State.updVf_free (s : State) (v : Nat) (f : Vf → Vf) : (s.updVf v f).free = s.free := rfl
@[simp] theorem State.updVf_pf (s : State) (v : Nat) (f : Vf → Vf) : (s.updVf v f).pf = s.pf := rfl
@[simp] theorem State.updVf_parts (s : State) (v : Nat) (f : Vf → Vf) : (s.updVf v f).parts = s.parts := rfl
@[simp] theorem State.updVf_cols (s : State) (v : Nat) (f : Vf → Vf) : (s.updVf v f).cols = s.cols := rfl
@[simp] theorem State.updVf_purged (s : State) (v : Nat) (f : Vf → Vf) : (s.updVf v f).purged = s.purged := rfl
@[simp] theorem State.updVf_tiles (s : State) (v : Nat) (f : Vf → Vf) : (s.updVf v f).tiles = s.tiles := rfl
@[simp] theorem State.updVf_clus (s : State) (v : Nat) (f : Vf → Vf) : (s.updVf v f).clus = s.clus := rfl
@[simp] theorem State.updVf_dies (s : State) (v : Nat) (f : Vf → Vf) : (s.updVf v f).dies = s.dies := rfl
@[simp] theorem State.updVf_net (s : State) (v : Nat) (f : Vf → Vf) : (s.updVf v f).net = s.net := rfl
@[simp] theorem State.updVf_reqs (s : State) (v : Nat) (f : Vf → Vf) : (s.updVf v f).reqs = s.reqs := rfl
@[simp] theorem State.updVf_nextReq (s : State) (v : Nat) (f : Vf → Vf) : (s.updVf v f).nextReq = s.nextReq := rfl
@[simp] theorem State.updVf_kdecs (s : State) (v : Nat) (f : Vf → Vf) : (s.updVf v f).kdecs = s.kdecs := rfl
@[simp] theorem State.updVf_strays (s : State) (v : Nat) (f : Vf → Vf) : (s.updVf v f).strays = s.strays := rfl
@[simp] theorem State.updVf_mem (s : State) (v : Nat) (f : Vf → Vf) : (s.updVf v f).mem = s.mem := rfl
@[simp] theorem State.updVf_poison (s : State) (v : Nat) (f : Vf → Vf) : (s.updVf v f).poison = s.poison := rfl
@[simp] theorem State.updVf_scrubbed (s : State) (v : Nat) (f : Vf → Vf) : (s.updVf v f).scrubbed = s.scrubbed := rfl
@[simp] theorem State.updVf_host (s : State) (v : Nat) (f : Vf → Vf) : (s.updVf v f).host = s.host := rfl
@[simp] theorem State.updVf_wick (s : State) (v : Nat) (f : Vf → Vf) : (s.updVf v f).wick = s.wick := rfl
@[simp] theorem State.updVf_mgmt (s : State) (v : Nat) (f : Vf → Vf) : (s.updVf v f).mgmt = s.mgmt := rfl
@[simp] theorem State.updVf_saved (s : State) (v : Nat) (f : Vf → Vf) : (s.updVf v f).saved = s.saved := rfl
@[simp] theorem State.updVf_inq (s : State) (v : Nat) (f : Vf → Vf) : (s.updVf v f).inq = s.inq := rfl
@[simp] theorem State.updVf_nextIn (s : State) (v : Nat) (f : Vf → Vf) : (s.updVf v f).nextIn = s.nextIn := rfl
@[simp] theorem State.updVf_nextSave (s : State) (v : Nat) (f : Vf → Vf) : (s.updVf v f).nextSave = s.nextSave := rfl
@[simp] theorem State.updVf_reis (s : State) (v : Nat) (f : Vf → Vf) : (s.updVf v f).reis = s.reis := rfl

/-! ## updPart -/

@[simp] theorem State.updPart_agenda (s : State) (p : Nat) (f : Part → Part) : (s.updPart p f).agenda = s.agenda := rfl
@[simp] theorem State.updPart_cur (s : State) (p : Nat) (f : Part → Part) : (s.updPart p f).cur = s.cur := rfl
@[simp] theorem State.updPart_clk (s : State) (p : Nat) (f : Part → Part) : (s.updPart p f).clk = s.clk := rfl
@[simp] theorem State.updPart_free (s : State) (p : Nat) (f : Part → Part) : (s.updPart p f).free = s.free := rfl
@[simp] theorem State.updPart_pf (s : State) (p : Nat) (f : Part → Part) : (s.updPart p f).pf = s.pf := rfl
@[simp] theorem State.updPart_vfs (s : State) (p : Nat) (f : Part → Part) : (s.updPart p f).vfs = s.vfs := rfl
@[simp] theorem State.updPart_cols (s : State) (p : Nat) (f : Part → Part) : (s.updPart p f).cols = s.cols := rfl
@[simp] theorem State.updPart_purged (s : State) (p : Nat) (f : Part → Part) : (s.updPart p f).purged = s.purged := rfl
@[simp] theorem State.updPart_tiles (s : State) (p : Nat) (f : Part → Part) : (s.updPart p f).tiles = s.tiles := rfl
@[simp] theorem State.updPart_clus (s : State) (p : Nat) (f : Part → Part) : (s.updPart p f).clus = s.clus := rfl
@[simp] theorem State.updPart_dies (s : State) (p : Nat) (f : Part → Part) : (s.updPart p f).dies = s.dies := rfl
@[simp] theorem State.updPart_net (s : State) (p : Nat) (f : Part → Part) : (s.updPart p f).net = s.net := rfl
@[simp] theorem State.updPart_reqs (s : State) (p : Nat) (f : Part → Part) : (s.updPart p f).reqs = s.reqs := rfl
@[simp] theorem State.updPart_nextReq (s : State) (p : Nat) (f : Part → Part) : (s.updPart p f).nextReq = s.nextReq := rfl
@[simp] theorem State.updPart_kdecs (s : State) (p : Nat) (f : Part → Part) : (s.updPart p f).kdecs = s.kdecs := rfl
@[simp] theorem State.updPart_strays (s : State) (p : Nat) (f : Part → Part) : (s.updPart p f).strays = s.strays := rfl
@[simp] theorem State.updPart_mem (s : State) (p : Nat) (f : Part → Part) : (s.updPart p f).mem = s.mem := rfl
@[simp] theorem State.updPart_poison (s : State) (p : Nat) (f : Part → Part) : (s.updPart p f).poison = s.poison := rfl
@[simp] theorem State.updPart_scrubbed (s : State) (p : Nat) (f : Part → Part) : (s.updPart p f).scrubbed = s.scrubbed := rfl
@[simp] theorem State.updPart_host (s : State) (p : Nat) (f : Part → Part) : (s.updPart p f).host = s.host := rfl
@[simp] theorem State.updPart_wick (s : State) (p : Nat) (f : Part → Part) : (s.updPart p f).wick = s.wick := rfl
@[simp] theorem State.updPart_mgmt (s : State) (p : Nat) (f : Part → Part) : (s.updPart p f).mgmt = s.mgmt := rfl
@[simp] theorem State.updPart_saved (s : State) (p : Nat) (f : Part → Part) : (s.updPart p f).saved = s.saved := rfl
@[simp] theorem State.updPart_inq (s : State) (p : Nat) (f : Part → Part) : (s.updPart p f).inq = s.inq := rfl
@[simp] theorem State.updPart_nextIn (s : State) (p : Nat) (f : Part → Part) : (s.updPart p f).nextIn = s.nextIn := rfl
@[simp] theorem State.updPart_nextSave (s : State) (p : Nat) (f : Part → Part) : (s.updPart p f).nextSave = s.nextSave := rfl
@[simp] theorem State.updPart_reis (s : State) (p : Nat) (f : Part → Part) : (s.updPart p f).reis = s.reis := rfl

/-! ## updPf -/

@[simp] theorem State.updPf_agenda (s : State) (f : Pf → Pf) : (s.updPf f).agenda = s.agenda := rfl
@[simp] theorem State.updPf_cur (s : State) (f : Pf → Pf) : (s.updPf f).cur = s.cur := rfl
@[simp] theorem State.updPf_clk (s : State) (f : Pf → Pf) : (s.updPf f).clk = s.clk := rfl
@[simp] theorem State.updPf_free (s : State) (f : Pf → Pf) : (s.updPf f).free = s.free := rfl
@[simp] theorem State.updPf_vfs (s : State) (f : Pf → Pf) : (s.updPf f).vfs = s.vfs := rfl
@[simp] theorem State.updPf_parts (s : State) (f : Pf → Pf) : (s.updPf f).parts = s.parts := rfl
@[simp] theorem State.updPf_cols (s : State) (f : Pf → Pf) : (s.updPf f).cols = s.cols := rfl
@[simp] theorem State.updPf_purged (s : State) (f : Pf → Pf) : (s.updPf f).purged = s.purged := rfl
@[simp] theorem State.updPf_tiles (s : State) (f : Pf → Pf) : (s.updPf f).tiles = s.tiles := rfl
@[simp] theorem State.updPf_clus (s : State) (f : Pf → Pf) : (s.updPf f).clus = s.clus := rfl
@[simp] theorem State.updPf_dies (s : State) (f : Pf → Pf) : (s.updPf f).dies = s.dies := rfl
@[simp] theorem State.updPf_net (s : State) (f : Pf → Pf) : (s.updPf f).net = s.net := rfl
@[simp] theorem State.updPf_reqs (s : State) (f : Pf → Pf) : (s.updPf f).reqs = s.reqs := rfl
@[simp] theorem State.updPf_nextReq (s : State) (f : Pf → Pf) : (s.updPf f).nextReq = s.nextReq := rfl
@[simp] theorem State.updPf_kdecs (s : State) (f : Pf → Pf) : (s.updPf f).kdecs = s.kdecs := rfl
@[simp] theorem State.updPf_strays (s : State) (f : Pf → Pf) : (s.updPf f).strays = s.strays := rfl
@[simp] theorem State.updPf_mem (s : State) (f : Pf → Pf) : (s.updPf f).mem = s.mem := rfl
@[simp] theorem State.updPf_poison (s : State) (f : Pf → Pf) : (s.updPf f).poison = s.poison := rfl
@[simp] theorem State.updPf_scrubbed (s : State) (f : Pf → Pf) : (s.updPf f).scrubbed = s.scrubbed := rfl
@[simp] theorem State.updPf_host (s : State) (f : Pf → Pf) : (s.updPf f).host = s.host := rfl
@[simp] theorem State.updPf_wick (s : State) (f : Pf → Pf) : (s.updPf f).wick = s.wick := rfl
@[simp] theorem State.updPf_mgmt (s : State) (f : Pf → Pf) : (s.updPf f).mgmt = s.mgmt := rfl
@[simp] theorem State.updPf_saved (s : State) (f : Pf → Pf) : (s.updPf f).saved = s.saved := rfl
@[simp] theorem State.updPf_inq (s : State) (f : Pf → Pf) : (s.updPf f).inq = s.inq := rfl
@[simp] theorem State.updPf_nextIn (s : State) (f : Pf → Pf) : (s.updPf f).nextIn = s.nextIn := rfl
@[simp] theorem State.updPf_nextSave (s : State) (f : Pf → Pf) : (s.updPf f).nextSave = s.nextSave := rfl
@[simp] theorem State.updPf_reis (s : State) (f : Pf → Pf) : (s.updPf f).reis = s.reis := rfl

/-! ## pfErr -/

@[simp] theorem State.pfErr_agenda (s : State) : s.pfErr.agenda = s.agenda := rfl
@[simp] theorem State.pfErr_cur (s : State) : s.pfErr.cur = s.cur := rfl
@[simp] theorem State.pfErr_clk (s : State) : s.pfErr.clk = s.clk := rfl
@[simp] theorem State.pfErr_free (s : State) : s.pfErr.free = s.free := rfl
@[simp] theorem State.pfErr_vfs (s : State) : s.pfErr.vfs = s.vfs := rfl
@[simp] theorem State.pfErr_parts (s : State) : s.pfErr.parts = s.parts := rfl
@[simp] theorem State.pfErr_cols (s : State) : s.pfErr.cols = s.cols := rfl
@[simp] theorem State.pfErr_purged (s : State) : s.pfErr.purged = s.purged := rfl
@[simp] theorem State.pfErr_tiles (s : State) : s.pfErr.tiles = s.tiles := rfl
@[simp] theorem State.pfErr_clus (s : State) : s.pfErr.clus = s.clus := rfl
@[simp] theorem State.pfErr_dies (s : State) : s.pfErr.dies = s.dies := rfl
@[simp] theorem State.pfErr_net (s : State) : s.pfErr.net = s.net := rfl
@[simp] theorem State.pfErr_reqs (s : State) : s.pfErr.reqs = s.reqs := rfl
@[simp] theorem State.pfErr_nextReq (s : State) : s.pfErr.nextReq = s.nextReq := rfl
@[simp] theorem State.pfErr_kdecs (s : State) : s.pfErr.kdecs = s.kdecs := rfl
@[simp] theorem State.pfErr_strays (s : State) : s.pfErr.strays = s.strays := rfl
@[simp] theorem State.pfErr_mem (s : State) : s.pfErr.mem = s.mem := rfl
@[simp] theorem State.pfErr_poison (s : State) : s.pfErr.poison = s.poison := rfl
@[simp] theorem State.pfErr_scrubbed (s : State) : s.pfErr.scrubbed = s.scrubbed := rfl
@[simp] theorem State.pfErr_host (s : State) : s.pfErr.host = s.host := rfl
@[simp] theorem State.pfErr_wick (s : State) : s.pfErr.wick = s.wick := rfl
@[simp] theorem State.pfErr_mgmt (s : State) : s.pfErr.mgmt = s.mgmt := rfl
@[simp] theorem State.pfErr_saved (s : State) : s.pfErr.saved = s.saved := rfl
@[simp] theorem State.pfErr_inq (s : State) : s.pfErr.inq = s.inq := rfl
@[simp] theorem State.pfErr_nextIn (s : State) : s.pfErr.nextIn = s.nextIn := rfl
@[simp] theorem State.pfErr_nextSave (s : State) : s.pfErr.nextSave = s.nextSave := rfl
@[simp] theorem State.pfErr_reis (s : State) : s.pfErr.reis = s.reis := rfl

/-! ## updCol -/

@[simp] theorem State.updCol_agenda (s : State) (c : Nat) (f : Colour → Colour) : (s.updCol c f).agenda = s.agenda := rfl
@[simp] theorem State.updCol_cur (s : State) (c : Nat) (f : Colour → Colour) : (s.updCol c f).cur = s.cur := rfl
@[simp] theorem State.updCol_clk (s : State) (c : Nat) (f : Colour → Colour) : (s.updCol c f).clk = s.clk := rfl
@[simp] theorem State.updCol_free (s : State) (c : Nat) (f : Colour → Colour) : (s.updCol c f).free = s.free := rfl
@[simp] theorem State.updCol_pf (s : State) (c : Nat) (f : Colour → Colour) : (s.updCol c f).pf = s.pf := rfl
@[simp] theorem State.updCol_vfs (s : State) (c : Nat) (f : Colour → Colour) : (s.updCol c f).vfs = s.vfs := rfl
@[simp] theorem State.updCol_parts (s : State) (c : Nat) (f : Colour → Colour) : (s.updCol c f).parts = s.parts := rfl
@[simp] theorem State.updCol_purged (s : State) (c : Nat) (f : Colour → Colour) : (s.updCol c f).purged = s.purged := rfl
@[simp] theorem State.updCol_tiles (s : State) (c : Nat) (f : Colour → Colour) : (s.updCol c f).tiles = s.tiles := rfl
@[simp] theorem State.updCol_clus (s : State) (c : Nat) (f : Colour → Colour) : (s.updCol c f).clus = s.clus := rfl
@[simp] theorem State.updCol_dies (s : State) (c : Nat) (f : Colour → Colour) : (s.updCol c f).dies = s.dies := rfl
@[simp] theorem State.updCol_net (s : State) (c : Nat) (f : Colour → Colour) : (s.updCol c f).net = s.net := rfl
@[simp] theorem State.updCol_reqs (s : State) (c : Nat) (f : Colour → Colour) : (s.updCol c f).reqs = s.reqs := rfl
@[simp] theorem State.updCol_nextReq (s : State) (c : Nat) (f : Colour → Colour) : (s.updCol c f).nextReq = s.nextReq := rfl
@[simp] theorem State.updCol_kdecs (s : State) (c : Nat) (f : Colour → Colour) : (s.updCol c f).kdecs = s.kdecs := rfl
@[simp] theorem State.updCol_strays (s : State) (c : Nat) (f : Colour → Colour) : (s.updCol c f).strays = s.strays := rfl
@[simp] theorem State.updCol_mem (s : State) (c : Nat) (f : Colour → Colour) : (s.updCol c f).mem = s.mem := rfl
@[simp] theorem State.updCol_poison (s : State) (c : Nat) (f : Colour → Colour) : (s.updCol c f).poison = s.poison := rfl
@[simp] theorem State.updCol_scrubbed (s : State) (c : Nat) (f : Colour → Colour) : (s.updCol c f).scrubbed = s.scrubbed := rfl
@[simp] theorem State.updCol_host (s : State) (c : Nat) (f : Colour → Colour) : (s.updCol c f).host = s.host := rfl
@[simp] theorem State.updCol_wick (s : State) (c : Nat) (f : Colour → Colour) : (s.updCol c f).wick = s.wick := rfl
@[simp] theorem State.updCol_mgmt (s : State) (c : Nat) (f : Colour → Colour) : (s.updCol c f).mgmt = s.mgmt := rfl
@[simp] theorem State.updCol_saved (s : State) (c : Nat) (f : Colour → Colour) : (s.updCol c f).saved = s.saved := rfl
@[simp] theorem State.updCol_inq (s : State) (c : Nat) (f : Colour → Colour) : (s.updCol c f).inq = s.inq := rfl
@[simp] theorem State.updCol_nextIn (s : State) (c : Nat) (f : Colour → Colour) : (s.updCol c f).nextIn = s.nextIn := rfl
@[simp] theorem State.updCol_nextSave (s : State) (c : Nat) (f : Colour → Colour) : (s.updCol c f).nextSave = s.nextSave := rfl
@[simp] theorem State.updCol_reis (s : State) (c : Nat) (f : Colour → Colour) : (s.updCol c f).reis = s.reis := rfl

/-! ## updReq -/

@[simp] theorem State.updReq_agenda (s : State) (r : Nat) (f : Request → Request) : (s.updReq r f).agenda = s.agenda := rfl
@[simp] theorem State.updReq_cur (s : State) (r : Nat) (f : Request → Request) : (s.updReq r f).cur = s.cur := rfl
@[simp] theorem State.updReq_clk (s : State) (r : Nat) (f : Request → Request) : (s.updReq r f).clk = s.clk := rfl
@[simp] theorem State.updReq_free (s : State) (r : Nat) (f : Request → Request) : (s.updReq r f).free = s.free := rfl
@[simp] theorem State.updReq_pf (s : State) (r : Nat) (f : Request → Request) : (s.updReq r f).pf = s.pf := rfl
@[simp] theorem State.updReq_vfs (s : State) (r : Nat) (f : Request → Request) : (s.updReq r f).vfs = s.vfs := rfl
@[simp] theorem State.updReq_parts (s : State) (r : Nat) (f : Request → Request) : (s.updReq r f).parts = s.parts := rfl
@[simp] theorem State.updReq_cols (s : State) (r : Nat) (f : Request → Request) : (s.updReq r f).cols = s.cols := rfl
@[simp] theorem State.updReq_purged (s : State) (r : Nat) (f : Request → Request) : (s.updReq r f).purged = s.purged := rfl
@[simp] theorem State.updReq_tiles (s : State) (r : Nat) (f : Request → Request) : (s.updReq r f).tiles = s.tiles := rfl
@[simp] theorem State.updReq_clus (s : State) (r : Nat) (f : Request → Request) : (s.updReq r f).clus = s.clus := rfl
@[simp] theorem State.updReq_dies (s : State) (r : Nat) (f : Request → Request) : (s.updReq r f).dies = s.dies := rfl
@[simp] theorem State.updReq_net (s : State) (r : Nat) (f : Request → Request) : (s.updReq r f).net = s.net := rfl
@[simp] theorem State.updReq_nextReq (s : State) (r : Nat) (f : Request → Request) : (s.updReq r f).nextReq = s.nextReq := rfl
@[simp] theorem State.updReq_kdecs (s : State) (r : Nat) (f : Request → Request) : (s.updReq r f).kdecs = s.kdecs := rfl
@[simp] theorem State.updReq_strays (s : State) (r : Nat) (f : Request → Request) : (s.updReq r f).strays = s.strays := rfl
@[simp] theorem State.updReq_mem (s : State) (r : Nat) (f : Request → Request) : (s.updReq r f).mem = s.mem := rfl
@[simp] theorem State.updReq_poison (s : State) (r : Nat) (f : Request → Request) : (s.updReq r f).poison = s.poison := rfl
@[simp] theorem State.updReq_scrubbed (s : State) (r : Nat) (f : Request → Request) : (s.updReq r f).scrubbed = s.scrubbed := rfl
@[simp] theorem State.updReq_host (s : State) (r : Nat) (f : Request → Request) : (s.updReq r f).host = s.host := rfl
@[simp] theorem State.updReq_wick (s : State) (r : Nat) (f : Request → Request) : (s.updReq r f).wick = s.wick := rfl
@[simp] theorem State.updReq_mgmt (s : State) (r : Nat) (f : Request → Request) : (s.updReq r f).mgmt = s.mgmt := rfl
@[simp] theorem State.updReq_saved (s : State) (r : Nat) (f : Request → Request) : (s.updReq r f).saved = s.saved := rfl
@[simp] theorem State.updReq_inq (s : State) (r : Nat) (f : Request → Request) : (s.updReq r f).inq = s.inq := rfl
@[simp] theorem State.updReq_nextIn (s : State) (r : Nat) (f : Request → Request) : (s.updReq r f).nextIn = s.nextIn := rfl
@[simp] theorem State.updReq_nextSave (s : State) (r : Nat) (f : Request → Request) : (s.updReq r f).nextSave = s.nextSave := rfl
@[simp] theorem State.updReq_reis (s : State) (r : Nat) (f : Request → Request) : (s.updReq r f).reis = s.reis := rfl

/-! ## delReq -/

@[simp] theorem State.delReq_agenda (s : State) (r : Nat) : (s.delReq r).agenda = s.agenda := rfl
@[simp] theorem State.delReq_cur (s : State) (r : Nat) : (s.delReq r).cur = s.cur := rfl
@[simp] theorem State.delReq_clk (s : State) (r : Nat) : (s.delReq r).clk = s.clk := rfl
@[simp] theorem State.delReq_free (s : State) (r : Nat) : (s.delReq r).free = s.free := rfl
@[simp] theorem State.delReq_pf (s : State) (r : Nat) : (s.delReq r).pf = s.pf := rfl
@[simp] theorem State.delReq_vfs (s : State) (r : Nat) : (s.delReq r).vfs = s.vfs := rfl
@[simp] theorem State.delReq_parts (s : State) (r : Nat) : (s.delReq r).parts = s.parts := rfl
@[simp] theorem State.delReq_cols (s : State) (r : Nat) : (s.delReq r).cols = s.cols := rfl
@[simp] theorem State.delReq_purged (s : State) (r : Nat) : (s.delReq r).purged = s.purged := rfl
@[simp] theorem State.delReq_tiles (s : State) (r : Nat) : (s.delReq r).tiles = s.tiles := rfl
@[simp] theorem State.delReq_clus (s : State) (r : Nat) : (s.delReq r).clus = s.clus := rfl
@[simp] theorem State.delReq_dies (s : State) (r : Nat) : (s.delReq r).dies = s.dies := rfl
@[simp] theorem State.delReq_net (s : State) (r : Nat) : (s.delReq r).net = s.net := rfl
@[simp] theorem State.delReq_nextReq (s : State) (r : Nat) : (s.delReq r).nextReq = s.nextReq := rfl
@[simp] theorem State.delReq_kdecs (s : State) (r : Nat) : (s.delReq r).kdecs = s.kdecs := rfl
@[simp] theorem State.delReq_strays (s : State) (r : Nat) : (s.delReq r).strays = s.strays := rfl
@[simp] theorem State.delReq_mem (s : State) (r : Nat) : (s.delReq r).mem = s.mem := rfl
@[simp] theorem State.delReq_poison (s : State) (r : Nat) : (s.delReq r).poison = s.poison := rfl
@[simp] theorem State.delReq_scrubbed (s : State) (r : Nat) : (s.delReq r).scrubbed = s.scrubbed := rfl
@[simp] theorem State.delReq_host (s : State) (r : Nat) : (s.delReq r).host = s.host := rfl
@[simp] theorem State.delReq_wick (s : State) (r : Nat) : (s.delReq r).wick = s.wick := rfl
@[simp] theorem State.delReq_mgmt (s : State) (r : Nat) : (s.delReq r).mgmt = s.mgmt := rfl
@[simp] theorem State.delReq_saved (s : State) (r : Nat) : (s.delReq r).saved = s.saved := rfl
@[simp] theorem State.delReq_inq (s : State) (r : Nat) : (s.delReq r).inq = s.inq := rfl
@[simp] theorem State.delReq_nextIn (s : State) (r : Nat) : (s.delReq r).nextIn = s.nextIn := rfl
@[simp] theorem State.delReq_nextSave (s : State) (r : Nat) : (s.delReq r).nextSave = s.nextSave := rfl
@[simp] theorem State.delReq_reis (s : State) (r : Nat) : (s.delReq r).reis = s.reis := rfl

end Sys2Proof.Machine
end

