-- ==== Sys2Proof/Laws/Memory.lean ====
section
/-! SUPPORT. The canonical form of HBM4's byte list, and what each memory operation does to it and to a byte that is read. -/

namespace Sys2Proof.Machine

theorem memWfFrom_mono {lo lo' : Nat} {m : List Host.Cell} (h : memWfFrom lo m = true) (hl : lo' ≤ lo) :
    memWfFrom lo' m = true := by
  cases m with
  | nil => rfl
  | cons x m =>
    obtain ⟨k, v⟩ := x
    simp only [memWfFrom, Bool.and_eq_true, decide_eq_true_eq] at h ⊢
    exact ⟨⟨Nat.le_trans hl h.1.1, h.1.2⟩, h.2⟩

theorem memWfFrom_memPut {lo : Nat} {m : List Host.Cell} (h : memWfFrom lo m = true) {a : Nat} (ha : lo ≤ a) (b : Byte) :
    memWfFrom lo (memPut m a b) = true := by
  induction m generalizing lo with
  | nil =>
    simp only [memPut]
    split
    · rfl
    · next hb => simp [memWfFrom, ha, hb]
  | cons x m ih =>
    obtain ⟨k, v⟩ := x
    have h' := h
    simp only [memWfFrom, Bool.and_eq_true, decide_eq_true_eq, bne_iff_ne, ne_eq] at h'
    obtain ⟨⟨hk, hv⟩, hm⟩ := h'
    simp only [memPut]
    split
    · next hak =>
      split
      · exact h
      · next hb => simp [memWfFrom, ha, hb, hv, hm]; omega
    · next hak =>
      split
      · next he =>
        subst he
        split
        · exact memWfFrom_mono hm (by omega)
        · next hb => simp [memWfFrom, ha, hb, hm]
      · next hne =>
        simp only [memWfFrom, Bool.and_eq_true, decide_eq_true_eq, bne_iff_ne, ne_eq]
        exact ⟨⟨hk, hv⟩, ih hm (by omega)⟩

theorem memPut_wf {m : List Host.Cell} (h : Memory.wf m = true) (a : Nat) (b : Byte) : Memory.wf (memPut m a b) = true :=
  memWfFrom_memPut h (Nat.zero_le a) b

theorem memWfFrom_filter {lo : Nat} {m : List Host.Cell} (p : Host.Cell → Bool) (h : memWfFrom lo m = true) :
    memWfFrom lo (m.filter p) = true := by
  induction m generalizing lo with
  | nil => rfl
  | cons x m ih =>
    obtain ⟨k, v⟩ := x
    simp only [memWfFrom, Bool.and_eq_true, decide_eq_true_eq, bne_iff_ne, ne_eq] at h
    obtain ⟨⟨hk, hv⟩, hm⟩ := h
    simp only [List.filter_cons]
    split
    · simp only [memWfFrom, Bool.and_eq_true, decide_eq_true_eq, bne_iff_ne, ne_eq]
      exact ⟨⟨hk, hv⟩, ih hm⟩
    · exact memWfFrom_mono (ih hm) (by omega)

theorem memClear_wf {m : List Host.Cell} (h : Memory.wf m = true) (lo n : Nat) : Memory.wf (memClear m lo n) = true :=
  memWfFrom_filter _ h

theorem scrubOne_wf {s : State} (h : Memory.wf s.mem = true) (g : Nat) : Memory.wf (scrubOne s g).mem = true := by
  unfold scrubOne
  split
  · exact h
  · exact memClear_wf h _ _

theorem dramPut_wf {s : State} (h : Memory.wf s.mem = true) (da : Nat) (b : Byte) : Memory.wf (dramPut s da b).mem = true :=
  memPut_wf (scrubOne_wf h _) _ _

theorem hbmPut_wf {s : State} (h : Memory.wf s.mem = true) (pa : Nat) (b : Byte) : Memory.wf (hbmPut s pa b).mem = true := by
  unfold hbmPut
  split
  · exact dramPut_wf h _ _
  · exact h

theorem hbmWrite_wf {s : State} (h : Memory.wf s.mem = true) (pa : Nat) (bs : List Byte) :
    Memory.wf (hbmWrite s pa bs).mem = true := by
  induction bs generalizing s pa with
  | nil => exact h
  | cons b bs ih => exact ih (hbmPut_wf h pa b) _

theorem hbmSetBad_mem (s : State) (pa : Nat) (bad : Bool) : (hbmSetBad s pa bad).mem = s.mem := by
  unfold hbmSetBad
  split <;> rfl

theorem reset_mem_wf : Memory.wf State.reset.mem = true := rfl

/-! ## A byte read after a write -/

theorem memGet_below {lo a : Nat} {m : List Host.Cell} (h : memWfFrom lo m = true) (ha : a < lo) : memGet m a = memDefault := by
  cases m with
  | nil => rfl
  | cons x m =>
    obtain ⟨k, v⟩ := x
    simp only [memWfFrom, Bool.and_eq_true, decide_eq_true_eq] at h
    simp only [memGet]
    rw [if_neg (by omega), if_pos (by omega)]

theorem memGet_memPut_same {lo : Nat} {m : List Host.Cell} (h : memWfFrom lo m = true) (a : Nat) (b : Byte) :
    memGet (memPut m a b) a = b := by
  induction m generalizing lo with
  | nil =>
    simp only [memPut]
    split
    · next hb => simp [memGet, hb]
    · simp [memGet]
  | cons x m ih =>
    obtain ⟨k, v⟩ := x
    simp only [memWfFrom, Bool.and_eq_true, decide_eq_true_eq] at h
    simp only [memPut]
    split
    · next hak =>
      split
      · next hb => simp only [memGet]; rw [if_neg (by omega), if_pos hak, hb]
      · simp [memGet]
    · split
      · next he =>
        subst he
        split
        · next hb => rw [memGet_below h.2 (by omega), hb]
        · simp [memGet]
      · next hne => simp only [memGet]; rw [if_neg hne, if_neg (by omega)]; exact ih h.2

theorem memGet_memPut_ne {lo : Nat} {m : List Host.Cell} (h : memWfFrom lo m = true) {a c : Nat} (b : Byte) (hc : c ≠ a) :
    memGet (memPut m a b) c = memGet m c := by
  induction m generalizing lo with
  | nil =>
    simp only [memPut]
    split
    · rfl
    · simp [memGet, hc]
  | cons x m ih =>
    obtain ⟨k, v⟩ := x
    have h' := h
    simp only [memWfFrom, Bool.and_eq_true, decide_eq_true_eq] at h'
    simp only [memPut]
    split
    · next hak =>
      split
      · rfl
      · by_cases hca : c < a
        · simp only [memGet]; rw [if_neg hc, if_pos hca, if_neg (by omega), if_pos (by omega)]
        · simp only [memGet]; rw [if_neg hc, if_neg hca]
    · split
      · next he =>
        subst he
        split
        · by_cases hca : c < a
          · rw [memGet_below h'.2 (by omega)]; simp only [memGet]; rw [if_neg hc, if_pos hca]
          · simp only [memGet]; rw [if_neg hc, if_neg hca]
        · simp only [memGet]; rw [if_neg hc, if_neg hc]
      · next hne => simp only [memGet]; rw [ih h'.2]

end Sys2Proof.Machine
end

