-- ==== Sys2Proof/Laws/PerInstr.lean ====
section
/-! SUPPORT. One law for each instruction: its word parses back to it, with every operand. -/

namespace Sys2Proof.Laws.F

/-- The word of the instruction, as the encoder writes it, spells exactly that instruction. -/
def Statement (i : Instr) : Prop := parse (encode i) = some i

theorem const (c : Common) (x : ImmX) : Statement (.const c x) :=
  (parse_packStake 0x01 c x.bits rfl).trans (congrArg (fun y => some (Instr.const c y)) (ImmX.ofBits_bits x))

theorem mov (c : Common) (x : ImmX) : Statement (.mov c x) :=
  (parse_packStake 0x02 c x.bits rfl).trans (congrArg (fun y => some (Instr.mov c y)) (ImmX.ofBits_bits x))

theorem steer (c : Common) (x : ImmX) : Statement (.steer c x) :=
  (parse_packStake 0x03 c x.bits rfl).trans (congrArg (fun y => some (Instr.steer c y)) (ImmX.ofBits_bits x))

theorem select (c : Common) (x : ImmX) : Statement (.select c x) :=
  (parse_packStake 0x04 c x.bits rfl).trans (congrArg (fun y => some (Instr.select c y)) (ImmX.ofBits_bits x))

theorem merge (c : Common) : Statement (.merge c) :=
  parse_packStake 0x05 c 0 rfl

theorem sink (c : Common) : Statement (.sink c) :=
  parse_packStake 0x06 c 0 rfl

theorem movid (c : Common) (ident : BitVec 4) : Statement (.movid c ident) :=
  (parse_packStake 0x07 c (xfLow ident) rfl).trans (congrArg (fun y => some (Instr.movid c y)) (xfLow_extract ident (Nat.le_of_ble_eq_true rfl)))

theorem waveadv (c : Common) : Statement (.waveadv c) :=
  parse_packStake 0x08 c 0 rfl

theorem framenew (c : Common) (join : BitVec 16) : Statement (.framenew c join) :=
  (parse_packStake 0x09 c (xfLow join) rfl).trans (congrArg (fun y => some (Instr.framenew c y)) (xfLow_extract join (Nat.le_of_ble_eq_true rfl)))

theorem frameend (c : Common) : Statement (.frameend c) :=
  parse_packStake 0x0A c 0 rfl

theorem retag (c : Common) (rsel : BitVec 2) : Statement (.retag c rsel) :=
  (parse_packStake 0x0B c (xfLow rsel) rfl).trans (congrArg (fun y => some (Instr.retag c y)) (xfLow_extract rsel (Nat.le_of_ble_eq_true rfl)))

theorem kgate (c : Common) (bound : BitVec 12) : Statement (.kgate c bound) :=
  (parse_packStake 0x0C c (xfLow bound) rfl).trans (congrArg (fun y => some (Instr.kgate c y)) (xfLow_extract bound (Nat.le_of_ble_eq_true rfl)))

theorem kdone (c : Common) (gate : BitVec 16) : Statement (.kdone c gate) :=
  (parse_packStake 0x0D c (xfLow gate) rfl).trans (congrArg (fun y => some (Instr.kdone c y)) (xfLow_extract gate (Nat.le_of_ble_eq_true rfl)))

theorem bar (c : Common) (barn : BitVec 4) : Statement (.bar c barn) :=
  (parse_packStake 0x0E c (xfLow barn) rfl).trans (congrArg (fun y => some (Instr.bar c y)) (xfLow_extract barn (Nat.le_of_ble_eq_true rfl)))

theorem barleave (c : Common) (barn : BitVec 4) : Statement (.barleave c barn) :=
  (parse_packStake 0x0F c (xfLow barn) rfl).trans (congrArg (fun y => some (Instr.barleave c y)) (xfLow_extract barn (Nat.le_of_ble_eq_true rfl)))

theorem taskpush (c : Common) (x : ImmX) : Statement (.taskpush c x) :=
  (parse_packStake 0x10 c x.bits rfl).trans (congrArg (fun y => some (Instr.taskpush c y)) (ImmX.ofBits_bits x))

theorem taskjoin (c : Common) : Statement (.taskjoin c) :=
  parse_packStake 0x11 c 0 rfl

theorem taskend (c : Common) : Statement (.taskend c) :=
  parse_packStake 0x12 c 0 rfl

theorem qpop (c : Common) (qsel : BitVec 4) : Statement (.qpop c qsel) :=
  (parse_packStake 0x13 c (xfLow qsel) rfl).trans (congrArg (fun y => some (Instr.qpop c y)) (xfLow_extract qsel (Nat.le_of_ble_eq_true rfl)))

theorem qpush (c : Common) (qsel : BitVec 4) : Statement (.qpush c qsel) :=
  (parse_packStake 0x14 c (xfLow qsel) rfl).trans (congrArg (fun y => some (Instr.qpush c y)) (xfLow_extract qsel (Nat.le_of_ble_eq_true rfl)))

theorem fmtcast (c : Common) (sty : Ty) : Statement (.fmtcast c sty) :=
  (parse_packStake 0x15 c (xfLow sty.code) rfl).trans (congrArg (fun y => some (Instr.fmtcast c y)) (xfLow_ty sty))

theorem add (c : Common) (x : ImmX) : Statement (.add c x) :=
  (parse_packStake 0x20 c x.bits rfl).trans (congrArg (fun y => some (Instr.add c y)) (ImmX.ofBits_bits x))

theorem sub (c : Common) (x : ImmX) : Statement (.sub c x) :=
  (parse_packStake 0x21 c x.bits rfl).trans (congrArg (fun y => some (Instr.sub c y)) (ImmX.ofBits_bits x))

theorem adds (c : Common) (x : ImmX) : Statement (.adds c x) :=
  (parse_packStake 0x22 c x.bits rfl).trans (congrArg (fun y => some (Instr.adds c y)) (ImmX.ofBits_bits x))

theorem subs (c : Common) (x : ImmX) : Statement (.subs c x) :=
  (parse_packStake 0x23 c x.bits rfl).trans (congrArg (fun y => some (Instr.subs c y)) (ImmX.ofBits_bits x))

theorem mul (c : Common) (x : ImmX) : Statement (.mul c x) :=
  (parse_packStake 0x24 c x.bits rfl).trans (congrArg (fun y => some (Instr.mul c y)) (ImmX.ofBits_bits x))

theorem mulh (c : Common) (x : ImmX) : Statement (.mulh c x) :=
  (parse_packStake 0x25 c x.bits rfl).trans (congrArg (fun y => some (Instr.mulh c y)) (ImmX.ofBits_bits x))

theorem mad (c : Common) (x : ImmX) : Statement (.mad c x) :=
  (parse_packStake 0x26 c x.bits rfl).trans (congrArg (fun y => some (Instr.mad c y)) (ImmX.ofBits_bits x))

theorem div (c : Common) (x : ImmX) : Statement (.div c x) :=
  (parse_packStake 0x27 c x.bits rfl).trans (congrArg (fun y => some (Instr.div c y)) (ImmX.ofBits_bits x))

theorem rem (c : Common) (x : ImmX) : Statement (.rem c x) :=
  (parse_packStake 0x28 c x.bits rfl).trans (congrArg (fun y => some (Instr.rem c y)) (ImmX.ofBits_bits x))

theorem min (c : Common) (x : ImmX) : Statement (.min c x) :=
  (parse_packStake 0x29 c x.bits rfl).trans (congrArg (fun y => some (Instr.min c y)) (ImmX.ofBits_bits x))

theorem max (c : Common) (x : ImmX) : Statement (.max c x) :=
  (parse_packStake 0x2A c x.bits rfl).trans (congrArg (fun y => some (Instr.max c y)) (ImmX.ofBits_bits x))

theorem abs (c : Common) (x : ImmX) : Statement (.abs c x) :=
  (parse_packStake 0x2B c x.bits rfl).trans (congrArg (fun y => some (Instr.abs c y)) (ImmX.ofBits_bits x))

theorem neg (c : Common) (x : ImmX) : Statement (.neg c x) :=
  (parse_packStake 0x2C c x.bits rfl).trans (congrArg (fun y => some (Instr.neg c y)) (ImmX.ofBits_bits x))

theorem and (c : Common) (x : ImmX) : Statement (.and c x) :=
  (parse_packStake 0x2D c x.bits rfl).trans (congrArg (fun y => some (Instr.and c y)) (ImmX.ofBits_bits x))

theorem or (c : Common) (x : ImmX) : Statement (.or c x) :=
  (parse_packStake 0x2E c x.bits rfl).trans (congrArg (fun y => some (Instr.or c y)) (ImmX.ofBits_bits x))

theorem xor (c : Common) (x : ImmX) : Statement (.xor c x) :=
  (parse_packStake 0x2F c x.bits rfl).trans (congrArg (fun y => some (Instr.xor c y)) (ImmX.ofBits_bits x))

theorem andn (c : Common) (x : ImmX) : Statement (.andn c x) :=
  (parse_packStake 0x30 c x.bits rfl).trans (congrArg (fun y => some (Instr.andn c y)) (ImmX.ofBits_bits x))

theorem shl (c : Common) (x : ImmX) : Statement (.shl c x) :=
  (parse_packStake 0x31 c x.bits rfl).trans (congrArg (fun y => some (Instr.shl c y)) (ImmX.ofBits_bits x))

theorem shr (c : Common) (x : ImmX) : Statement (.shr c x) :=
  (parse_packStake 0x32 c x.bits rfl).trans (congrArg (fun y => some (Instr.shr c y)) (ImmX.ofBits_bits x))

theorem sar (c : Common) (x : ImmX) : Statement (.sar c x) :=
  (parse_packStake 0x33 c x.bits rfl).trans (congrArg (fun y => some (Instr.sar c y)) (ImmX.ofBits_bits x))

theorem rol (c : Common) (x : ImmX) : Statement (.rol c x) :=
  (parse_packStake 0x34 c x.bits rfl).trans (congrArg (fun y => some (Instr.rol c y)) (ImmX.ofBits_bits x))

theorem clz (c : Common) (x : ImmX) : Statement (.clz c x) :=
  (parse_packStake 0x35 c x.bits rfl).trans (congrArg (fun y => some (Instr.clz c y)) (ImmX.ofBits_bits x))

theorem popc (c : Common) (x : ImmX) : Statement (.popc c x) :=
  (parse_packStake 0x36 c x.bits rfl).trans (congrArg (fun y => some (Instr.popc c y)) (ImmX.ofBits_bits x))

theorem cmp (c : Common) (x : ImmX) : Statement (.cmp c x) :=
  (parse_packStake 0x37 c x.bits rfl).trans (congrArg (fun y => some (Instr.cmp c y)) (ImmX.ofBits_bits x))

theorem lea (c : Common) (x : ImmX) : Statement (.lea c x) :=
  (parse_packStake 0x38 c x.bits rfl).trans (congrArg (fun y => some (Instr.lea c y)) (ImmX.ofBits_bits x))

theorem sext (c : Common) (sty : Ty) : Statement (.sext c sty) :=
  (parse_packStake 0x39 c (xfLow sty.code) rfl).trans (congrArg (fun y => some (Instr.sext c y)) (xfLow_ty sty))

theorem zext (c : Common) (sty : Ty) : Statement (.zext c sty) :=
  (parse_packStake 0x3A c (xfLow sty.code) rfl).trans (congrArg (fun y => some (Instr.zext c y)) (xfLow_ty sty))

theorem bfx (c : Common) (x : BfX) : Statement (.bfx c x) :=
  (parse_packStake 0x3B c x.bits rfl).trans (congrArg (fun y => some (Instr.bfx c y)) (BfX.ofBits_bits x))

theorem bfi (c : Common) (x : BfX) : Statement (.bfi c x) :=
  (parse_packStake 0x3C c x.bits rfl).trans (congrArg (fun y => some (Instr.bfi c y)) (BfX.ofBits_bits x))

theorem fadd (c : Common) (x : ImmX) : Statement (.fadd c x) :=
  (parse_packStake 0x40 c x.bits rfl).trans (congrArg (fun y => some (Instr.fadd c y)) (ImmX.ofBits_bits x))

theorem fsub (c : Common) (x : ImmX) : Statement (.fsub c x) :=
  (parse_packStake 0x41 c x.bits rfl).trans (congrArg (fun y => some (Instr.fsub c y)) (ImmX.ofBits_bits x))

theorem fmul (c : Common) (x : ImmX) : Statement (.fmul c x) :=
  (parse_packStake 0x42 c x.bits rfl).trans (congrArg (fun y => some (Instr.fmul c y)) (ImmX.ofBits_bits x))

theorem ffma (c : Common) (x : ImmX) : Statement (.ffma c x) :=
  (parse_packStake 0x43 c x.bits rfl).trans (congrArg (fun y => some (Instr.ffma c y)) (ImmX.ofBits_bits x))

theorem fdiv (c : Common) (x : ImmX) : Statement (.fdiv c x) :=
  (parse_packStake 0x44 c x.bits rfl).trans (congrArg (fun y => some (Instr.fdiv c y)) (ImmX.ofBits_bits x))

theorem fsqrt (c : Common) (x : ImmX) : Statement (.fsqrt c x) :=
  (parse_packStake 0x45 c x.bits rfl).trans (congrArg (fun y => some (Instr.fsqrt c y)) (ImmX.ofBits_bits x))

theorem fmin (c : Common) (x : ImmX) : Statement (.fmin c x) :=
  (parse_packStake 0x46 c x.bits rfl).trans (congrArg (fun y => some (Instr.fmin c y)) (ImmX.ofBits_bits x))

theorem fmax (c : Common) (x : ImmX) : Statement (.fmax c x) :=
  (parse_packStake 0x47 c x.bits rfl).trans (congrArg (fun y => some (Instr.fmax c y)) (ImmX.ofBits_bits x))

theorem fcmp (c : Common) (x : ImmX) : Statement (.fcmp c x) :=
  (parse_packStake 0x48 c x.bits rfl).trans (congrArg (fun y => some (Instr.fcmp c y)) (ImmX.ofBits_bits x))

theorem fabs (c : Common) (x : ImmX) : Statement (.fabs c x) :=
  (parse_packStake 0x49 c x.bits rfl).trans (congrArg (fun y => some (Instr.fabs c y)) (ImmX.ofBits_bits x))

theorem fneg (c : Common) (x : ImmX) : Statement (.fneg c x) :=
  (parse_packStake 0x4A c x.bits rfl).trans (congrArg (fun y => some (Instr.fneg c y)) (ImmX.ofBits_bits x))

theorem frcp (c : Common) (x : ImmX) : Statement (.frcp c x) :=
  (parse_packStake 0x4B c x.bits rfl).trans (congrArg (fun y => some (Instr.frcp c y)) (ImmX.ofBits_bits x))

theorem frsq (c : Common) (x : ImmX) : Statement (.frsq c x) :=
  (parse_packStake 0x4C c x.bits rfl).trans (congrArg (fun y => some (Instr.frsq c y)) (ImmX.ofBits_bits x))

theorem fexp2 (c : Common) (x : ImmX) : Statement (.fexp2 c x) :=
  (parse_packStake 0x4D c x.bits rfl).trans (congrArg (fun y => some (Instr.fexp2 c y)) (ImmX.ofBits_bits x))

theorem flog2 (c : Common) (x : ImmX) : Statement (.flog2 c x) :=
  (parse_packStake 0x4E c x.bits rfl).trans (congrArg (fun y => some (Instr.flog2 c y)) (ImmX.ofBits_bits x))

theorem fsin (c : Common) (x : ImmX) : Statement (.fsin c x) :=
  (parse_packStake 0x4F c x.bits rfl).trans (congrArg (fun y => some (Instr.fsin c y)) (ImmX.ofBits_bits x))

theorem fcos (c : Common) (x : ImmX) : Statement (.fcos c x) :=
  (parse_packStake 0x50 c x.bits rfl).trans (congrArg (fun y => some (Instr.fcos c y)) (ImmX.ofBits_bits x))

theorem ftanh (c : Common) (x : ImmX) : Statement (.ftanh c x) :=
  (parse_packStake 0x51 c x.bits rfl).trans (congrArg (fun y => some (Instr.ftanh c y)) (ImmX.ofBits_bits x))

theorem fclass (c : Common) (x : ImmX) : Statement (.fclass c x) :=
  (parse_packStake 0x52 c x.bits rfl).trans (congrArg (fun y => some (Instr.fclass c y)) (ImmX.ofBits_bits x))

theorem fcvt (c : Common) (sty : Ty) : Statement (.fcvt c sty) :=
  (parse_packStake 0x53 c (xfLow sty.code) rfl).trans (congrArg (fun y => some (Instr.fcvt c y)) (xfLow_ty sty))

theorem f2i (c : Common) (sty : Ty) : Statement (.f2i c sty) :=
  (parse_packStake 0x54 c (xfLow sty.code) rfl).trans (congrArg (fun y => some (Instr.f2i c y)) (xfLow_ty sty))

theorem i2f (c : Common) (sty : Ty) : Statement (.i2f c sty) :=
  (parse_packStake 0x55 c (xfLow sty.code) rfl).trans (congrArg (fun y => some (Instr.i2f c y)) (xfLow_ty sty))

theorem frnd (c : Common) (x : ImmX) : Statement (.frnd c x) :=
  (parse_packStake 0x56 c x.bits rfl).trans (congrArg (fun y => some (Instr.frnd c y)) (ImmX.ofBits_bits x))

theorem vred (c : Common) (x : ImmX) : Statement (.vred c x) :=
  (parse_packStake 0x60 c x.bits rfl).trans (congrArg (fun y => some (Instr.vred c y)) (ImmX.ofBits_bits x))

theorem vscan (c : Common) (x : ImmX) : Statement (.vscan c x) :=
  (parse_packStake 0x61 c x.bits rfl).trans (congrArg (fun y => some (Instr.vscan c y)) (ImmX.ofBits_bits x))

theorem vperm (c : Common) (x : ImmX) : Statement (.vperm c x) :=
  (parse_packStake 0x62 c x.bits rfl).trans (congrArg (fun y => some (Instr.vperm c y)) (ImmX.ofBits_bits x))

theorem vbcast (c : Common) (x : ImmX) : Statement (.vbcast c x) :=
  (parse_packStake 0x63 c x.bits rfl).trans (congrArg (fun y => some (Instr.vbcast c y)) (ImmX.ofBits_bits x))

theorem vext (c : Common) (x : ImmX) : Statement (.vext c x) :=
  (parse_packStake 0x64 c x.bits rfl).trans (congrArg (fun y => some (Instr.vext c y)) (ImmX.ofBits_bits x))

theorem vins (c : Common) (x : ImmX) : Statement (.vins c x) :=
  (parse_packStake 0x65 c x.bits rfl).trans (congrArg (fun y => some (Instr.vins c y)) (ImmX.ofBits_bits x))

theorem vpack (c : Common) (sty : Ty) : Statement (.vpack c sty) :=
  (parse_packStake 0x66 c (xfLow sty.code) rfl).trans (congrArg (fun y => some (Instr.vpack c y)) (xfLow_ty sty))

theorem vunpk (c : Common) (sty : Ty) : Statement (.vunpk c sty) :=
  (parse_packStake 0x67 c (xfLow sty.code) rfl).trans (congrArg (fun y => some (Instr.vunpk c y)) (xfLow_ty sty))

theorem vquant (c : Common) (sty : Ty) : Statement (.vquant c sty) :=
  (parse_packStake 0x68 c (xfLow sty.code) rfl).trans (congrArg (fun y => some (Instr.vquant c y)) (xfLow_ty sty))

theorem vdeq (c : Common) (sty : Ty) : Statement (.vdeq c sty) :=
  (parse_packStake 0x69 c (xfLow sty.code) rfl).trans (congrArg (fun y => some (Instr.vdeq c y)) (xfLow_ty sty))

theorem vchain (c : Common) (x : ImmX) : Statement (.vchain c x) :=
  (parse_packStake 0x6A c x.bits rfl).trans (congrArg (fun y => some (Instr.vchain c y)) (ImmX.ofBits_bits x))

theorem vsel (c : Common) (x : ImmX) : Statement (.vsel c x) :=
  (parse_packStake 0x6B c x.bits rfl).trans (congrArg (fun y => some (Instr.vsel c y)) (ImmX.ofBits_bits x))

theorem vhdr (c : Common) : Statement (.vhdr c) :=
  parse_packStake 0x6C c 0 rfl

theorem rng (c : Common) (stream : BitVec 8) : Statement (.rng c stream) :=
  (parse_packStake 0x6D c (xfLow stream) rfl).trans (congrArg (fun y => some (Instr.rng c y)) (xfLow_extract stream (Nat.le_of_ble_eq_true rfl)))

theorem ld (c : Common) (x : MemX) : Statement (.ld c x) :=
  (parse_packStake 0x70 c x.bits rfl).trans (congrArg (fun y => some (Instr.ld c y)) (MemX.ofBits_bits x))

theorem st (c : Common) (x : MemX) : Statement (.st c x) :=
  (parse_packStake 0x71 c x.bits rfl).trans (congrArg (fun y => some (Instr.st c y)) (MemX.ofBits_bits x))

theorem ldt (c : Common) (x : MemX) : Statement (.ldt c x) :=
  (parse_packStake 0x72 c x.bits rfl).trans (congrArg (fun y => some (Instr.ldt c y)) (MemX.ofBits_bits x))

theorem stt (c : Common) (x : MemX) : Statement (.stt c x) :=
  (parse_packStake 0x73 c x.bits rfl).trans (congrArg (fun y => some (Instr.stt c y)) (MemX.ofBits_bits x))

theorem ldf (c : Common) (x : MemX) : Statement (.ldf c x) :=
  (parse_packStake 0x74 c x.bits rfl).trans (congrArg (fun y => some (Instr.ldf c y)) (MemX.ofBits_bits x))

theorem ste (c : Common) (x : MemX) : Statement (.ste c x) :=
  (parse_packStake 0x75 c x.bits rfl).trans (congrArg (fun y => some (Instr.ste c y)) (MemX.ofBits_bits x))

theorem memnop (c : Common) (x : MemX) : Statement (.memnop c x) :=
  (parse_packStake 0x76 c x.bits rfl).trans (congrArg (fun y => some (Instr.memnop c y)) (MemX.ofBits_bits x))

theorem pref (c : Common) (x : MemX) : Statement (.pref c x) :=
  (parse_packStake 0x77 c x.bits rfl).trans (congrArg (fun y => some (Instr.pref c y)) (MemX.ofBits_bits x))

theorem fence (c : Common) (x : FenceX) : Statement (.fence c x) :=
  (parse_packStake 0x78 c x.bits rfl).trans (congrArg (fun y => some (Instr.fence c y)) (FenceX.ofBits_bits x))

theorem fwait (c : Common) : Statement (.fwait c) :=
  parse_packStake 0x79 c 0 rfl

theorem atom (c : Common) (x : MemX) : Statement (.atom c x) :=
  (parse_packStake 0x7A c x.bits rfl).trans (congrArg (fun y => some (Instr.atom c y)) (MemX.ofBits_bits x))

theorem fatom (c : Common) (x : MemX) : Statement (.fatom c x) :=
  (parse_packStake 0x7B c x.bits rfl).trans (congrArg (fun y => some (Instr.fatom c y)) (MemX.ofBits_bits x))

theorem cas (c : Common) (x : MemX) : Statement (.cas c x) :=
  (parse_packStake 0x7C c x.bits rfl).trans (congrArg (fun y => some (Instr.cas c y)) (MemX.ofBits_bits x))

theorem mcas (c : Common) (x : MemX) : Statement (.mcas c x) :=
  (parse_packStake 0x7D c x.bits rfl).trans (congrArg (fun y => some (Instr.mcas c y)) (MemX.ofBits_bits x))

theorem red (c : Common) (x : MemX) : Statement (.red c x) :=
  (parse_packStake 0x7E c x.bits rfl).trans (congrArg (fun y => some (Instr.red c y)) (MemX.ofBits_bits x))

theorem fred (c : Common) (x : MemX) : Statement (.fred c x) :=
  (parse_packStake 0x7F c x.bits rfl).trans (congrArg (fun y => some (Instr.fred c y)) (MemX.ofBits_bits x))

theorem cpy (c : Common) (x : MemX) : Statement (.cpy c x) :=
  (parse_packStake 0x80 c x.bits rfl).trans (congrArg (fun y => some (Instr.cpy c y)) (MemX.ofBits_bits x))

theorem cpywp (c : Common) (x : MemX) : Statement (.cpywp c x) :=
  (parse_packStake 0x81 c x.bits rfl).trans (congrArg (fun y => some (Instr.cpywp c y)) (MemX.ofBits_bits x))

theorem qfence (c : Common) (x : MemX) : Statement (.qfence c x) :=
  (parse_packStake 0x82 c x.bits rfl).trans (congrArg (fun y => some (Instr.qfence c y)) (MemX.ofBits_bits x))

theorem tmld (c : Common) (x : TmemX) : Statement (.tmld c x) :=
  (parse_packStake 0x90 c x.bits rfl).trans (congrArg (fun y => some (Instr.tmld c y)) (TmemX.ofBits_bits x))

theorem tmst (c : Common) (x : TmemX) : Statement (.tmst c x) :=
  (parse_packStake 0x91 c x.bits rfl).trans (congrArg (fun y => some (Instr.tmst c y)) (TmemX.ofBits_bits x))

theorem tmset (c : Common) (tmn : BitVec 4) : Statement (.tmset c tmn) :=
  (parse_packStake 0x92 c (xfLow tmn) rfl).trans (congrArg (fun y => some (Instr.tmset c y)) (xfLow_extract tmn (Nat.le_of_ble_eq_true rfl)))

theorem tmnar (c : Common) (tmn : BitVec 4) : Statement (.tmnar c tmn) :=
  (parse_packStake 0x93 c (xfLow tmn) rfl).trans (congrArg (fun y => some (Instr.tmnar c y)) (xfLow_extract tmn (Nat.le_of_ble_eq_true rfl)))

theorem tmget (c : Common) (tmn : BitVec 4) : Statement (.tmget c tmn) :=
  (parse_packStake 0x94 c (xfLow tmn) rfl).trans (congrArg (fun y => some (Instr.tmget c y)) (xfLow_extract tmn (Nat.le_of_ble_eq_true rfl)))

theorem mzero (c : Common) (x : MatX) : Statement (.mzero c x) :=
  (parse_packStake 0x98 c x.bits rfl).trans (congrArg (fun y => some (Instr.mzero c y)) (MatX.ofBits_bits x))

theorem mma (c : Common) (x : MatX) : Statement (.mma c x) :=
  (parse_packStake 0x99 c x.bits rfl).trans (congrArg (fun y => some (Instr.mma c y)) (MatX.ofBits_bits x))

theorem msnap (c : Common) (x : MatX) : Statement (.msnap c x) :=
  (parse_packStake 0x9A c x.bits rfl).trans (congrArg (fun y => some (Instr.msnap c y)) (MatX.ofBits_bits x))

theorem mdrain (c : Common) (x : MatX) : Statement (.mdrain c x) :=
  (parse_packStake 0x9B c x.bits rfl).trans (congrArg (fun y => some (Instr.mdrain c y)) (MatX.ofBits_bits x))

theorem mldacc (c : Common) (x : MatX) : Statement (.mldacc c x) :=
  (parse_packStake 0x9C c x.bits rfl).trans (congrArg (fun y => some (Instr.mldacc c y)) (MatX.ofBits_bits x))

theorem rdctl (c : Common) (ctl : BitVec 8) : Statement (.rdctl c ctl) :=
  (parse_packStake 0xA0 c (xfLow ctl) rfl).trans (congrArg (fun y => some (Instr.rdctl c y)) (xfLow_extract ctl (Nat.le_of_ble_eq_true rfl)))

theorem wrctl (c : Common) (ctl : BitVec 8) : Statement (.wrctl c ctl) :=
  (parse_packStake 0xA1 c (xfLow ctl) rfl).trans (congrArg (fun y => some (Instr.wrctl c y)) (xfLow_extract ctl (Nat.le_of_ble_eq_true rfl)))

theorem rdtime (c : Common) : Statement (.rdtime c) :=
  parse_packStake 0xA2 c 0 rfl

theorem trap (c : Common) (code : BitVec 16) : Statement (.trap c code) :=
  (parse_packStake 0xA3 c (xfLow code) rfl).trans (congrArg (fun y => some (Instr.trap c y)) (xfLow_extract code (Nat.le_of_ble_eq_true rfl)))

theorem brk (c : Common) (code : BitVec 16) : Statement (.brk c code) :=
  (parse_packStake 0xA4 c (xfLow code) rfl).trans (congrArg (fun y => some (Instr.brk c y)) (xfLow_extract code (Nat.le_of_ble_eq_true rfl)))

theorem event (c : Common) (code : BitVec 16) : Statement (.event c code) :=
  (parse_packStake 0xA5 c (xfLow code) rfl).trans (congrArg (fun y => some (Instr.event c y)) (xfLow_extract code (Nat.le_of_ble_eq_true rfl)))

theorem cfgswap (c : Common) (weaveId : BitVec 32) : Statement (.cfgswap c weaveId) :=
  (parse_packStake 0xA6 c (xfLow weaveId) rfl).trans (congrArg (fun y => some (Instr.cfgswap c y)) (xfLow_extract weaveId (Nat.le_of_ble_eq_true rfl)))

theorem mark (c : Common) : Statement (.mark c) :=
  parse_packStake 0xA7 c 0 rfl

theorem rplay (c : Common) : Statement (.rplay c) :=
  parse_packStake 0xA8 c 0 rfl

theorem hint (c : Common) (hint : BitVec 8) : Statement (.hint c hint) :=
  (parse_packStake 0xA9 c (xfLow hint) rfl).trans (congrArg (fun y => some (Instr.hint c y)) (xfLow_extract hint (Nat.le_of_ble_eq_true rfl)))

theorem unitReady (kind idx ok : W64) : Statement (.unitReady kind idx ok) :=
  parse_packEvent 2 kind idx ok 0 0 0 0

theorem thermalShutdown (temp : W64) : Statement (.thermalShutdown temp) :=
  parse_packEvent 4 temp 0 0 0 0 0 0

theorem dutyRaise (avgw temp : W64) : Statement (.dutyRaise avgw temp) :=
  parse_packEvent 5 avgw temp 0 0 0 0 0

theorem dutyLower (avgw temp : W64) : Statement (.dutyLower avgw temp) :=
  parse_packEvent 6 avgw temp 0 0 0 0 0

theorem pwrctlWrite (v : W64) : Statement (.pwrctlWrite v) :=
  parse_packEvent 7 v 0 0 0 0 0 0

theorem firmwareUpdate (img ver secver key : W64) : Statement (.firmwareUpdate img ver secver key) :=
  parse_packEvent 8 img ver secver key 0 0 0

theorem spdmRequest (kind arg : W64) : Statement (.spdmRequest kind arg) :=
  parse_packEvent 9 kind arg 0 0 0 0 0

theorem registerWrite (space off v : W64) : Statement (.registerWrite space off v) :=
  parse_packEvent 11 space off v 0 0 0 0

theorem artEnable (n v : W64) : Statement (.artEnable n v) :=
  parse_packEvent 12 n v 0 0 0 0 0

theorem wshareWrite (p d v : W64) : Statement (.wshareWrite p d v) :=
  parse_packEvent 13 p d v 0 0 0 0

theorem partctlEnable (p v : W64) : Statement (.partctlEnable p v) :=
  parse_packEvent 16 p v 0 0 0 0 0

theorem partctlDisable (p v : W64) : Statement (.partctlDisable p v) :=
  parse_packEvent 17 p v 0 0 0 0 0

theorem vfcfgEnable (vf v : W64) : Statement (.vfcfgEnable vf v) :=
  parse_packEvent 18 vf v 0 0 0 0 0

theorem vfcfgDisable (vf v : W64) : Statement (.vfcfgDisable vf v) :=
  parse_packEvent 19 vf v 0 0 0 0 0

theorem functionLevelReset (vf : W64) : Statement (.functionLevelReset vf) :=
  parse_packEvent 20 vf 0 0 0 0 0 0

theorem vfPause (vf v : W64) : Statement (.vfPause vf v) :=
  parse_packEvent 21 vf v 0 0 0 0 0

theorem vfUnpause (vf v : W64) : Statement (.vfUnpause vf v) :=
  parse_packEvent 22 vf v 0 0 0 0 0

theorem schedctlWrite (p v : W64) : Statement (.schedctlWrite p v) :=
  parse_packEvent 23 p v 0 0 0 0 0

theorem qndlWrite (p v : W64) : Statement (.qndlWrite p v) :=
  parse_packEvent 24 p v 0 0 0 0 0

theorem quenchFallback (p colour : W64) : Statement (.quenchFallback p colour) :=
  parse_packEvent 25 p colour 0 0 0 0 0

theorem quenchVacancy (p : W64) : Statement (.quenchVacancy p) :=
  parse_packEvent 26 p 0 0 0 0 0 0

theorem sqbaseWrite (vf v : W64) : Statement (.sqbaseWrite vf v) :=
  parse_packEvent 27 vf v 0 0 0 0 0

theorem eqbaseWrite (vf v : W64) : Statement (.eqbaseWrite vf v) :=
  parse_packEvent 28 vf v 0 0 0 0 0

theorem sqDoorbell (vf v : W64) : Statement (.sqDoorbell vf v) :=
  parse_packEvent 29 vf v 0 0 0 0 0

theorem sqheadWrite (vf v : W64) : Statement (.sqheadWrite vf v) :=
  parse_packEvent 30 vf v 0 0 0 0 0

theorem invalWrite (vf v : W64) : Statement (.invalWrite vf v) :=
  parse_packEvent 31 vf v 0 0 0 0 0

theorem invalidationComplete (vf : W64) : Statement (.invalidationComplete vf) :=
  parse_packEvent 32 vf 0 0 0 0 0 0

theorem trapresResume (vf v : W64) : Statement (.trapresResume vf v) :=
  parse_packEvent 33 vf v 0 0 0 0 0

theorem trapresKill (vf v : W64) : Statement (.trapresKill vf v) :=
  parse_packEvent 34 vf v 0 0 0 0 0

theorem gswctlGo (vf v : W64) : Statement (.gswctlGo vf v) :=
  parse_packEvent 35 vf v 0 0 0 0 0

theorem launch (vf : W64) : Statement (.launch vf) :=
  parse_packEvent 42 vf 0 0 0 0 0 0

theorem replay (vf : W64) : Statement (.replay vf) :=
  parse_packEvent 43 vf 0 0 0 0 0 0

theorem patch (vf : W64) : Statement (.patch vf) :=
  parse_packEvent 44 vf 0 0 0 0 0 0

theorem launchPushRetry (vf : W64) : Statement (.launchPushRetry vf) :=
  parse_packEvent 45 vf 0 0 0 0 0 0

theorem taskTakeup (colour : W64) : Statement (.taskTakeup colour) :=
  parse_packEvent 46 colour 0 0 0 0 0 0

theorem taskjoinRetry (colour : W64) : Statement (.taskjoinRetry colour) :=
  parse_packEvent 47 colour 0 0 0 0 0 0

theorem eventWrite (vf : W64) : Statement (.eventWrite vf) :=
  parse_packEvent 48 vf 0 0 0 0 0 0

theorem eventSlotRetry (vf : W64) : Statement (.eventSlotRetry vf) :=
  parse_packEvent 49 vf 0 0 0 0 0 0

theorem msixMessage (vf : W64) : Statement (.msixMessage vf) :=
  parse_packEvent 50 vf 0 0 0 0 0 0

theorem hostInboundRequest (write addr size : W64) (data : W512) : Statement (.hostInboundRequest write addr size data) :=
  parse_packEvent 51 write addr size 0 0 0 data

theorem hostCompletion (tag status : W64) (data : W512) : Statement (.hostCompletion tag status data) :=
  parse_packEvent 52 tag status 0 0 0 0 data

theorem atsTranslationResponse (page perm xlat : W64) : Statement (.atsTranslationResponse page perm xlat) :=
  parse_packEvent 53 page perm xlat 0 0 0 0

theorem priPageResponse (page ok : W64) : Statement (.priPageResponse page ok) :=
  parse_packEvent 54 page ok 0 0 0 0 0

theorem atsInvalidation (base log2l : W64) : Statement (.atsInvalidation base log2l) :=
  parse_packEvent 55 base log2l 0 0 0 0 0

theorem lockInterfaceRequest (vf nonce stream : W64) : Statement (.lockInterfaceRequest vf nonce stream) :=
  parse_packEvent 56 vf nonce stream 0 0 0 0

theorem startInterfaceRequest (vf nonce : W64) : Statement (.startInterfaceRequest vf nonce) :=
  parse_packEvent 57 vf nonce 0 0 0 0 0

theorem stopInterfaceRequest (vf : W64) : Statement (.stopInterfaceRequest vf) :=
  parse_packEvent 58 vf 0 0 0 0 0 0

theorem ideIntegrityFailure (vf : W64) : Statement (.ideIntegrityFailure vf) :=
  parse_packEvent 59 vf 0 0 0 0 0 0

theorem rdq (port srcdev tag off size : W64) : Statement (.rdq port srcdev tag off size) :=
  parse_packEvent 60 port srcdev tag off size 0 0

theorem wrq (port srcdev tag off mask : W64) (data : W512) : Statement (.wrq port srcdev tag off mask data) :=
  parse_packEvent 61 port srcdev tag off mask 0 data

theorem atq (port srcdev tag off op : W64) (data : W512) : Statement (.atq port srcdev tag off op data) :=
  parse_packEvent 62 port srcdev tag off op 0 data

theorem rel (port srcdev tag : W64) : Statement (.rel port srcdev tag) :=
  parse_packEvent 63 port srcdev tag 0 0 0 0

theorem rdr (port tag status : W64) (data : W512) : Statement (.rdr port tag status data) :=
  parse_packEvent 64 port tag status 0 0 0 data

theorem wra (port tag status : W64) : Statement (.wra port tag status) :=
  parse_packEvent 65 port tag status 0 0 0 0

theorem atr (port tag status : W64) (data : W512) : Statement (.atr port tag status data) :=
  parse_packEvent 66 port tag status 0 0 0 data

theorem flitReplayRequest (port seq : W64) : Statement (.flitReplayRequest port seq) :=
  parse_packEvent 67 port seq 0 0 0 0 0

theorem tokenArrival (colour src dst : W64) : Statement (.tokenArrival colour src dst) :=
  parse_packEvent 68 colour src dst 0 0 0 0

theorem spillWriteRetry (colour : W64) : Statement (.spillWriteRetry colour) :=
  parse_packEvent 69 colour 0 0 0 0 0 0

theorem spillReinject (colour : W64) : Statement (.spillReinject colour) :=
  parse_packEvent 70 colour 0 0 0 0 0 0

theorem misfitForward (colour lstake port : W64) : Statement (.misfitForward colour lstake port) :=
  parse_packEvent 71 colour lstake port 0 0 0 0

theorem strayReject (colour src dst : W64) : Statement (.strayReject colour src dst) :=
  parse_packEvent 72 colour src dst 0 0 0 0

theorem weaveLoad (colour : W64) : Statement (.weaveLoad colour) :=
  parse_packEvent 74 colour 0 0 0 0 0 0

theorem waleMarkerArrival (colour src dst : W64) : Statement (.waleMarkerArrival colour src dst) :=
  parse_packEvent 75 colour src dst 0 0 0 0

theorem roundEntry (colour lstake : W64) : Statement (.roundEntry colour lstake) :=
  parse_packEvent 76 colour lstake 0 0 0 0 0

theorem markerInjection (colour : W64) : Statement (.markerInjection colour) :=
  parse_packEvent 77 colour 0 0 0 0 0 0

theorem unitMarkerForward (colour lstake : W64) : Statement (.unitMarkerForward colour lstake) :=
  parse_packEvent 78 colour lstake 0 0 0 0 0

theorem frameQuiesced (colour frame : W64) : Statement (.frameQuiesced colour frame) :=
  parse_packEvent 80 colour frame 0 0 0 0 0

theorem purgeSweepDone (colour frame : W64) : Statement (.purgeSweepDone colour frame) :=
  parse_packEvent 81 colour frame 0 0 0 0 0

theorem kgateDecrement (colour gate : W64) : Statement (.kgateDecrement colour gate) :=
  parse_packEvent 82 colour gate 0 0 0 0 0

theorem wsbRequestArrival (colour lstake : W64) : Statement (.wsbRequestArrival colour lstake) :=
  parse_packEvent 83 colour lstake 0 0 0 0 0

theorem wsbLink (colour frame : W64) : Statement (.wsbLink colour frame) :=
  parse_packEvent 84 colour frame 0 0 0 0 0

theorem frameStopAck (colour frame tile : W64) : Statement (.frameStopAck colour frame tile) :=
  parse_packEvent 85 colour frame tile 0 0 0 0

theorem trapRaise (colour frame : W64) : Statement (.trapRaise colour frame) :=
  parse_packEvent 86 colour frame 0 0 0 0 0

theorem trapDelivery (colour frame : W64) : Statement (.trapDelivery colour frame) :=
  parse_packEvent 87 colour frame 0 0 0 0 0

theorem replaySlotRetry (colour frame : W64) : Statement (.replaySlotRetry colour frame) :=
  parse_packEvent 88 colour frame 0 0 0 0 0

theorem replayAreaWriteRetry (colour frame : W64) : Statement (.replayAreaWriteRetry colour frame) :=
  parse_packEvent 89 colour frame 0 0 0 0 0

theorem controlRequestSend (req : W64) : Statement (.controlRequestSend req) :=
  parse_packEvent 90 req 0 0 0 0 0 0

theorem accessPerform (req : W64) : Statement (.accessPerform req) :=
  parse_packEvent 91 req 0 0 0 0 0 0

theorem fullEmptyPerform (req : W64) : Statement (.fullEmptyPerform req) :=
  parse_packEvent 92 req 0 0 0 0 0 0

theorem ldtLineWrite (req : W64) : Statement (.ldtLineWrite req) :=
  parse_packEvent 93 req 0 0 0 0 0 0

theorem sttLineWrite (req : W64) : Statement (.sttLineWrite req) :=
  parse_packEvent 94 req 0 0 0 0 0 0

theorem syReleaseDrain (req : W64) : Statement (.syReleaseDrain req) :=
  parse_packEvent 96 req 0 0 0 0 0 0

theorem atomicRmw (req : W64) : Statement (.atomicRmw req) :=
  parse_packEvent 97 req 0 0 0 0 0 0

theorem pageWalk (cluster va : W64) : Statement (.pageWalk cluster va) :=
  parse_packEvent 98 cluster va 0 0 0 0 0

theorem walkComplete (cluster va : W64) : Statement (.walkComplete cluster va) :=
  parse_packEvent 99 cluster va 0 0 0 0 0

theorem reclassifyRequest (cluster va : W64) : Statement (.reclassifyRequest cluster va) :=
  parse_packEvent 100 cluster va 0 0 0 0 0

theorem gets (cluster line : W64) : Statement (.gets cluster line) :=
  parse_packEvent 101 cluster line 0 0 0 0 0

theorem getx (cluster line : W64) : Statement (.getx cluster line) :=
  parse_packEvent 102 cluster line 0 0 0 0 0

theorem putx (cluster line : W64) : Statement (.putx cluster line) :=
  parse_packEvent 103 cluster line 0 0 0 0 0

theorem directoryRmw (line : W64) : Statement (.directoryRmw line) :=
  parse_packEvent 104 line 0 0 0 0 0 0

theorem directoryEviction (line : W64) : Statement (.directoryEviction line) :=
  parse_packEvent 105 line 0 0 0 0 0 0

theorem probe (cluster line : W64) : Statement (.probe cluster line) :=
  parse_packEvent 106 cluster line 0 0 0 0 0

theorem probeAck (line : W64) : Statement (.probeAck line) :=
  parse_packEvent 107 line 0 0 0 0 0 0

theorem lockRequest (cluster slot : W64) : Statement (.lockRequest cluster slot) :=
  parse_packEvent 108 cluster slot 0 0 0 0 0

theorem lockGrant (cluster slot : W64) : Statement (.lockGrant cluster slot) :=
  parse_packEvent 109 cluster slot 0 0 0 0 0

theorem mcasChecks (req : W64) : Statement (.mcasChecks req) :=
  parse_packEvent 110 req 0 0 0 0 0 0

theorem writeAndUnlock (cluster slot line : W64) : Statement (.writeAndUnlock cluster slot line) :=
  parse_packEvent 111 cluster slot line 0 0 0 0

theorem unlockAck (cluster slot : W64) : Statement (.unlockAck cluster slot) :=
  parse_packEvent 112 cluster slot 0 0 0 0 0

theorem lockWithdrawal (cluster slot : W64) : Statement (.lockWithdrawal cluster slot) :=
  parse_packEvent 113 cluster slot 0 0 0 0 0

theorem copyCommandAccept (req : W64) : Statement (.copyCommandAccept req) :=
  parse_packEvent 114 req 0 0 0 0 0 0

theorem copyPiece (colour queue : W64) : Statement (.copyPiece colour queue) :=
  parse_packEvent 115 colour queue 0 0 0 0 0

theorem qfenceRelease (colour idx : W64) : Statement (.qfenceRelease colour idx) :=
  parse_packEvent 116 colour idx 0 0 0 0 0

theorem throttledActivation (row : W64) : Statement (.throttledActivation row) :=
  parse_packEvent 118 row 0 0 0 0 0 0

theorem mzeroPerform (tile bank : W64) : Statement (.mzeroPerform tile bank) :=
  parse_packEvent 122 tile bank 0 0 0 0 0

theorem mldaccPerform (tile bank : W64) : Statement (.mldaccPerform tile bank) :=
  parse_packEvent 123 tile bank 0 0 0 0 0

theorem msnapStart (tile bank : W64) : Statement (.msnapStart tile bank) :=
  parse_packEvent 124 tile bank 0 0 0 0 0

theorem mdrainPerform (tile bank : W64) : Statement (.mdrainPerform tile bank) :=
  parse_packEvent 125 tile bank 0 0 0 0 0

theorem sliceExpiry (p : W64) : Statement (.sliceExpiry p) :=
  parse_packEvent 126 p 0 0 0 0 0 0

theorem forcedCut (colour : W64) : Statement (.forcedCut colour) :=
  parse_packEvent 127 colour 0 0 0 0 0 0

theorem saveCommit (colour : W64) : Statement (.saveCommit colour) :=
  parse_packEvent 128 colour 0 0 0 0 0 0

theorem cfgswapSwitch (colour : W64) : Statement (.cfgswapSwitch colour) :=
  parse_packEvent 129 colour 0 0 0 0 0 0

theorem migrationRound (colour : W64) : Statement (.migrationRound colour) :=
  parse_packEvent 130 colour 0 0 0 0 0 0

theorem stakeMove (colour lstake tile slot : W64) : Statement (.stakeMove colour lstake tile slot) :=
  parse_packEvent 131 colour lstake tile slot 0 0 0

theorem watchdogExpiry (colour : W64) : Statement (.watchdogExpiry colour) :=
  parse_packEvent 132 colour 0 0 0 0 0 0

theorem schedulerUnbind (colour : W64) : Statement (.schedulerUnbind colour) :=
  parse_packEvent 134 colour 0 0 0 0 0 0

theorem resetRelease : Statement .resetRelease :=
  parse_packEvent 1 0 0 0 0 0 0 0

theorem warmReset : Statement .warmReset :=
  parse_packEvent 3 0 0 0 0 0 0 0

theorem pldmMonitorRequest : Statement .pldmMonitorRequest :=
  parse_packEvent 10 0 0 0 0 0 0 0

theorem sliceShrinkSweep : Statement .sliceShrinkSweep :=
  parse_packEvent 14 0 0 0 0 0 0 0

theorem sliceShrinkComplete : Statement .sliceShrinkComplete :=
  parse_packEvent 15 0 0 0 0 0 0 0

theorem wvreg : Statement .wvreg :=
  parse_packEvent 36 0 0 0 0 0 0 0

theorem bind : Statement .bind :=
  parse_packEvent 37 0 0 0 0 0 0 0

theorem unbind : Statement .unbind :=
  parse_packEvent 38 0 0 0 0 0 0 0

theorem save : Statement .save :=
  parse_packEvent 39 0 0 0 0 0 0 0

theorem resume : Statement .resume :=
  parse_packEvent 40 0 0 0 0 0 0 0

theorem ckptall : Statement .ckptall :=
  parse_packEvent 41 0 0 0 0 0 0 0

theorem strayReturn : Statement .strayReturn :=
  parse_packEvent 73 0 0 0 0 0 0 0

theorem upsettArrival : Statement .upsettArrival :=
  parse_packEvent 79 0 0 0 0 0 0 0

theorem fenceSlotGrant : Statement .fenceSlotGrant :=
  parse_packEvent 95 0 0 0 0 0 0 0

theorem scrubGranule : Statement .scrubGranule :=
  parse_packEvent 117 0 0 0 0 0 0 0

theorem hammerWindowEnd : Statement .hammerWindowEnd :=
  parse_packEvent 119 0 0 0 0 0 0 0

theorem mmaStepStart : Statement .mmaStepStart :=
  parse_packEvent 120 0 0 0 0 0 0 0

theorem mmaStepCommit : Statement .mmaStepCommit :=
  parse_packEvent 121 0 0 0 0 0 0 0

theorem wickerLinkDown : Statement .wickerLinkDown :=
  parse_packEvent 133 0 0 0 0 0 0 0

end Sys2Proof.Laws.F
end

