-- ==== Sys2Proof/Tests/Slice0.lean ====
section
/-! SUPPORT. The model's own tests: ill-formed terms that the checks refuse, words written out from the spec's encodings, single steps
with results that the spec gives, and for every statement a state and operands that meet its hypotheses. -/

namespace Sys2Proof.Tests

open Sys2Proof Sys2Proof.Machine

set_option Elab.async false

/-! ## Small states -/

/-- The 128-bit word of an instruction. -/
def enc (i : Instr) : StakeWord := (encode i).setWidth 128

/-- A destination that takes results. -/
def out0 : Dest := { v := true, q := false, lstake := 0x11, port := 0 }

/-- Common fields: port a alone, one destination. -/
def cm (t : Ty) (md : BitVec 4) : Common :=
  { ty := t, md := md, acc := 0, sa := .port, sb := .zero, sc := .zero, d0 := out0, d1 := Dest.none, d2 := Dest.none }

/-- Common fields: ports a and b. -/
def cm2 (t : Ty) (md : BitVec 4) : Common := { cm t md with sb := .port }

/-- Common fields: ports a, b and c. -/
def cm3 (t : Ty) (md : BitVec 4) : Common := { cm2 t md with sc := .port }

/-- No immediate. -/
def x0 : ImmX := { sub := 0, imm := 0 }

/-- A memory access of 2^6 bytes, linked to nothing. -/
def m6 : MemX := { pred := 0, own := 1, succ := 0, fc := 0, sz := 6, ord := 0 }

/-- A stake of colour 0 with an operand set for frame 0, whose tokens carry these data. -/
def atD (i : Instr) (a b c : W512) (fa : BitVec 3 := 0) (fb : BitVec 3 := 0) : State :=
  let put (d : W512) (f : BitVec 3) (t : Token) : Token := { mkToken d f 0 0 0 0 with port := t.port }
  (probeStake State.reset (enc i)).updTile 0 (fun t => t.setActive { t.active with
    slots := t.active.slots.map (fun x => (x.1, { x.2 with
      ready := x.2.ready.map (fun o => { o with ta := o.ta.map (put a fa), tb := o.tb.map (put b fb), tc := o.tc.map (put c 0) }) })) })

/-- The same with zeros. -/
def at0 (i : Instr) : State := atD i 0 0 0

/-- A firing may begin, with a property of what it has in hand. -/
def may (gate : State → Fire → Bool) (s : State) (p : Fire → Bool) : Bool :=
  match pick s with
  | some f => f.ops.toks.all Token.ok && gate s f && hasTurn s f && p f
  | none => false

theorem fires_of_may {gate : State → Fire → Bool} {s : State} {p : Fire → Prop} [DecidablePred p]
    (h : may gate s (fun f => decide (p f)) = true) : ∃ f, Fires gate s f ∧ p f := by
  unfold may at h
  split at h
  · next f hf =>
    simp only [Bool.and_eq_true, decide_eq_true_eq] at h
    exact ⟨f, ⟨hf, h.1.1.1, h.1.1.2, h.1.2⟩, h.2⟩
  · cases h

/-- A firing may begin. -/
theorem fires_of_may' {gate : State → Fire → Bool} {s : State} (h : may gate s (fun _ => true) = true) : ∃ f, Fires gate s f := by
  unfold may at h
  split at h
  · next f hf =>
    simp only [Bool.and_eq_true] at h
    exact ⟨f, ⟨hf, h.1.1.1, h.1.1.2, h.1.2⟩⟩
  · cases h

/-! ## Ill-formed terms -/

/-- R309: an immediate that its type cannot hold, two immediates, and an immediate that no selector names. -/
theorem refused_immediates :
    (Instr.add { cm2 .i8 8 with sb := .imm } { sub := 0, imm := 0x80 }).wf = false ∧ (Instr.add { cm2 .i8 8 with sb := .imm } { sub := 0, imm := 0x7F }).wf = true ∧
    (Instr.add { cm2 .i32 8 with sa := .imm, sb := .imm } x0).wf = false ∧ (Instr.add (cm2 .i32 8) { sub := 0, imm := 1 }).wf = false ∧
    (Instr.add (cm2 .i32 8) { sub := 1, imm := 0 }).wf = false := by decide +kernel

/-- R329 step 4: types, modifiers and selectors that the class does not allow. -/
theorem refused_forms :
    (Instr.add (cm2 .f32 8) x0).wf = false ∧ (Instr.add (cm2 .i32 1) x0).wf = false ∧ (Instr.fadd (cm2 .f32 5) x0).wf = false ∧
    (Instr.add { cm2 .i32 8 with sc := .port } x0).wf = false ∧ (Instr.mov (cm .x 8) x0).wf = false ∧ (Instr.kgate (cm .x 0) 0).wf = false ∧
    (Instr.kgate (cm .x 0) 1).wf = true ∧ (Instr.retag (cm2 .x 0) 3).wf = false ∧ (Instr.bfx (cm .i32 8) ⟨32, 1⟩).wf = false ∧
    (Instr.bfx (cm .i32 8) ⟨32, 0⟩).wf = true ∧ (Instr.sext (cm .i32 8) .i32).wf = false ∧ (Instr.fcvt (cm .f32 5) .bf16).wf = false ∧
    (Instr.fcvt (cm .bf16 5) .f32).wf = true ∧ (Instr.ld (cm .f64 0) { m6 with sz := 2 }).wf = false ∧ (Instr.ld (cm .f64 0) { m6 with ord := 2 }).wf = false ∧
    (Instr.mma { cm2 .bf16 0 with sc := .special } ⟨0, .f16⟩).wf = false ∧ (Instr.rdctl (cm .n64 0) 1).wf = false ∧ (Instr.rdctl (cm .n64 0) 0x31).wf = true ∧
    (Instr.hint (cm .x 0) 4).wf = false ∧ (Instr.rng (cm .n32 8) 1).wf = false ∧ (Instr.vred (cm .f32 8) { sub := 3, imm := 0 }).wf = false := by decide +kernel

/-- R306: an unused field that is not zero, a STEER without a result, two misfit routes, and a misfit route with ACC = 0. -/
theorem refused_destinations :
    (Instr.mov { cm .x 0 with d1 := { Dest.none with lstake := 1 } } x0).wf = false ∧
    (Instr.steer { cm2 .n32 0 with d0 := { out0 with q := true } } x0).wf = false ∧
    (Instr.mov { cm .x 0 with acc := 1, d1 := { out0 with q := true }, d2 := { out0 with q := true } } x0).wf = false ∧
    (Instr.mov { cm .x 0 with d1 := { out0 with q := true } } x0).wf = false ∧
    (Instr.mov { cm .x 0 with acc := 1, d1 := { out0 with q := true } } x0).wf = true := by decide +kernel

/-- R122: an OWN above 509, and PRED or SUCC on the wrong side of OWN. -/
theorem refused_waves :
    (Instr.ld (cm .f32 0) { m6 with pred := seqNone, own := 509, succ := seqNone }).wf = true ∧
    (Instr.ld (cm .f32 0) { m6 with pred := seqNone, own := 510, succ := seqNone }).wf = false ∧
    (Instr.ld (cm .f32 0) { m6 with pred := 1, own := 1, succ := 2 }).wf = false ∧ (Instr.ld (cm .f32 0) { m6 with pred := 2, own := 1, succ := 3 }).wf = false ∧
    (Instr.ld (cm .f32 0) { m6 with pred := 0, own := 2, succ := 1 }).wf = false := by decide +kernel

/-- The decoder refuses a word by a name. -/
def refuses (r : Except DecodeError Instr) (e : DecodeError) : Bool :=
  match r with
  | .ok _ => false
  | .error x => x == e

/-- The decoder refuses by name: an empty word, a reserved opcode, an illegal field, a stray bit and a reserved event. -/
theorem refused_words :
    refuses (decodeStake 0) .reservedOpcode = true ∧ refuses (decodeStake (0xFF <<< 120)) .reservedOpcode = true ∧
    refuses (decodeStake 0x76F0_001B_4004_3800_0000_0000_0406_0404#128) .illegalField = true ∧
    refuses (decodeStake 0x0CF0_001B_4002_2000_0000_0001_0000_0004#128) .strayBits = true ∧ refuses (decode (0xFF00 : StepWord)) .reservedEvent = true := by
  decide +kernel

/-! ## Words of the spec -/

/-- The decoder reads a word as an instruction that writes it back. -/
def reads (w : StakeWord) (p : Instr → Bool) : Bool :=
  match decodeStake w with
  | .ok i => p i && enc i == w
  | .error _ => false

/-- The example words of the instruction reference, one or more for each family. -/
theorem test_words :
    reads 0x4089_0217_4000_A600_0C00_0000_3FC0_0000#128 (fun i => match i with | .fadd _ x => x.imm == 0x3FC0_0000 | _ => false) = true ∧
    reads 0x2748_000F_4002_2000_0000_0000_0000_0000#128 (fun i => match i with | .div c _ => c.ty == .i32 && c.sb == .l2 | _ => false) = true ∧
    reads 0x539D_001B_4000_8000_0000_0000_0000_0008#128 (fun i => match i with | .fcvt c t => c.ty == .bf16 && c.rnd == 5 && t == .f32 | _ => false) = true ∧
    reads 0x7081_005B_4002_A000_0000_0000_0002_0259#128 (fun i => match i with | .ld c m => c.sa == .l1 && m == ⟨0, 1, 2, 2, 6, 1⟩ | _ => false) = true ∧
    reads 0x7141_0043_4004_3800_0000_0000_080B_FE6A#128 (fun i => match i with | .st c m => c.sb == .port && m == ⟨2, 5, seqNone, 3, 2, 2⟩ | _ => false) = true ∧
    reads 0x7DF0_003B_4004_0000_0000_0000_0806_042C#128 (fun i => match i with | .mcas c m => c.sa == .l0 && m == ⟨2, 3, 4, 1, 3, 0⟩ | _ => false) = true ∧
    reads 0x0750_00FB_4001_2800_0000_0000_0000_0001#128 (fun i => match i with | .movid c n => c.sa == .special && n == 1 | _ => false) = true ∧
    reads 0x0350_0003_4002_4600_2600_0000_0000_0000#128 (fun i => match i with | .steer c _ => !c.d0.q && c.d1.q | _ => false) = true := by decide +kernel

/-- More of them. -/
theorem test_words_more :
    reads 0x9B91_003F_4006_0400_6380_0002_0000_0000#128 (fun i => match i with | .mdrain c x => c.ty == .bf16 && x.bank == 1 | _ => false) = true ∧
    reads 0x99B0_0003_C008_1800_0000_0003_6000_0000#128 (fun i => match i with | .mma c _ => c.ty == .e4m3 | _ => false) = true ∧
    reads 0x7A71_0008_4002_4000_0000_0000_0C08_054F#128 (fun i => match i with | .atom c _ => c.ty == .n64 | _ => false) = true ∧
    reads 0x76F0_001B_4004_3800_0000_0000_0406_0400#128 (fun i => match i with | .memnop _ m => m == ⟨1, 3, 4, 0, 0, 0⟩ | _ => false) = true ∧
    reads 0x72B0_001B_4005_E000_0000_0007_F801_FE18#128 (fun i => match i with | .ldt c _ => c.ty == .e4m3 | _ => false) = true ∧
    reads 0x0CF0_001B_4002_2000_0000_0000_0000_0004#128 (fun i => match i with | .kgate _ n => n == 4 | _ => false) = true := by decide +kernel

/-- A device step's word, and the table's numbering of bits. -/
theorem test_words_steps :
    decodeTableWord 128 0x2748_000F_4002_2000_0000_0000_0000_0000 = some (.div { cm2 .i32 8 with sb := .l2 } x0) ∧
    decodeTableWord 1152 (encode .warmReset).toNat = some .warmReset ∧ decodeTableWord 1152 (encode (.wsbLink 3 5)).toNat = some (.wsbLink 3 5) := by
  decide +kernel

/-! ## Single steps -/

/-- DATA of the token that the next step sends to stake 0x11. -/
def sent (s : State) : Option W512 :=
  match step s with
  | .next t => match (chanItems t (destKey 0 .stake 0 0 out0)).head? with
    | some (.tok k) => some k.data
    | _ => none
  | _ => none

/-- FPCTL of colour 0 after the next step. -/
def flagsOf (s : State) : Option W64 :=
  match step s with
  | .next t => (t.col? 0).map (·.fpctl)
  | _ => none

/-- Lanes from a list, lane 0 first. -/
def lanes (w : Nat) (l : List Nat) : W512 := ofLanes w l

/-- The example of DIV: −7 / 2, 7 / −2, 7 / 0 and the least number by −1. -/
theorem test_div : (sent (atD (.div (cm2 .i32 8) x0) (lanes 32 [0xFFFFFFF9, 7, 7, 0x80000000]) (lanes 32 [2, 0xFFFFFFFE, 0, 0xFFFFFFFF]) 0)).map
    (fun v => (lane v 32 0, lane v 32 1, lane v 32 2, lane v 32 3)) = some (0xFFFFFFFD, 0xFFFFFFFD, 0xFFFFFFFF, 0x80000000) := by decide +kernel

/-- The example of MULH.I8. -/
theorem test_mulh_signed : sent (atD (.mulh (cm2 .i8 0) x0) 0x80 0x7F 0) = some 0xC0 := by decide +kernel

/-- The example of MULH.N8. -/
theorem test_mulh_unsigned : sent (atD (.mulh (cm2 .n8 0) x0) 0x80 0x7F 0) = some 0x3F := by decide +kernel

/-- The example of SAR.I8. -/
theorem test_sar : sent (atD (.sar (cm2 .i8 0) x0) 0x90 0x0B 0) = some 0xF2 := by decide +kernel

/-- The example of SHR.I8. -/
theorem test_shr : sent (atD (.shr (cm2 .i8 0) x0) 0x90 0x0B 0) = some 0x12 := by decide +kernel

/-- The examples of SUBS.I8 and SUBS.N8. -/
theorem test_subs : sent (atD (.subs (cm2 .i8 0) x0) 0x9C 100 0) = some 0x80 ∧ sent (atD (.subs (cm2 .n8 0) x0) 5 9 0) = some 0 := by decide +kernel

/-- The example of REM.I32. -/
theorem test_rem : sent (atD (.rem (cm2 .i32 0) x0) 0xFFFFFFF9 2 0) = some 0xFFFFFFFF := by decide +kernel

/-- R352: ADD wraps in its lane. -/
theorem test_add_wraps : sent (atD (.add (cm2 .i8 8) x0) 0x01FF 0x0101 0) = some 0x0200 := by decide +kernel

/-- The example of I2F.F16 from N16: 65,520 rounds up to infinity with OF and NX under RNE, and to 65,504 with NX alone under RTZ. -/
theorem test_i2f : sent (atD (.i2f (cm .f16 0) .n16) 65520 0 0) = some 0x7C00 ∧ sent (atD (.i2f (cm .f16 2) .n16) 65520 0 0) = some 0x7BFF := by
  decide +kernel

/-- Its flags. -/
theorem test_i2f_flags : flagsOf (atD (.i2f (cm .f16 0) .n16) 65520 0 0) = some 0x114 ∧ flagsOf (atD (.i2f (cm .f16 2) .n16) 65520 0 0) = some 0x110 := by
  decide +kernel

/-- The example of VUNPK: the third part of 64 I8 lanes, and a trap past the end. -/
theorem test_vunpk : (sent (atD (.vunpk (cm2 .i32 8) .i8) (lanes 8 (List.range 64)) 2 0)).map (fun v => (lane v 32 0, lane v 32 15)) = some (32, 47) ∧
    sent (atD (.vunpk (cm2 .i32 8) .i8) 0 4 0) = none := by decide +kernel

/-- R476: STEER sends its operand to the true side. -/
theorem test_steer : sent (atD (.steer { cm2 .n32 0 with d1 := { out0 with q := true, lstake := 0x12 } } x0) 9 1 0) = some 9 ∧
    sent (atD (.steer { cm2 .n32 0 with d1 := { out0 with q := true, lstake := 0x12 } } x0) 9 0 0) = none := by decide +kernel

/-- The plait example of "Number formats and exact arithmetic". -/
theorem test_plait : plait 0x200000001 1 0 3 5 = 0x19BD922D := by decide +kernel

/-- A TRAP takes the frame to its stop with SWTRAP and its code. -/
theorem test_trap : (match step (at0 (.trap (cm .x 0) 0x1234)) with
    | .next t => (frame? t 0 0).map (fun x => (x.phase, x.cause, x.faddr))
    | _ => none) = some (.stopping, cSWTRAP, 0x1234) := by decide +kernel

/-- A step of an empty schedule is one clk; a slot that does not exist is a fault; a word that is no instruction is refused. -/
theorem test_step :
    (match step State.reset with | .next t => t.clk == 1 | _ => false) = true ∧
    (match step { State.reset with agenda := [.fire 2048 0] } with | .fault (.noSuchSlot 2048 0) => true | _ => false) = true ∧
    (match step (probeStake State.reset (0xFF <<< 120)) with | .refused (.undecodable .reservedOpcode) => true | _ => false) = true := by decide +kernel

/-! ## Witnesses: firings -/

theorem witness_EmittingInstructionsLeaveTheRestAlone : ∃ f, Fires destsReady (at0 (.add (cm2 .i32 8) x0)) f ∧
    ∀ d ∈ resultDests f.st.common, chanExt (at0 (.add (cm2 .i32 8) x0)) (destKey f.colour .stake f.st.lstake d.1 d.2) = false :=
  fires_of_may (by decide +kernel)

theorem witness_IntegerArithmeticLanes : ∃ f, Fires destsReady (at0 (.add (cm2 .i32 8) x0)) f ∧ Ty.i32.isInt = true :=
  fires_of_may (by decide +kernel)

theorem witness_FiveLaneRulesHoldWhole :
    (∃ f, Fires destsReady (atD (.abs (cm .i8 8) x0) 0x80 0 0) f ∧ Ty.i8.isSigned = true ∧ f.lane .i8 0 .port 0 0 = 2 ^ 7) ∧
    (∃ f, Fires destsReady (at0 (.fneg (cm .f64 8) x0)) f ∧ Ty.f64.isFlt = true) ∧ (Instr.abs (cm .i8 8) x0).wf = true ∧
    (Instr.add (cm2 .i64 0) x0).wf = true ∧ (Instr.adds (cm2 .n8 8) x0).wf = true ∧ (Instr.fabs (cm .f64 8) x0).wf = true ∧
    (Instr.fneg (cm .f32 0) x0).wf = true :=
  ⟨fires_of_may (by decide +kernel), fires_of_may (by decide +kernel), by decide +kernel, by decide +kernel, by decide +kernel,
    by decide +kernel, by decide +kernel⟩

theorem witness_BitwiseAndFieldLanes :
    (∃ f, Fires destsReady (at0 (.lea (cm2 .n64 0) x0)) f ∧ Ty.n64.isInt = true ∧ Ty.n64.width = 64) ∧
    (1 ≤ (⟨1, 63⟩ : BfX).len.toNat ∧ (⟨1, 63⟩ : BfX).pos.toNat + (⟨1, 63⟩ : BfX).len.toNat ≤ 64) ∧
    (Ty.i8.isInt = true ∧ Ty.i8.width < Ty.n64.width) :=
  ⟨fires_of_may (by decide +kernel), by decide +kernel, by decide +kernel⟩

theorem witness_FloatArithmeticRoundsOnce :
    (∃ f, Fires destsReady (atD (.fdiv (cm2 .f32 8) x0) 0x3F800000 0x40000000 0) f ∧ Ty.f32.isFlt = true ∧
      (decodeIn (f.env 0 false) .f32 (f.lane .f32 0 .port 0 0)).isNum = true ∧ 0 < (decodeIn (f.env 0 false) .f32 (f.lane .f32 0 .port 0 0)).q ∧
      (decodeIn (f.env 0 false) .f32 (f.lane .f32 0 .port 1 0)).q ≠ 0 ∧ (decodeIn (f.env 0 false) .f32 (f.lane .f32 0 .port 1 1)).q = 0) ∧
    (∃ f, Fires destsReady (atD (.fsqrt (cm .f32 8) x0) 0xBF800000 0 0) f ∧
      (decodeIn (f.env 0 false) .f32 (f.lane .f32 0 .port 0 0)).q < 0) :=
  ⟨fires_of_may (by decide +kernel), fires_of_may (by decide +kernel)⟩

theorem witness_FloatNaNOperandsGiveAQuietNaN : ∃ f, Fires destsReady (atD (.fadd (cm2 .f32 8) x0) 0x7F800001 0 0) f ∧ Ty.f32.isFlt = true ∧
    (decodeIn (f.env 0 false) .f32 (f.lane .f32 0 .port 0 0)).isNan = true ∧ (decodeIn (f.env 0 false) .f32 (f.lane .f32 0 .port 0 0)).isSnan = true :=
  fires_of_may (by decide +kernel)

theorem witness_FloatComparisonsAndSigns :
    (∃ f, Fires destsReady (atD (.fcmp (cm2 .f64 8) x0) 0x7FF0000000000001 0 0) f ∧ Ty.f64.isFlt = true ∧
      (decodeIn (f.env 0 false) .f64 (f.lane .f64 0 .port 0 0)).isSnan = true) ∧
    (∃ f, Fires destsReady (at0 (.fmin (cm2 .f64 8) x0)) f ∧ (decodeIn (f.env 0 false) .f64 (f.lane .f64 0 .port 0 0)).isNum = true ∧
      (decodeIn (f.env 0 false) .f64 (f.lane .f64 0 .port 1 0)).isNum = true) :=
  ⟨fires_of_may (by decide +kernel), fires_of_may (by decide +kernel)⟩

theorem witness_ApproximateFunctionsAtTheirSpecialOperands :
    (∃ f, Fires destsReady (at0 (.frcp (cm .f16 8) x0)) f ∧ Ty.f16.isFlt3 = true ∧
      (decodeIn (f.env 0 false) .f16 (f.lane .f16 0 .port 0 0)).isZero = true) ∧
    (∃ f, Fires destsReady (atD (.frsq (cm .f16 8) x0) 0xBC007C00 0 0) f ∧ (decodeIn (f.env 0 false) .f16 (f.lane .f16 0 .port 0 0)).isInf = true ∧
      (decodeIn (f.env 0 false) .f16 (f.lane .f16 0 .port 0 1)).q < 0) :=
  ⟨fires_of_may (by decide +kernel), fires_of_may (by decide +kernel)⟩

theorem witness_ConversionsRoundOrSaturate :
    (∃ f, Fires destsReady (at0 (.fcvt (cm .e4m3 8) .f32)) f ∧ Ty.e4m3.isFloat = true ∧ Ty.f32.isFloat = true ∧
      (decodeIn (f.env 0 true) .f32 (f.lane .f32 0 .port 0 0)).isNum = true) ∧
    (∃ f, Fires destsReady (atD (.f2i (cm .i8 8) .f32) 0x7FC00000 0 0) f ∧ Ty.i8.isInt = true ∧ Ty.f32.isFlt = true ∧
      (decodeIn (f.env 0 false) .f32 (f.lane .f32 0 .port 0 0)).isNan = true) ∧
    (∃ f, Fires destsReady (at0 (.i2f (cm .f64 8) .i64)) f ∧ Ty.f64.isFlt = true ∧ Ty.i64.isInt = true) :=
  ⟨fires_of_may (by decide +kernel), fires_of_may (by decide +kernel), fires_of_may (by decide +kernel)⟩

theorem witness_RoutingInstructions :
    (∃ f, Fires destsReady (atD (.select (cm3 .i32 0) x0) 0 0 1) f ∧ (f.src .port 2).toNat % 2 ^ 32 ≠ 0) ∧
    (∃ f, Fires destsReady (at0 (.select (cm3 .i32 0) x0)) f ∧ (f.src .port 2).toNat % 2 ^ 32 = 0) :=
  ⟨fires_of_may (by decide +kernel), fires_of_may (by decide +kernel)⟩

theorem witness_TagInstructions :
    (∃ f, Fires destsReady (atD (.retag (cm2 .x 0) 0) 0 0xFFFFFF 0) f ∧ (n64 (f.src .port 1) 0).toNat < 2 ^ 24) ∧
    (∃ f, Fires destsReady (atD (.retag (cm2 .x 0) 0) 0 0x1000000 0) f ∧ 2 ^ 24 ≤ (n64 (f.src .port 1) 0).toNat) ∧
    (∃ f, Fires destsReady (atD (.retag (cm2 .x 0) 1) 0 0 0) f ∧ (n64 (f.src .port 1) 0).toNat < 2 ^ 12 ∧
      f.k.isLive (BitVec.ofNat 12 (n64 (f.src .port 1) 0).toNat) = true) ∧
    (∃ f, Fires destsReady (atD (.retag (cm2 .x 0) 1) 0 1 0) f ∧ f.k.isLive (BitVec.ofNat 12 (n64 (f.src .port 1) 0).toNat) = false) ∧
    (∃ f, Fires destsReady (atD (.retag (cm2 .x 0) 2) 0 0xFFFFFF 0) f ∧ (n64 (f.src .port 1) 0).toNat < 2 ^ 36 ∧
      f.k.isLive (BitVec.ofNat 12 ((n64 (f.src .port 1) 0).toNat / 2 ^ 24)) = true) :=
  ⟨fires_of_may (by decide +kernel), fires_of_may (by decide +kernel), fires_of_may (by decide +kernel), fires_of_may (by decide +kernel),
    fires_of_may (by decide +kernel)⟩

/-- A MERGE stake with a token on port a, and on port b where asked. -/
def mergeAt (b : Bool) : State :=
  let put (p : BitVec 2) : Port := { buf := [{ key := ⟨0, .stake, 1, 0, 0, p⟩, tok := { mkToken 0 0 0 0 0 0 with port := p }, misfit := false }], latches := [] }
  (at0 (.merge (cm2 .x 0))).updTile 0 (fun t => t.setActive { t.active with
    slots := t.active.slots.map (fun x => (x.1, { x.2 with isMatch := false, ready := [], pa := put 0, pb := if b then put 1 else Port.empty })) })

theorem witness_MergeAndAdmission :
    (match cursorStake (mergeAt true) with
      | some (col, k, st) => match mergeHead k st 0 0, mergeHead k st 0 1 with
        | some a, some b => a.toks.all Token.ok && b.toks.all Token.ok && destsReady (mergeAt true) (fireOf (mergeAt true) col k st a) &&
          hasTurn (mergeAt true) (fireOf (mergeAt true) col k st a)
        | _, _ => false
      | none => false) = true ∧
    (match cursorStake (mergeAt false) with
      | some (col, k, st) => match mergeHead k st 0 0 with
        | some a => (mergeHead k st 0 1).isNone && destsReady (mergeAt false) (fireOf (mergeAt false) col k st a) &&
          hasTurn (mergeAt false) (fireOf (mergeAt false) col k st a)
        | none => false
      | none => false) = true ∧
    (match cursorStake (mergeAt false) with
      | some (col, k, st) => match kgateSet k st 0 with
        | some (_, o) => o.toks.all Token.ok && decide (st.kn < 1) && decide (0 ≤ st.kn) && hasTurn (mergeAt false) (fireOf (mergeAt false) col k st o)
        | none => false
      | none => false) = true ∧
    (∃ f, Fires destsReady (at0 (.kdone (cm .x 0) 1)) f) :=
  ⟨by decide +kernel, by decide +kernel, by decide +kernel, fires_of_may' (by decide +kernel)⟩

/-- A state whose frame 0 is not a root. -/
def childAt (i : Instr) : State := (at0 i).updCol 0 (fun k => { k with frames := k.frames.map (fun x => (x.1, { x.2 with root := false, mask := 2 })) })

theorem witness_FramesBeginAndEnd :
    (∃ f, Fires framenewReady (at0 (.framenew (cm .x 0) 0xFFFF)) f ∧ (frame? (at0 (.framenew (cm .x 0) 0xFFFF)) f.colour f.frame).isSome = true ∧
      (at0 (.framenew (cm .x 0) 0xFFFF)).col? f.colour.toNat = some f.k) ∧
    (∃ f, Fires endReady (at0 (.taskend (cm .x 0))) f ∧ (frame? (at0 (.taskend (cm .x 0))) f.colour f.frame).map (·.root) = some true) ∧
    (∃ f, Fires endReady (childAt (.frameend (cm .x 0))) f ∧ (frame? (childAt (.frameend (cm .x 0))) f.colour f.frame).map (·.root) = some false) :=
  ⟨fires_of_may (by decide +kernel), fires_of_may (by decide +kernel), fires_of_may (by decide +kernel)⟩

theorem witness_Barriers :
    (∃ f, Fires (barGate 1) (childAt (.bar (cm .x 0) 1)) f ∧ (frame? (childAt (.bar (cm .x 0) 1)) f.colour f.frame).map (fun x =>
      (x.mask.getLsbD 1, x.mask.getLsbD 15, x.arrived.getLsbD 1)) = some (true, false, false)) ∧
    (∃ f, Fires destsReady (childAt (.barleave (cm .x 0) 1)) f ∧ (frame? (childAt (.barleave (cm .x 0) 1)) f.colour f.frame).isSome = true) ∧
    ((at0 (.mov (cm .x 0) x0)).col? 0).isSome = true ∧ (at0 (.mov (cm .x 0) x0)).net.all (fun x => !x.ext) = true :=
  ⟨fires_of_may (by decide +kernel), fires_of_may (by decide +kernel), by decide +kernel⟩

theorem witness_ControlInstructionsSendTheirRequest :
    (∃ f, Fires reqRoom (atD (.taskpush (cm2 .x 0) x0) 0 0xFFF 0) f ∧ (f.ctlOp .x 0 .port 1).toNat % 2 ^ 32 < 2 ^ 12) ∧
    (∃ f, Fires reqRoom (atD (.taskpush (cm2 .x 0) x0) 0 0x1000 0) f ∧ 2 ^ 12 ≤ (f.ctlOp .x 0 .port 1).toNat % 2 ^ 32) :=
  ⟨fires_of_may (by decide +kernel), fires_of_may (by decide +kernel)⟩

/-! ## Witnesses: vectors, tensor maps and the memory class -/

theorem witness_VectorLanesMoveAndCombine :
    (∃ f, Fires destsReady (at0 (.vperm (cm2 .f32 8) x0)) f ∧ Ty.f32 ≠ Ty.x) ∧
    (∃ f, Fires destsReady (at0 (.vscan (cm .bf16 8) x0)) f ∧ ∀ y ∈ (List.range 32).map (fun i => f.lane .bf16 0 .port 0 i),
      (decodeIn (f.env 0 false) .bf16 y).isNum = true) :=
  ⟨fires_of_may (by decide +kernel), fires_of_may (by decide +kernel)⟩

theorem witness_VectorPacking :
    (∃ f, Fires destsReady (at0 (.vunpk (cm2 .i32 8) .i8)) f ∧ lane (f.src .port 1) 32 0 * Ty.i32.lanes < Ty.i8.lanes) ∧
    (∃ f, Fires destsReady (atD (.vunpk (cm2 .i32 8) .i8) 0 4 0) f ∧ Ty.i8.lanes ≤ lane (f.src .port 1) 32 0 * Ty.i32.lanes) ∧
    (∃ f, Fires destsReady (at0 (.vpack (cm2 .i8 8) .i32)) f ∧ 2 * Ty.i8.width ≤ Ty.i32.width) ∧
    (∃ f, Fires destsReady (atD (.vhdr (cm2 .x 0)) 0x1000 0 0) f ∧ (vhdrOf (f.src .port 0) (f.src .port 1)).2 = true) ∧
    (∃ f, Fires destsReady (atD (.vhdr (cm2 .x 0)) 0x1000 (1 <<< 440) 0) f ∧ (vhdrOf (f.src .port 0) (f.src .port 1)).2 = false) ∧
    (∃ f, Fires destsReady (at0 (.rng (cm .n32 8) 255)) f ∧ fld (f.src .port 0) 24 8 = 0) ∧
    (∃ f, Fires destsReady (atD (.rng (cm .n32 8) 0) 0x1000000 0 0) f ∧ fld (f.src .port 0) 24 8 ≠ 0) :=
  ⟨fires_of_may (by decide +kernel), fires_of_may (by decide +kernel), fires_of_may (by decide +kernel), fires_of_may (by decide +kernel),
    fires_of_may (by decide +kernel), fires_of_may (by decide +kernel), fires_of_may (by decide +kernel)⟩

theorem witness_HeaderConsumers :
    (∃ f, Fires destsReady (atD (.vdeq (cm .f32 8) .e4m3) 0 0 0 4) f ∧ f.badA = false ∧ f.ops.ta = some f.first) ∧
    (∃ f, Fires destsReady (atD (.vdeq (cm .f32 8) .e4m3) 0 0 0 7) f ∧ f.badA = true) ∧
    (∃ f, Fires destsReady (atD (.fmtcast (cm .f32 8) .e4m3) 0 0 0 4) f ∧ f.badA = false ∧ f.first.fmt = Ty.e4m3.fmt ∧ f.latchA = none ∧
      f.st.ebuf = [] ∧ Ty.f32.lanes ≤ Ty.e4m3.lanes ∧ f.ops.ta = some f.first) ∧
    (∃ f, Fires destsReady (atD (.fmtcast (cm .e4m3 8) .f32) 0 0 0 1) f ∧ f.badA = false ∧ f.first.fmt = Ty.f32.fmt ∧ f.latchA = none ∧
      f.st.ebuf = [] ∧ Ty.f32.lanes < Ty.e4m3.lanes ∧ f.ops.ta = some f.first) :=
  ⟨fires_of_may (by decide +kernel), fires_of_may (by decide +kernel), fires_of_may (by decide +kernel), fires_of_may (by decide +kernel)⟩

/-- A stake with one token on port a and no operand set: a FIFO stake. -/
def fifoAt (i : Instr) (da : W512) (fmt : BitVec 3) : State :=
  let put (d : W512) (p : BitVec 2) : Port :=
    { buf := [{ key := ⟨0, .stake, 1, 0, 0, p⟩, tok := { mkToken d fmt 0 0 0 0 with port := p }, misfit := false }], latches := [] }
  (at0 i).updTile 0 (fun t => t.setActive { t.active with
    slots := t.active.slots.map (fun x => (x.1, { x.2 with isMatch := false, ready := [], pa := put da 0 })) })

/-- A FIFO stake's head on port a may fire, with a property of the stake. -/
def headMay (s : State) (p : StakeSt → Fire → Bool) : Bool :=
  match cursorStake s with
  | some (col, k, st) => match fireHead k st s.cur.place 0 with
    | some i =>
      let f : Fire := { tile := s.cur.place, st := st, k := k, ops := OpSet.empty.put 0 i.tok, colour := col, frame := i.tok.frame,
                        wave := i.tok.wave }
      st.out.isEmpty && (fireHead k st s.cur.place 3).isNone && i.tok.ok && destsReady s f && hasTurn s f && p st f
    | none => false
  | none => false

theorem witness_Vquant :
    headMay (fifoAt (.vquant (cm .e4m3 0) .f32) 0 1) (fun st _ => decide (st.ebuf.length + 16 < Ty.e4m3.lanes)) = true ∧
    headMay (fifoAt (.vquant (cm .e4m3 0) .bf16) 0 2) (fun st f => decide (st.ebuf.length + 32 < Ty.e4m3.lanes) &&
      !quantBad (cm .e4m3 0) (f.src .zero 1)) = true ∧
    headMay (fifoAt (.vquant (cm .e4m3 0) .e4m3) 0 4) (fun st f => decide (Ty.e4m3.lanes ≤ st.ebuf.length + 64) &&
      !quantBad (cm .e4m3 0) (f.src .zero 1)) = true ∧
    headMay (fifoAt (.vquant { cm .e4m3 0 with sb := .l2 } .e4m3) 0 4) (fun _ _ => quantBad (cm .e4m3 0) 4) = true :=
  by decide +kernel

theorem witness_TensorMaps :
    (∃ f, Fires destsReady (at0 (.tmset (cm .x 0) 15)) f ∧ (at0 (.tmset (cm .x 0) 15)).col? f.colour.toNat = some f.k ∧
      tmsetBad (f.src .port 0) = true) ∧
    (∃ f, Fires destsReady (atD (.tmset (cm .x 0) 15) (0x2000000000000000 ||| 1 <<< 212) 0 0) f ∧ tmsetBad (f.src .port 0) = false) ∧
    (∃ f, Fires destsReady (at0 (.tmnar (cm .x 0) 0)) f ∧ mapGet f.k.tms 0 0 = 0) :=
  ⟨fires_of_may (by decide +kernel), fires_of_may (by decide +kernel), fires_of_may (by decide +kernel)⟩

/-- TMN 0. -/
def tx0 : TmemX := { pred := 0, own := 1, succ := 0, fc := 0, tmLow := 0, ord := 0 }

/-- Map 0 is a packed one, and the start coordinate odd. -/
def oddMap (i : Instr) : State :=
  (atD i 1 0 0).updCol 0 (fun k => { k with tms := [(0, (1 <<< 61) ||| (BitVec.ofNat 512 Ty.e2m1.code.toNat <<< 57))] })

/-- An FWAIT whose ticket is live, its wait of R175 at a stage. -/
def tick0 (sy : BitVec 2) : State :=
  (at0 (.fwait (cm .x 0))).updClu 0 (fun c => { c with tickets := [{ tser := 0, colour := 0, frame := 0, covered := [], sy := sy, epoch := false }] })

/-- The FWAIT at the cursor may fire but for its ticket, which has a property. -/
def ticketIs (s : State) (p : State → Frame → Ticket → Bool) : Bool :=
  match pick s with
  | some f => match frame? s f.colour f.frame, ticketOf s f with
    | some x, some t => f.ops.toks.all Token.ok && destsReady s f && p s x t
    | _, _ => false
  | none => false

theorem witness_MemoryClassSendsItsRequests :
    (∃ f, Fires reqRoom (at0 (.ld (cm2 .f32 0) m6)) f) ∧
    (∃ f, Fires reqRoom (atD (.qfence (cm .x 0) m6) 0xFFFF 0 0) f ∧ 1 ≤ fld (f.src .port 0) 0 32 ∧ fld (f.src .port 0) 0 32 < 2 ^ 16) ∧
    (∃ f, Fires reqRoom (atD (.qfence (cm .x 0) m6) 0x10000 0 0) f ∧ 2 ^ 16 ≤ fld (f.src .port 0) 0 32) ∧
    (∃ f, Fires reqRoom (at0 (.ldt (cm .x 0) m6)) f ∧ ldtFault (f.src .port 0) ≠ 0) ∧
    (∃ f, Fires reqRoom (atD (.ldt (cm .x 0) m6) (1 <<< 80) 0 0) f ∧ ldtFault (f.src .port 0) = 0) ∧
    (∃ f, Fires reqRoom (at0 (.tmld (cm .x 0) tx0)) f ∧ tmOdd (f.tm 0) (f.src .port 0) = false ∧
      tmCheck (f.tm 0) (f.src .port 0) false = some 0) ∧
    (∃ f, Fires reqRoom (oddMap (.tmst (cm3 .x 0) tx0)) f ∧ tmOdd (f.tm 0) (f.src .port 0) = true) ∧
    (∃ f, Fires reqRoom (at0 (.tmst (cm3 .x 0) tx0)) f ∧ (tmstBad (cm3 .x 0) f || tmOdd (f.tm 0) (f.src .port 0)) = false) ∧
    (ticketIs (tick0 3) (fun s x t => ticketMet s x t) && ticketIs (tick0 1) (fun s x t => !ticketMet s x t) &&
      (match pick (at0 (.fwait (cm .x 0))) with
        | some f => f.ops.toks.all Token.ok && (frame? (at0 (.fwait (cm .x 0))) f.colour f.frame).isSome &&
          (ticketOf (at0 (.fwait (cm .x 0))) f).isNone
        | none => false)) = true :=
  ⟨fires_of_may' (by decide +kernel), fires_of_may (by decide +kernel), fires_of_may (by decide +kernel), fires_of_may (by decide +kernel),
    fires_of_may (by decide +kernel), fires_of_may (by decide +kernel), fires_of_may (by decide +kernel), fires_of_may (by decide +kernel),
    by decide +kernel⟩

/-! ## Witnesses: the matrix and system classes -/

/-- Bank 0, with a second type. -/
def mx (t : Ty) : MatX := { bank := 0, bty := t }

/-- Frame 0 of colour 0 owns bank 0 of tile 0. -/
def owned (s : State) : State := s.updTile 0 (fun t => t.setAcc 0 { t.acc 0 with qowner := some (0, 0) })

theorem witness_Matrix :
    (∃ f, Fires (fun s f => cmdRoom s f && bankOpen 0 s f) (at0 (.mldacc (cm .f32 0) (mx .f32))) f ∧ desc0 (f.src .port 0) 13 18 = 0 ∧
      desc0 (f.src .port 0) 0 13 + 256 ≤ 8192) ∧
    (∃ f, Fires (fun s f => cmdRoom s f && bankOpen 0 s f) (atD (.mldacc (cm .f32 0) (mx .f32)) 0x1F01 0 0) f ∧
      8192 < desc0 (f.src .port 0) 0 13 + 256) ∧
    (∃ f, Fires mmaGate (owned (at0 (.mma (cm2 .bf16 4) (mx .bf16)))) f ∧
      (opTagBad (cm2 .bf16 4) .bf16 (f.fmtOf .bf16 .port 0) none || opBad .bf16 (f.src .port 0) none) = true) ∧
    (∃ f, Fires mmaGate (owned (atD (.mma (cm2 .bf16 4) (mx .bf16)) 0 0 0 2 2)) f ∧
      (opTagBad (cm2 .bf16 4) .bf16 (f.fmtOf .bf16 .port 0) (latchHdr f.st 0 f.colour f.frame) ||
        opTagBad (cm2 .bf16 4) .bf16 (f.fmtOf .bf16 .port 1) (latchHdr f.st 1 f.colour f.frame) ||
        opBad .bf16 (f.src .port 0) (latchHdr f.st 0 f.colour f.frame) || opBad .bf16 (f.src .port 1) (latchHdr f.st 1 f.colour f.frame)) = false ∧
      ownsBank 0 (owned State.reset) f = true ∧ queuedInt 0 (owned State.reset) f = Ty.bf16.isInt) ∧
    (∃ f, Fires cmdRoom (owned (at0 (.msnap (cm .f32 0) (mx .f32)))) f ∧ ownsBank 0 (owned State.reset) f = true ∧
      desc0 (f.src .port 0) 0 32 = 0 ∧ queuedInt 0 (owned State.reset) f = Ty.f32.isInt) ∧
    (∃ f, Fires cmdRoom (owned (at0 (.mdrain (cm .f32 0) (mx .f32)))) f ∧ drainBad .f32 (f.src .port 0) false = false) ∧
    (∃ f, Fires cmdRoom (at0 (.mdrain (cm .f32 0) (mx .f32))) f ∧ ownsBank 0 State.reset f = false) :=
  ⟨fires_of_may (by decide +kernel), fires_of_may (by decide +kernel), fires_of_may (by decide +kernel), fires_of_may (by decide +kernel),
    fires_of_may (by decide +kernel), fires_of_may (by decide +kernel), fires_of_may (by decide +kernel)⟩

theorem witness_ControlRegisters :
    (∃ f, Fires destsReady (atD (.wrctl (cm .x 0) 0) 0x7FF 0 0) f ∧ (atD (.wrctl (cm .x 0) 0) 0x7FF 0 0).col? f.colour.toNat = some f.k) ∧
    fpctlOk 0x100 = true ∧ fpctlOk 0x800 = false ∧ spillbaseOk 24 = true ∧ spillbaseOk 25 = false ∧ spillbaseOk 7 = false ∧
    msquotaOk 4096 = true ∧ msquotaOk 0 = false ∧ msquotaOk 4097 = false ∧ trapvecOk Part.reset 0 = true ∧
    trapvecOk Part.reset 0x7000 = false ∧ trapvecOk Part.reset 0x200000000000000 = false :=
  ⟨fires_of_may (by decide +kernel), by decide +kernel⟩

theorem witness_SystemClass :
    (∃ f, Fires destsReady (at0 (.trap (cm .x 0) 0xFFFF)) f ∧ (at0 (.trap (cm .x 0) 0xFFFF)).col? f.colour.toNat = some f.k ∧
      (frame? (at0 (.trap (cm .x 0) 0xFFFF)) f.colour f.frame).map (fun x => (x.phase, x.recs.isEmpty)) = some (.live, true)) ∧
    (∃ f, Fires eventGate (at0 (.event (cm .x 0) 0xFFFF)) f ∧ ((at0 (.event (cm .x 0) 0xFFFF)).vf f.k.vf).pause = false) ∧
    (∃ f, Fires destsReady (at0 (.hint (cm .x 0) 3)) f) :=
  ⟨fires_of_may (by decide +kernel), fires_of_may (by decide +kernel), fires_of_may' (by decide +kernel)⟩

/-! ## Witnesses: bring-up, registers and functions -/

/-- The package after bring-up: every unit is ready, partition 0 has cluster 0 and 16 colours, and VF 0 is enabled in it. -/
def up : State :=
  { State.reset with
    pf := { Pf.reset with released := true, ready := true, clu := BitVec.allOnes 64, stk := 0xFFF, die := 15, wkp := 1, mgmt := true, spdm := true }
    parts := [(0, { Part.reset with clu := 1, en := true, tlog := 4 })]
    vfs := [(0, { Vf.reset with en := true, enabled := true, artm := 1, holds := true })] }

/-- VF 0 with a change. -/
def upVf (g : Vf → Vf) : State := up.updVf 0 g

/-- Partition 0 with a change. -/
def upPart (g : Part → Part) : State := up.updPart 0 g

/-- A firmware image under key 3. -/
def image3 : FwSlot := { full := true, image := 0, ver := 0, sec := 0, key := 3 }

theorem witness_ResetReleasesAndUnitsReport :
    State.reset.pf.released = false ∧ bootSlot State.reset.mgmt = none ∧
    (fwSigned image3 = true →
      bootSlot { Mgmt.reset with slotB := image3 } = some true ∧
      bootSlot { Mgmt.reset with slotA := image3 } = some false) ∧
    (3, 11) ∉ State.reset.pf.unitFailed ∧ State.reset.pf.stk.getLsbD 11 = false ∧ (4, 35) ∉ up.pf.unitFailed ∧ up.pf.released = true :=
  ⟨by decide +kernel, by decide +kernel, fun h => by simp [bootSlot, fwPasses, Mgmt.slot, Mgmt.reset, FwSlot.empty, h, show image3.full = true from rfl, show image3.sec = 0 from rfl],
    by decide +kernel, by decide +kernel, by decide +kernel, by decide +kernel⟩

/-- A row activated `n` times, the last time at clk 0. -/
def rowAt (n clk : Nat) : State :=
  { up.updDie 0 (fun x => { x with rows := [(0x2000, (n, 0))], th := 5, dly := 100 }) with clk := clk }

theorem witness_PowerHeatAndManagement :
    (600 ≤ ((0x0001_0000_0258 : W64).extractLsb' 0 16).toNat ∧ ((0x03E8_0000_0A28 : W64).extractLsb' 0 16).toNat ≤ 2600 ∧
      ((0x0001_0000_0258 : W64).extractLsb' 32 16).toNat = 1 ∧ ((0x03E8_0000_0A28 : W64).extractLsb' 32 16).toNat = 1000) ∧
    (Pf.reset.cap.toNat < (2601 : W64).toNat ∧ (2599 : W64).toNat < Pf.reset.cap.toNat ∧
      Pf.reset.avgw.toNat < Pf.reset.cap.toNat ∧ Pf.reset.temp.toNat < 90 ∧ (89 : W64).toNat < 90 ∧ 0 < Pf.reset.pwin.toNat ∧
      Pf.reset.dutyAt + 1500000 * Pf.reset.pwin.toNat ≤ 15000000) ∧
    (issueOpen { up with pf := { up.pf with duty := 7 } } = true ∧ issueOpen { up with pf := { up.pf with duty := 7 }, clk := 15 } = false) ∧
    up.pf.mgmt = true ∧ up.pf.spdm = true ∧ ({ up.mgmt with identity := some 5 } : Mgmt).identity = some 5 ∧ (1 : W64) ≠ 0 :=
  by decide +kernel

theorem witness_ScrubbingAndRowThrottling :
    Memory.wf State.reset.mem = true ∧ State.reset.scrubbed = [] ∧ up.pf.stk.getLsbD (294912 / 2 ^ 15) = true ∧ 294912 / 98304 = 3 ∧
    (mapGet ((rowAt 5 0).die 0).rows 0x2000 (0, 0)).1 ≤ ((rowAt 5 0).die 0).th.toNat ∧
    (((rowAt 6 149).die 0).th.toNat < (mapGet ((rowAt 6 149).die 0).rows 0x2000 (0, 0)).1 ∧ 2 * (rowAt 6 149).clk < 2 * 0 + 3 * ((rowAt 6 149).die 0).dly.toNat) ∧
    (2 * 0 + 3 * ((rowAt 6 150).die 0).dly.toNat ≤ 2 * (rowAt 6 150).clk ∧ partOfDram (rowAt 6 150) 0x2000 = some 0) ∧
    ((rowAt 6 48000000).die 0).window + 48000000 ≤ (rowAt 6 48000000).clk :=
  by decide +kernel

/-- The value of an ARTnCTL that names stack 0 and granules of 2^8 bytes. -/
def artCtl (g : Nat) : W64 := 0x8000100000000000 ||| BitVec.ofNat 64 g

/-- ART1 with the range of one MiB that ends at the top of HBM4 and channel 0. -/
def art1 : State := up.updPf (fun p => { p with arts := p.arts.set 1 { Art.reset 1 with base := 0, lim := 0xFFF, chm := 1 } })

theorem witness_PartitionRegistersAndShares :
    ((artCtl 8).getLsbD 63 = true ∧ (artOf art1 1).en = false ∧ lockedVfs art1 (frozenArt 1) = [] ∧
      artOk art1 ((artOf art1 1).withCtl (artCtl 8)) = true ∧ artOk art1 ((artOf art1 1).withCtl (artCtl 7)) = false ∧
      artOk art1 ((artOf art1 1).withCtl (artCtl 31)) = false) ∧
    (lockedVfs up (frozenPart 63) = [] ∧ (0 : BitVec 32) &&& ~~~0 = 0 ∧ (3 : BitVec 32) &&& waysTaken up 63 3 = 0 ∧
      (1 : BitVec 32) &&& ~~~2 ≠ 0) ∧
    ((up.part 1).en = false ∧ partOk (up.updPart 1 (fun p => { p with clu := 2 })) 1 (Part.withCtl { up.part 1 with clu := 2 } 0x8000000000100004) = true ∧
      partOk up 1 (Part.reset.withCtl 0x8000000000000003) = false) ∧
    ((up.part 0).en = true ∧ (up.part 0).withCtl 4 = up.part 0 ∧ isVacant { up with vfs := [] } 0 = true) :=
  by decide +kernel

/-- Die 0 drains way 0, at a set. -/
def draining (n : Nat) : State := up.updDie 0 (fun x => { x with drain := 1, swept := n })

theorem witness_SliceShrink : ((draining 16383).die 0).drain ≠ 0 ∧ ((draining 16383).die 0).swept < 16384 ∧
    (∀ l ∈ ((draining 16383).die 0).slice, locked (draining 16383) l.line = false) ∧ 16384 ≤ ((draining 16384).die 0).swept :=
  by decide +kernel

/-- VF 0 is not enabled. -/
def down : State := upVf (fun f => { f with en := false, enabled := false, artm := 0 })

/-- VF 0 is paused, and VF 1 holds the partition. -/
def twoVfs : State := (upVf (fun f => { f with pause := true, holds := false })).updVf 1 (fun f => { f with holds := true })

theorem witness_VirtualFunctionsAndTheirInterfaces :
    (lockedVfs up (frozenVf 1023) = [] ∧ (down.vf 0).en = false ∧ vfOk down ((down.vf 0).withCfg 0x8000000000010000) = true ∧
      vfOk down ((down.vf 0).withCfg 0x8000000000020001) = false) ∧
    ((up.vf 0).en = true ∧ (up.vf 0).withCfg 0x10000 = up.vf 0 ∧ (up.vf 0).pause = false ∧ colsOf up 0 = []) ∧
    ((twoVfs.vf 0).pause = true ∧ holdsPart twoVfs 0 = false ∧ (twoVfs.vf 0).withCfg 0x10000 = twoVfs.vf 0) :=
  by decide +kernel

/-- VF 0 is locked. -/
def lockedUp : State := upVf (fun f => { f with tdi := .configLocked })

theorem witness_RegisterWrites :
    lockedVfs lockedUp (frozenPart 0) = [0] ∧ lockedVfs lockedUp (frozenArt 0) = [0] ∧ lockedVfs lockedUp (frozenPart 1) = [] ∧
    (lockedUp.part 0).en = true ∧ (up.vf 1023).tdi ≠ .error ∧ (up.vf 1023).en = false ∧ (up.vf 0).en = true ∧ (up.part 63).en = false :=
  by decide +kernel

/-! ## Witnesses: quench, queues and traps -/

/-- Put 64-bit words into HBM4. -/
def poke (s : State) (ws : List (Nat × Nat)) : State :=
  ws.foldl (fun s w => (List.range 8).foldl (fun (s : State) (k : Nat) => hbmPut s (w.1 + k) (BitVec.ofNat 8 (w.2 / 256 ^ k))) s) s

/-- The tables of VF 0 map its first GiB to the first GiB of HBM4, at HOME 0, SHARED, with every permission. -/
def mapped : State :=
  poke (upVf (fun f => { f with ptroot := 0x1000000 })) [(0x1000000, 0x1001001), (0x1001000, 0x1002001), (0x1002000, 0x81F)]

/-- A colour of VF 0 whose one stake may fire, with mapped memory. -/
def run : State := probeStake mapped (enc (.mov (cm .x 0) x0))

/-- A change to frame 0 of colour 0. -/
def runF (g : Frame → Frame) : State := updFrame run 0 0 g

/-- A change to colour 0. -/
def runC (g : Colour → Colour) : State := run.updCol 0 g

/-- Colour 0 of a state. -/
def colp (s : State) (p : Colour → Bool) : Bool := (s.col? 0).any p

/-- Frame 0 of colour 0 of a state. -/
def frp (s : State) (p : Frame → Bool) : Bool := (frame? s 0 0).any p

/-- A device access is done. -/
def devOk (r : DevRes) : Bool :=
  match r with
  | .ok _ _ => true
  | _ => false

/-- The bytes that a device access has read. -/
def devBytes (r : DevRes) : List Byte :=
  match r with
  | .ok bs _ => bs
  | _ => []

/-- A device access is done, and the state after it has a property. -/
def devThen (r : DevRes) (p : State → Bool) : Bool :=
  match r with
  | .ok _ s => p s
  | _ => false

theorem mapped_reads : devBytes (devRead mapped 0 0x1002000 8) = [0x1F, 8, 0, 0, 0, 0, 0, 0] := by decide +kernel

/-- An instance of colour 0 has the course RUN under an accepted quench. -/
def quenching (at_ : Nat) : State :=
  { (runC (fun k => { k with want := none })).updPart 0 (fun p => { p with
      state := .accepted, qndl := 100000, courses := [{ colour := 0, course := .run, fallback := .ckpt, vacated := false }] }) with clk := at_ }

/-- Colour 0 has the course RUN, and its fallback is due or not. -/
def runsTo (s : State) (b : Bool) : Bool :=
  (courseOf (s.part 0) 0).any (fun q => q.course == .run && !q.vacated && fallbackDue s (s.part 0) q == b) && colp s (fun k => !preempted k)

/-- A partition under an accepted quench, with nothing bound. -/
def emptied : State := up.updPart 0 (fun p => { p with state := .accepted })

theorem witness_Quench :
    ((quenching 0).part 0).state = .accepted ∧ ((quenching 0).part 0).qndl.toNat ≤ (100000 : W64).toNat ∧
    (59999 : W64).toNat < up.time.toNat + 60000 ∧ (up.time.toNat + 60000 ≤ (60000 : W64).toNat ∧ runningCols up 0 = [] ∧
      (evalQueues up (up.part 0) ((60000 - 0) * perNs (up.part 0)) [] [] 0).isSome = true) ∧
    runsTo (quenching 0) false = true ∧ runsTo (quenching 150000) true = true ∧
    (emptied.part 0).state = .accepted ∧ emptied.cols = [] ∧ emptied.pf.q.evbuf.length < 64 ∧ emptied.pf.q.pend = [] ∧
    (∀ q ∈ queuesIn up (up.part 0) [], allowed (up.part 0) q.1 2 = true) ∧
    (∀ c ∈ (emptied.part 0).clusters, (emptied.clu c).l1 = []) ∧ emptied.dies = [] :=
  by decide +kernel

/-- A function with rings of 64 entries, its submission ring holding one command. -/
def rings (vf : Nat) : State :=
  updQueues up vf (fun q => { q with sqbase := 0x2000006, sqtail := 1, eqbase := 0x2010006, ien := true, msixDue := true, evbuf := [Event.zero] })

theorem witness_Queues :
    (barOpen up 1024 1024 = true ∧ (queuesOf up 1024).sqhead = (queuesOf up 1024).sqtail ∧ jobInFlight up 1024 = false) ∧
    (barOpen up 0 0 = true ∧ barNum 1024 = 1024 ∧ (queuesOf up 0).eqtail = (queuesOf up 0).eqhead ∧ jobInFlight up 0 = false) ∧
    (queuesOf (rings 0) 0).sqhead ≠ (queuesOf (rings 0) 0).sqtail ∧ ((rings 0).vf 0).runs = true ∧
    ((64 - (queuesOf (rings 0) 0).sqhead).toNat ≤ ringSize (queuesOf (rings 0) 0).sqbase ∧
      ringSize (queuesOf (rings 0) 0).sqbase < (65 - (queuesOf (rings 0) 0).sqhead).toNat ∧ canRaise (rings 0) 0 = true) ∧
    (eventRoom (queuesOf (rings 1024) 1024) = true ∧ devOk (ringWrite (rings 1024) 1024 0x2010000 (Event.zero.bytes true)) = true ∧
      Event.zero.acks = [] ∧ Event.zero.emit = none ∧ Event.zero.clear = [] ∧ (queuesOf (rings 1024) 1024).evFault = none) ∧
    (match ringWrite (rings 0) 0 0x2010000 (Event.zero.bytes true) with
      | .fault _ _ _ u => decide ((queuesOf (rings 0) 0).evFault = none ∧ (queuesOf u 0).evFault = none)
      | _ => false) = true ∧
    ((rings 0).vf 0).gen = Event.zero.gen ∧ ((rings 0).vf 0).tdi ≠ .error ∧ mapGet? (queuesOf (rings 0) 0).msixLast 0 = none :=
  by decide +kernel

/-- VF 0 has an invalidation in progress. -/
def invalidating : State := upVf (fun f => { f with inval := some (0x1000, 2 ^ 12) })

theorem witness_Translations_Inval :
    (up.vf 0).inval = none ∧ ((0x1300 : W64).extractLsb' 6 6).toNat = 12 ∧ (0x1300 : W64).toNat / 4096 * 4096 % 2 ^ 12 = 0 ∧
    ((0x0E40 : W64).extractLsb' 6 6).toNat = 57 ∧ (0x0E40 : W64).toNat / 4096 * 4096 % 2 ^ 57 = 0 ∧
    barOpen (upVf (fun f => { f with tdi := .error })) 0 0 = false ∧ (invalidating.vf 0).inval = some (0x1000, 2 ^ 12) ∧ invalDone invalidating 0 0x1000 (2 ^ 12) = true :=
  by decide +kernel

/-- A frame on its way to a trap, in slot 0. -/
def trapping (ph : FramePhase) (await : List Nat) : State := runF (fun x => { x with phase := ph, slot := some 0, awaitTiles := await, cause := 9 })

/-- STATE of slot 0 is HOST. -/
def inHost : State := poke (trapping .stopped []) [(0, 1)]

/-- Colour 0 takes its own traps, by a queue of 64 records. -/
def handled : State := poke ((trapping .raised []).updCol 0 (fun k => { k with trapvec := 0x8000 })) [(0xE0, 0x3000000), (0xE8, 0x3001000), (0xF0, 6)]

/-- The trap of frame 0 goes to the handler, whose queue takes it. -/
def toHandler (s : State) : Bool :=
  colp s (fun k => frp s (fun x => match handlerOf s k x with
    | some h => match pushRecord s h.part ((s.part h.part).idx k.hcol) (trapRecord s k h 0 x 0) with
      | .ok u => devOk (writeState u k 0 2)
      | _ => false
    | none => false))

theorem witness_Traps :
    toHandler handled = true ∧ colp inHost (fun k => devOk (writeState inHost k 0 3) && devOk (readRecords inHost k 0 []).1) = true ∧
    (frp (trapping .stopping [0]) (fun x => x.awaitTiles.contains 0) = true ∧ colp (trapping .stopping [0]) (fun k =>
      (stakesOn (trapping .stopping [0]) 0 0).all (fun st => !firingOpen (trapping .stopping [0]) k 0 0 st)) = true) ∧
    (frp (trapping .stopping []) (fun x => colp (trapping .stopping []) (fun k =>
      devOk (devWrite (trapping .stopping []) 0 (slotVa k 0 + 1) (slotHeader k 0 x 0 0) true))) = true ∧ reqsOf (trapping .stopping []) 0 0 = []) ∧
    (frp (trapping .raised []) (fun x => colp (trapping .raised []) (fun k => (handlerOf (trapping .raised []) k x).isNone &&
      devOk (writeState (trapping .raised []) k 0 1))) = true ∧ canRaise (trapping .raised []) 0 = true) ∧
    (colp run (fun k => match findSlot run k k.slots 0 with | .found 0 _ => true | _ => false) = true) ∧
    (canRaise up 0 = true ∧ (up.part 0).block ≤ 16 ∧ (mapped.col? 0) = none) ∧
    (devBytes (devRead inHost 0 0 1 true) = [1] ∧ colp inHost (fun k => (frameInSlot k 0).isSome && decide (0 < k.slots) && k.vf == 0) = true) :=
  by decide +kernel

/-! ## Witnesses: requests -/

/-- A leaf entry of a HOME, SHARED with every permission, that maps its page to itself. -/
def pteH (home : Nat) : W64 := BitVec.ofNat 64 (0x81F + 32 * home)

/-- A request of an instruction for the granule at VA 0x4000. -/
def rq (i : Instr) (need : Need) (home : Nat) (ph : ReqPhase) : Request :=
  { word := enc i, lstake := 0, colour := 0, frame := 0, wave := 0, pred := seqNone, own := 1, succ := seqNone, ctl := false, opa := 0x4000,
    opb := 0, opc := 0, fa := 0, tm := 0, ptile := 0, home := 0, cause := 0, reason := 0, faddr := 0,
    pages := [{ va := 0x4000, need := need, res := .ok 0x4000 (pteH home) }], phase := ph, order := 0, done := 0, data := 0, supply := false,
    sy := 3, epoch := false, tags := [], out := [], waiting := false, resv := false, acc := 0, lineRd := false, snap := [], ring := none, again := false, acks := [] }

/-- A state with requests. -/
def withR (s : State) (rs : List Request) : State := { s with reqs := rs.zipIdx.map (fun r => (7 + r.2, r.1)), nextReq := 100 }

/-- An LD of F32. -/
def ldI : Instr := .ld (cm .f32 0) { m6 with sz := 2 }

/-- An ST of F32. -/
def stI : Instr := .st (cm2 .f32 0) { m6 with sz := 2 }

theorem witness_RequestsArriveAndLink :
    ((chanReq (withR run [rq ldI .load 3 .chan]) 0 0).any (fun r => r.2.translated) = true ∧ frp run (fun x => x.phase == .live) = true ∧
      generalFree (withR run [rq ldI .load 3 .chan]) 0 = true ∧ portTaken (withR run [rq ldI .load 3 .chan]) 0 < 4 ∧
      4 ≤ portTaken (run.updClu 0 (fun c => { c with portUse := 4, portClk := run.clk })) 0 ∧ behind (newFrame 0 0 0 0 0 0 true false 0) 0 1 = false ∧
      behind (newFrame 0 0 0 0 0 0 true false 0) 0x800000 1 = true ∧ behind (newFrame 0 0 0 0 0 0 true false 0) 0x7FFFFF 1 = false) ∧
    (colp run (fun k => frp run (fun x => mayLink (withR run [rq ldI .load 3 .held]) k 0 x &&
        linkTurn (withR run [rq ldI .load 3 .held]) 0 x)) = true ∧
      linkable (newFrame 0 0 0 0 0 0 true false 0) (rq stI .store 3 .held) = true ∧
      linkFault (withR run [rq stI .store 3 .held]) (rq stI .store 3 .held) = none ∧
      badLink { newFrame 0 0 0 0 0 0 true false 0 with last := some 1, nxt := some 2 } { rq stI .store 3 .held with pred := 1, own := 3 } = true ∧
      badLink { newFrame 0 0 0 0 0 0 true false 0 with last := some 1, nxt := some 2 } { rq stI .store 3 .held with pred := 1, own := 2 } = false ∧
      linkFault run { rq stI .store 3 .held with opa := 0x4001 } = some (cALIGN, 0, 0x4001) ∧
      (heldOf (withR run [rq stI .store 3 .held, { rq stI .store 3 .held with own := 2 }]) 0 0).length = 2) :=
  by decide +kernel

/-- Cluster 0 has a fence that waits for a slot. -/
def fenceWaits : State := (withR run [{ rq ldI .load 3 .issued with pages := [] }]).updClu 0 (fun c => { c with fenceWait := [7] })

/-- A request waits for the acknowledgements of its colour. -/
def syWaits (sy : BitVec 2) (out : BitVec 16) : State :=
  (withR run [{ rq stI .store 3 .issued with sy := sy }]).updCol 0 (fun k => { k with out0 := out, out1 := out })

theorem witness_FencesAndReleases :
    ((fenceWaits.clu 0).fenceWait = [7] ∧ (fenceWaits.clu 0).tickets.length < 128 ∧ (fenceWaits.req? 7).any (fun r => r.home == 0) = true) ∧
    ((7 : W64).getLsbD 63 = false ∧ ((syWaits 1 0).req? 7).any (fun r => r.sy == 1 && r.phase == .issued) = true ∧
      colp (syWaits 1 0) (fun k => k.out1 == 0 && k.out0 == 0) = true ∧ colp (syWaits 2 1) (fun k => k.out1 != 0 && k.out0 != 0) = true) :=
  by decide +kernel

/-- The bytes that a packet read gives. -/
def packBytes (r : PackRes) : Option (List RdByte × State) :=
  match r with
  | .ok bs s => some (bs, s)
  | _ => none

/-- Request 7 passes its gate, with a property of it and its colour. -/
def gated (s : State) (p : Colour → Request → Bool) : Bool :=
  (s.req? 7).any (fun r => (s.col? r.colour.toNat).any (fun k => accessGate s r && r.phase == .issued && p k r))

/-- A load and its delivery are done. -/
def loads (s : State) (pa n : Nat) (pte : W64) (k : Colour) (r : Request) : Bool :=
  match packBytes (packRead s k r.home 0x4000 pa n pte) with
  | some (bs, u) => (deliverBytes u k r.common.ty pte pa bs).isSome
  | none => false

/-- A store that must wait for an earlier one. -/
def blockedStore : State := withR run [{ rq stI .store 3 .issued with order := 1 }, rq stI .store 3 .issued]

theorem witness_LoadsAndStores :
    gated (withR run [rq ldI .load 3 .issued]) (fun k r => loads (withR run [rq ldI .load 3 .issued]) 0x4000 4 (pteH 3) k r && r.opcode == 0x70 &&
      !isRemote 0x4000 && decide (pagePa r.pages 0x4000 = some (0x4000, pteH 3))) = true ∧
    gated (withR run [rq stI .store 3 .issued]) (fun k r => r.opcode == 0x71 &&
      (packBytes (packWrite (withR run [rq stI .store 3 .issued]) k 0 0x4000 0x4000 (wrAll (natBytes 4 0)) (pteH 3))).isSome) = true ∧
    (blockedStore.req? 7).any (fun r => !accessGate blockedStore r) = true :=
  by decide +kernel

/-- Line 0x80 of memory is in the L1D of cluster 0, in M. -/
def lineInM : State := (withR run [rq stI .store 0 .issued]).updClu 0 (fun c => { c with l1 := [{ line := 0x80, st := .m, data := 0, bad := 0, priv := false, pin := none }] })

/-- A request for byte 0 of line 0 of the scratch of logical tile 0. -/
def rqS (i : Instr) (need : Need) : Request :=
  { rq i need 1 .issued with opa := 0x4000, pages := [{ va := 0x4000, need := need, res := .ok 0xF000000000000 (pteH 1) }] }

/-- The two full/empty accesses. -/
def ldfI : Instr := .ldf (cm .f32 0) { m6 with sz := 2 }
def steI : Instr := .ste (cm2 .f32 0) { m6 with sz := 2 }

/-- Line 0 of the scratch is full. -/
def fullLine (s : State) : State := s.updTile 0 (fun t => { t with full := [0] })

theorem witness_StoresChangeTheirBytesAlone :
    gated lineInM (fun k r => r.opcode == 0x71 && decide (effHome (pteH 0) 0x4000 ≠ 3) && isHbm 0x4000 && hbmUsable lineInM 0x4000 &&
      (l1Find lineInM r.home 0x80).any (fun l => l.st != .s && l.bad == 0) && !locked lineInM 0x80 && decide (anchorOf k 0 = some 0) &&
      ((resultDests r.common).all (fun d => !chanExt lineInM (destKey r.colour .unit r.lstake d.1 d.2)))) = true ∧
    (lineInM.clus.map Prod.fst).Pairwise (· < ·) ∧
    gated (withR run [rqS stI .store]) (fun k r => isScratch 0xF000000000000 && decide (pagePa r.pages 0x4000 = some (0xF000000000000, pteH 1)) &&
      decide (anchorOf k (0xF000000000000 / 2 ^ 19 % 512) = some 0)) = true :=
  by decide +kernel

/-- An LDT of one line, whose line has been read. -/
def ldtR (fe : Bool) : Request :=
  { rq (.ldt (cm .x 0) m6) .load 3 .issued with opa := BitVec.ofNat 512 (0x4000 + (if fe then 2 ^ 95 else 0)) ||| (1 <<< 80), lineRd := true }

/-- An STT of one line. -/
def sttR (rd : Bool) : Request :=
  { rq (.stt (cm .x 0) m6) .store 3 .issued with opa := 0x4000#512 ||| (1 <<< 80), lineRd := rd }

theorem witness_FullEmptyAndLineCopies :
    gated (fullLine (withR run [rqS ldfI .loadFull])) (fun k r => lineFull (fullLine (withR run [rqS ldfI .loadFull])) k 0 0 &&
      !heldUp (fullLine (withR run [rqS ldfI .loadFull])) r && loads (fullLine (withR run [rqS ldfI .loadFull])) 0xF000000000000 4 (pteH 1) k r &&
      r.opcode == 0x74) = true ∧
    gated (withR run [rqS steI .storeEmpty]) (fun k r => !lineFull (withR run [rqS steI .storeEmpty]) k 0 0 && r.opcode == 0x75 &&
      !heldUp (withR run [rqS steI .storeEmpty]) r) = true ∧
    gated (withR run [rqS ldfI .loadFull]) (fun k r => !lineFull (withR run [rqS ldfI .loadFull]) k 0 0 && r.opcode == 0x74) = true ∧
    gated (withR run [ldtR true]) (fun k r => !bitWaits (withR run [ldtR true]) k r && r.opcode == 0x72 && r.lineRd &&
      decide (r.done + 1 = fld r.opa 80 13)) = true ∧
    gated (withR run [sttR false]) (fun k r => !bitWaits (withR run [sttR false]) k r && r.opcode == 0x73 && decide (anchorOf k 0 = some 0) &&
      !anyBad (scrRd (run.tile 0) 0 64)) = true ∧
    gated (withR run [sttR true]) (fun k r => decide (pagePa r.pages 0x4000 = some (0x4000, pteH 3)) &&
      (packBytes (packWrite (withR run [sttR true]) k 0 0x4000 0x4000 (wrAll (dataBytes r.data 64)) (pteH 3))).isSome) = true :=
  by decide +kernel

/-- Line 0x80 is held for request 7 alone, and its turn there has come. -/
def ready7 (s : State) : State := dirPut s { DirEnt.fresh 0x80 with busy := some (.rmw 7 true), got := true }

/-- An atomic addition of I32. -/
def atomR : Request := rq (.atom (cm2 .i32 0) { m6 with sz := 2 }) .atomic 0 .issued

theorem witness_Atomics :
    gated (ready7 (withR run [atomR])) (fun k r => r.isRmw && r.opcode == 0x7A && lineMine (ready7 (withR run [atomR])) 0x80 (.rmw 7 (effHome (pteH 0) 0x4000 != 3)) &&
      isHbm 0x4000 && hbmUsable run 0x4000 && (deliverBytes run k .i32 (pteH 0) 0x4000 (homeRd (ready7 (withR run [atomR])) 0x4000 4)).isSome) = true ∧
    lineMine (withR run [atomR]) 0x80 (.rmw 7 true) = false ∧
    gated (withR run [{ rqS stI .atomic with word := enc (.atom (cm2 .i32 0) { m6 with sz := 2 }) }]) (fun k r => r.isRmw &&
      loads (withR run [rqS stI .atomic]) 0xF000000000000 4 (pteH 1) k r) = true ∧
    Ty.i32.isInt = true ∧ 0 < 8 * 4 / Ty.i32.width :=
  by decide +kernel

/-- A control request that its buffer holds. -/
def ctlR (i : Instr) : Request := { rq i .load 0 .held with ctl := true, pages := [], opa := 0 }

/-- User queue 0 of colour 0 has 64 entries, `n` of them taken. -/
def withQ (i : Instr) (at_ log n : Nat) : State := withR (poke run [(at_ + 16, log), (at_ + 24, n)]) [ctlR i]

/-- A held control request of a live frame, with a property. -/
def ctlMay (s : State) (p : Colour → Request → Bool) : Bool :=
  (s.req? 7).any (fun r => (s.col? 0).any (fun k => r.ctl && r.phase == .held && !cutStops k && frp s (fun x => x.phase == .live) && p k r))

theorem witness_ControlRequests :
    ctlMay (withQ (.qpush (cm .x 0) 0) 0x100000 6 64) (fun _ r => ctlReady (withQ (.qpush (cm .x 0) 0) 0x100000 6 64) r && r.opcode == 0x14 &&
      (userDesc (withQ (.qpush (cm .x 0) 0) 0x100000 6 64) 0 r.qsel).full) = true ∧
    ctlMay (withQ (.qpush (cm .x 0) 0) 0x100000 6 63) (fun _ r => !(userDesc (withQ (.qpush (cm .x 0) 0) 0x100000 6 63) 0 r.qsel).full) = true ∧
    ctlMay (withQ (.qpop (cm .x 0) 0) 0x100000 6 1) (fun _ r => r.opcode == 0x13 && (userDesc (withQ (.qpop (cm .x 0) 0) 0x100000 6 1) 0 r.qsel).count == 1) = true ∧
    ctlMay (withQ (.qpop (cm .x 0) 0) 0x100000 6 0) (fun _ r => !r.common.d1.isResult &&
      (userDesc (withQ (.qpop (cm .x 0) 0) 0x100000 6 0) 0 r.qsel).count == 0) = true ∧
    ctlMay (withQ (.taskpush (cm2 .x 0) x0) 0 6 0) (fun k r => ctlReady (withQ (.taskpush (cm2 .x 0) x0) 0 6 0) r && r.opcode == 0x10 &&
      decide (targetIdx (run.part k.part) 0 = some 0) && decide (targetIdx (run.part k.part) 0xFFF = none) &&
      (match pushRecord (withQ (.taskpush (cm2 .x 0) x0) 0 6 0) k.part 0 (recWithJob r.opa 0) with | .ok _ => true | _ => false) &&
      (match pushRecord (withQ (.taskpush (cm2 .x 0) x0) 0 6 64) k.part 0 (recWithJob r.opa 0) with | .full => true | _ => false) &&
      (match pushRecord (withQ (.taskpush (cm2 .x 0) x0) 0 0 0) k.part 0 (recWithJob r.opa 0) with | .noQueue => true | _ => false)) = true :=
  by decide +kernel

/-- A request that waits for the granule at a VA. -/
def asks (va : Nat) : State := withR run [{ rq ldI .load 0 .held with pages := [{ va := va, need := .load, res := .todo }] }]

/-- Cluster 0 has a miss slot for the granule at 0x4000, and its die a walk that has come to a point. -/
def missing (st : WalkSt) : State :=
  ((asks 0x4000).updClu 0 (fun c => { c with miss := [{ vf := 0, va := 0x4000 }] })).updDie 0 (fun d => { d with
    walks := [{ vf := 0, va := 0x4000, home := 0, st := st, size := 30, pteAt := 0x1002000 }] })

/-- The mapped pages are PRIVATE to cluster 0. -/
def privMap (st : WalkSt) : State := poke (missing st) [(0x1002000, 0x41F)]

theorem witness_TranslationsAreFound :
    ((waiters (asks 0x4000) (· == 0) 0x4000).length = 1 ∧ missFind (asks 0x4000) 0 0 0x4000 = none ∧ walkFind (asks 0x4000) 0 0 0x4000 = none ∧
      ((asks 0x4000).clu 0).miss = [] ∧ ((asks 0x4000).die 0).walkq = []) ∧
    (missFind (missing .going) 0 0 0x4000 = some { vf := 0, va := 0x4000 } ∧
      (walkFind (missing .going) 0 0 0x4000).map (·.st) = some .going ∧ walkVia (missing .going) 0 0 0x4000 = .leaf 0x81F 30 0x1002000 ∧
      effHome 0x81F (leafPa 0x81F 30 0x4000) = 0 ∧ pteCls 0x81F = 2 ∧ walkVia (asks 0x40000000) 0 0 0x40000000 = .fault cPGFLT rNOTVALID ∧
      permFault 0 .load 0x41F (leafPa 0x41F 30 0x4000) = none) ∧
    (slotWalk (missing (.bad 1 2)) 0 0x4000 (fun st => st != .going && st != .reclass)).map (·.st) = some (.bad 1 2) ∧
    (slotWalk (missing (.done 0x4000 0x81F false)) 0 0x4000 (fun st => st != .going && st != .reclass)).map (·.st) = some (.done 0x4000 0x81F false) ∧
    (slotWalk (privMap .reclass) 0 0x4000 (· == .reclass)).isSome = true ∧ walkVia (privMap .reclass) 0 0 0x4000 = .leaf 0x41F 30 0x1002000 ∧
    pteCls 0x41F = 1 ∧ partOfClu (privMap .reclass) (pteOwner 0x41F) = partOfClu (privMap .reclass) 0 ∧
    pageBusy (privMap .reclass) 0 0 (2 ^ 30) = false ∧ pteFree (privMap .reclass) 0x1002000 = true :=
  by decide +kernel

/-- A load of cluster 0 wants line 0x80, whose directory entry is given. -/
def wants (i : Instr) (need : Need) (e : DirEnt) : State :=
  dirPut (withR run [rq i need 0 .issued]) e

/-- An entry of line 0x80. -/
def ent (owner : Option Nat) (sharers : W64) (busy : Option DirReq) (probes : List Nat) : DirEnt :=
  { DirEnt.fresh 0x80 with owner := owner, sharers := sharers, busy := busy, probes := probes }

theorem witness_Coherence_Grants :
    (l1Find (wants ldI .load (ent none 0 none [])) 0 0x80 = none ∧ (wants ldI .load (ent none 0 none [])).reqs.any (fun r => wantsLine false 0 0x80 r.2) = true ∧
      dirTakes (wants ldI .load (ent none 0 none [])) 0 0x80 none = true ∧ locked (wants ldI .load (ent none 0 none [])) 0x80 = false) ∧
    (dirFind (wants ldI .load (ent none 2 none [])) 0x80 = some (ent none 2 none []) ∧ dirTakes (wants ldI .load (ent none 2 none [])) 0 0x80 none = true) ∧
    (dirFind (wants ldI .load (ent (some 1) 0 none [])) 0x80 = some (ent (some 1) 0 none []) ∧ dirTakes (wants ldI .load (ent (some 1) 0 none [])) 0 0x80 none = true) ∧
    (dirFind (wants ldI .load (ent (some 1) 0 (some .evict) [1])) 0x80 = some (ent (some 1) 0 (some .evict) [1]) ∧
      dirTakes (wants ldI .load (ent (some 1) 0 (some .evict) [1])) 0 0x80 none = true) ∧
    (wantsPin (wants ldI .load (ent none 0 none [])) false 0 0x80 = none ∧ wantsPin (wants stI .store (ent none 3 none [])) true 0 0x80 = none) ∧
    ((wants stI .store (ent none 3 none [])).reqs.any (fun r => wantsLine true 0 0x80 r.2) = true ∧ dirTakes (wants stI .store (ent none 3 none [])) 0 0x80 none = true ∧
      (bitList 64 3).filter (· != 0) = [1] ∧ (bitList 64 1).filter (· != 0) = []) :=
  by decide +kernel

/-- Cluster 1 keeps line 0x80 in a state, and its directory entry is given. -/
def keeps (st : LineSt) (e : DirEnt) : State :=
  (dirPut (withR run [{ atomR with home := 1 }]) e).updClu 1 (fun c => { c with l1 := [{ line := 0x80, st := st, data := 0, bad := 0, priv := false, pin := none }] })

theorem witness_Coherence_Takes :
    ((l1Find (keeps .m (ent (some 1) 0 none [])) 1 0x80).any (fun x => x.st == .m) = true ∧ locked (keeps .m (ent (some 1) 0 none [])) 0x80 = false) ∧
    (dirFind (keeps .e (ent (some 1) 0 none [])) 0x80 = some (ent (some 1) 0 none []) ∧
      gated (keeps .e (ent (some 1) 0 none [])) (fun _ r => r.isRmw && isHbm 0x4000 && hbmUsable run 0x4000 && decide (effHome (pteH 0) 0x4000 ≠ 3) &&
        decide (pagePa r.pages (n64 r.opa 0).toNat = some (0x4000, pteH 0)))) ∧
    (dirFind (keeps .e (ent (some 1) 0 (some (.rmw 7 true)) [1])) 0x80 = some (ent (some 1) 0 (some (.rmw 7 true)) [1])) ∧
    (dirFind (keeps .e (ent (some 1) 0 (some (.gets 0 none)) [1])) 0x80 = some (ent (some 1) 0 (some (.gets 0 none)) [1])) ∧
    (dirFind (keeps .s (ent none 0 (some (.getx 0 none)) [])) 0x80 = some (ent none 0 (some (.getx 0 none)) [])) :=
  by decide +kernel

/-- An MCAS of two words whose block stands at 0x5000, the header and the second address given; its header may have been read. -/
def mcasAt (hdr a : Nat) (rd : Bool) : State :=
  withR (poke run [(0x5000, hdr), (0x5010, 0x6000), (0x5030, a)]) [{ rq (.mcas (cm .x 0) m6) .block 0 .issued with
    opa := 0x5000, pages := [], lineRd := rd, data := BitVec.ofNat 512 hdr }]

/-- Bytes of the block have been read, with a property of them. -/
def blockBytes (s : State) (n : Nat) (p : State → Colour → Request → List Byte → Bool) : Bool :=
  gated s (fun k r => (freeSolder (s.clu r.home)).isSome && !inSolder (s.clu r.home) 7 && (earlierOpen s r).isEmpty && !cutStops k &&
    match engXlat s k r.home 0x5000 .block with
    | .ok pa pte s1 => match engRead s1 k r.home (131072 + 7) 0x5000 pa n pte false with
      | .ok bs u => match deliverBytes u k .x pte pa bs with
        | some (b, v) => p v k r b
        | none => false
      | _ => false
    | _ => false)

/-- The entries of the block have been read. -/
def blockRead (s : State) (p : State → Colour → Request → List McasEnt → Bool) : Bool :=
  blockBytes s 80 (fun v k r b => r.lineRd && p v k r ((List.range 2).map (mcasEnt b)))

theorem witness_McasChecks :
    blockBytes (mcasAt 0xC01 0x6080 false) 16 (fun v k r b => !r.lineRd && decide (leNat (b.take 8) % 256 < 2) &&
      ((haltReq v 7 r cMCASATTR mHEADER 0x5000).req? 7).isNone && k.vf == 0) = true ∧
    blockBytes (mcasAt 0xC02 0x6080 false) 16 (fun _ _ _ b => !mcasHeaderBad (leNat (b.take 8))) = true ∧
    blockRead (mcasAt 0xC02 0x6080 true) (fun s k r es => es.all (fun e => e.addr % 8 == 0) && match mcasXlats s k es with
      | some (.ok ts) => (mcasAttr s k 0x5000 80 ts).isNone && (match mcasShare s k r.home ts with | some (.ok _) => true | _ => false)
      | _ => false) = true ∧
    blockRead (mcasAt 0xC02 0x6000 true) (fun s k _ es => match mcasXlats s k es with
      | some (.ok ts) => (mcasAttr s k 0x5000 80 ts).isSome
      | _ => false) = true ∧
    blockRead (mcasAt 0xC02 0x6081 true) (fun _ _ _ es => (es.find? (fun e => e.addr % 8 != 0)).any (fun e => e.addr == 0x6081)) = true ∧
    mcasHeaderBad 0xC02 = false ∧ mcasHeaderBad 0xC08 = false ∧ mcasHeaderBad 0xC01 = true ∧ mcasHeaderBad 0xC09 = true ∧ mcasHeaderBad 0xF02 = true :=
  by decide +kernel

/-- An MCAS in slot 0 of cluster 0. -/
def solder (m : McasRun) : State := (mcasAt 0xC02 0x6080 true).updClu 0 (fun c => { c with solder := [(0, m)] })

/-- The run of that MCAS at its start. -/
def mr : McasRun :=
  { req := 7, count := 2, pas := [0x6000, 0x6080], exps := [0, 1], news := [2, 3], ptes := [pteH 0, pteH 0], todo := [0xC0, 0xC1], asked := none, held := [],
    performed := false, obs := [], mm := 0, ue := false, toWrite := [], toAck := [], start := 0, last := 0, scope := 0, withdrawn := false, wrote := 0 }

/-- The same MCAS with its last lock granted. -/
def lastLock : State :=
  (solder { mr with todo := [], asked := some 0xC1, held := [0xC0] }).updDie (lineDie run 0xC1) (fun d => { d with
    locks := [{ line := 0xC1, cluster := 0, slot := 0 }] })

/-- The same MCAS once it has performed, with lines left to write. -/
def done7 (l : List Nat) : State := solder { mr with todo := [], held := l, performed := true, obs := [0, 1], toWrite := l }

theorem witness_McasLocks :
    ((mcasRun? (solder mr) 0 0) = some mr ∧ ((solder mr).req? 7).any (fun r => r.sy == 3 && !mcasLeaves (solder mr) r) = true) ∧
    (lockedFor lastLock 0xC1 0 0 = true ∧ mcasLineBad lastLock { mr with todo := [], asked := some 0xC1, held := [0xC0] } 0xC1 = false ∧
      (mcasRun? lastLock 0 0).any (fun m => m.todo.isEmpty && m.pas.length == m.count && m.exps.length == m.count && m.ptes.length == m.count) = true) ∧
    ((0xC0 : W64).toNat ∈ [0xC0, 0xC1]) ∧
    ((mcasRun? (solder { mr with withdrawn := true, todo := [], held := [0xC0] }) 0 0).any (fun m => !m.performed && !m.ue && m.withdrawn) = true) ∧
    ((done7 []).req? 7).any (fun r => colp (done7 []) (fun k => (mcasRun? (done7 []) 0 0).any (fun m => m.performed && m.toWrite.isEmpty &&
      match mcasPut (done7 []) k 0 0 r m with | .done _ => true | _ => false))) = true ∧
    ((done7 [0xC0]).req? 7).any (fun _ => (mcasRun? (done7 [0xC0]) 0 0).any (fun m => m.toWrite.contains 0xC0)) = true :=
  by decide +kernel

/-- A CPY of 64 bytes from VA 0x4000 to VA 0x8000 on queue 0. -/
def cpyR : Request :=
  { rq (.cpy (cm .x 0) m6) .load 3 .issued with opa := 0x4000#512 ||| (0x8000 <<< 64) ||| (64 <<< 128), pages := [] }

/-- The command that it enters, with the data that it has read. -/
def cmd0 (d : Option (List (Byte × Bool))) : CopyCmd :=
  { num := 0, frame := 0, ty := .x, wp := false, src := 0x4000, dst := 0x8000, len := 64, off := 0, acked := 0,
    pages := [{ va := 0x4000, need := .load, res := .ok 0x4000 (pteH 0) }, { va := 0x8000, need := .store, res := .ok 0x8000 (pteH 0) }], data := d, snap := [], tags := [], part := 0, acks := [] }

/-- Queue 0 holds items. -/
def queued (l : List QItem) : State := runC (fun k => { k with
  copyq := [(0, { CopyQ.reset with items := l })],
  qfences := [(0, { lstake := 0, frame := 0, wave := 0, data := 1, fmt := 0, left := [0] })] })

theorem witness_Copies :
    gated (withR run [cpyR]) (fun k r => !cutStops k && !copyWaits (withR run [cpyR]) r && r.opcode == 0x80 && decide ((copyQ k (cpyQueue r.opa)).commands < 64) &&
      (match engPages (withR run [cpyR]) k (queueHome run 0) .load (granules (cpySrc r.opa) (cpyLen r.opa)) with
        | ((_, none, false), u) => match engPages u k (queueHome run 0) .store (granules (cpyDst r.opa) (cpyLen r.opa)) with
          | ((_, none, false), _) => true
          | _ => false
        | _ => false)) = true ∧
    colp (queued [.cmd (cmd0 none)]) (fun k => (copyRead (queued [.cmd (cmd0 none)]) k (queueHome run 0) 0 0 (cmd0 none) 0 (cmd0 none).size).1.isSome &&
      !(cmd0 none).selfOverlap && decide ((cmd0 none).off < (cmd0 none).len)) = true ∧
    (match partAt 0 (entryParts ((cmd0 none).side true) 0x8000 (cmd0 none).size) 0 with
      | some (p, _) => !isRemote p.1 && !(isHbm p.1 && hbmWaits (queued []) p.1) && (enterLines (queued []) (.piece 0 0) (partLines [p])).1
      | none => false) = true ∧
    (partAt 64 (entryParts ((cmd0 none).side true) 0x8000 (cmd0 none).size) 0).isNone = true ∧
    colp (queued [.fence 0]) (fun k => (copyQ k 0).items == [.fence 0]) = true ∧
    colp (queued [.cmd (cmd0 none)]) (fun k => (copyQ k 0).items.head? != some (.fence 0)) = true :=
  by decide +kernel

/-! ## Witnesses: the matrix unit and tokens -/

/-- A command of tile 0 for bank 0. -/
def mc (i : Instr) (a b : W512) (started : Bool) (out : List Emission) : MatCmd :=
  { word := enc i, lstake := 0, colour := 0, frame := 0, wave := 0, opa := a, opb := b, fa := 2, fb := 2, ha := none, hb := none, fpctl := 0x100,
    colkey := 0, started := started, bytes := [], out := out, performed := false }

/-- Tile 0 has one command, and the first `n` lines of its scratch are full. -/
def matS (n : Nat) (m : MatCmd) : State := run.updTile 0 (fun t => { t with cmds := [m], full := List.range n, scratch := [] })

/-- The command of tile 0 that is ready is the first, with a property. -/
def matMay (s : State) (opc : Nat) (p : Tile → MatCmd → Bool) : Bool :=
  match cmdReady (MatCmd.is opc 0) (s.tile 0).cmds with
  | some (0, m) => p (s.tile 0) m
  | _ => false

/-- A token on its way out of a command. -/
def em0 : Emission := { d := 0, tok := mkToken 0 1 0 0 0 0 }

theorem witness_AccumulatorBanks :
    matMay (matS 0 (mc (.mzero (cm .f32 0) (mx .f32)) 0 0 false [])) 0x98 (fun _ _ => true) = true ∧
    matMay (matS 256 (mc (.mldacc (cm .f32 0) (mx .f32)) 0 0 false [])) 0x9C (fun t m => linesFull t (rangeFrom (desc0 m.opa 0 13) 256) &&
      !linesBad t (rangeFrom (desc0 m.opa 0 13) 256)) = true ∧
    matMay (matS 255 (mc (.mldacc (cm .f32 0) (mx .f32)) 0 0 false [])) 0x9C (fun t m => !linesFull t (rangeFrom (desc0 m.opa 0 13) 256)) = true ∧
    matMay (matS 0 (mc (.msnap (cm .i32 0) (mx .i32)) 0 0 false [])) 0x9A (fun t m => m.common.ty == .i32 &&
      (cmdFind (fun x => x.opc == 0x9A && x.started) t.cmds).isNone) = true ∧
    (match cmdFind (fun x => x.performed && MatCmd.is 0x98 0 x) ((matS 0 { mc (.mzero (cm .f32 0) (mx .f32)) 0 0 true [em0] with performed := true }).tile 0).cmds with
      | some (_, m) => cmdLive run m && groupRoom run m.colour .unit m.lstake m.common m.out
      | none => false) = true ∧
    (cmdReady (MatCmd.is 0x98 0) ((matS 0 { mc (.mzero (cm .f32 0) (mx .f32)) 0 0 true [em0] with performed := true }).tile 0).cmds).isNone = true ∧
    ((((matS 0 (mc (.msnap (cm .i32 0) (mx .i32)) 0 0 false [])).tile 0).acc 0).commit).isNone = true ∧
    (match cmdFind (fun x => x.opc == 0x9A && x.started) ((matS 0 (mc (.msnap (cm .i32 0) (mx .i32)) 0 0 true [em0])).tile 0).cmds with
      | some (_, m) => m.bank == 0 && !m.out.isEmpty && cmdLive run m && chanRoom run (destKey 0 .unit 0 0 out0)
      | none => false) = true ∧
    matMay (matS 0 (mc (.mdrain (cm .f32 0) (mx .f32)) 0 0 false [])) 0x9B (fun t m => linesFull t (drainLines m.opa) && !linesBad t (drainLines m.opa)) = true ∧
    matMay (matS 127 (mc (.mdrain (cm .f32 0) (mx .f32)) ((2 <<< 108) ||| (1 <<< 107)) 0 false [])) 0x9B (fun t m => !linesFull t (drainLines m.opa)) = true ∧
    (match cmdFind (fun x => x.started && MatCmd.is 0x9B 0 x) ((matS 0 (mc (.mdrain (cm .f32 0) (mx .f32)) 0 0 true [em0])).tile 0).cmds with
      | some (_, m) => !m.out.isEmpty && cmdLive run m
      | none => false) = true :=
  by decide +kernel

/-- An MMA whose step has begun. -/
def startedMma : State :=
  let m := mc (.mma (cm2 .bf16 4) (mx .bf16)) 0 0x40 true []
  matS 128 { m with bytes := lineBytes ((matS 128 m).tile 0) (mmaLines m) }

theorem witness_MatrixSteps :
    (issueOpen run = true ∧ issueOpen ({ run with clk := 15 }.updPf (fun p => { p with duty := 1 })) = false) ∧
    matMay (matS 128 (mc (.mma (cm2 .bf16 4) (mx .bf16)) 0 0x40 false [])) 0x99 (fun t m => linesFull t (mmaLines m) && !linesBad t (mmaLines m)) = true ∧
    matMay (matS 127 (mc (.mma (cm2 .bf16 4) (mx .bf16)) 0 0x40 false [])) 0x99 (fun t m => !linesFull t (mmaLines m)) = true ∧
    (match cmdFind (fun x => x.opc == 0x99 && x.started && !x.performed) (startedMma.tile 0).cmds with
      | some (_, m) => m.bytes == lineBytes (startedMma.tile 0) (mmaLines m)
      | none => false) = true ∧
    (∀ x ∈ [FVal.num false 1 2, FVal.num true 3 4], ∃ sg p q, x = .num sg p q ∧ q ≠ 0) :=
  ⟨by decide +kernel, by decide +kernel, by decide +kernel, by decide +kernel, fun x h => by
    simp only [List.mem_cons, List.not_mem_nil, or_false] at h
    rcases h with rfl | rfl <;> exact ⟨_, _, _, rfl, by decide⟩⟩

/-- The channel from DEST0 of stake 0 into a port of itself. -/
def keyS (p : BitVec 2) : ChanKey := { colour := 0, kind := .stake, lsrc := 0, dfield := 0, ldst := 0, port := p }

/-- A channel that holds a token. -/
def inNetS (s : State) (key : ChanKey) (t : Token) : State := { s with net := [{ key := key, items := [.tok t], ext := false }] }

/-- A token for port a of stake 0. -/
def tk (frame : BitVec 12) : Token := mkToken 5 0 0 frame 0 0

/-- What a channel gives, with a property of the state after it. -/
def popped (s : State) (key : ChanKey) (p : Token → State → Bool) : Bool :=
  match chanPop (settleTile s key) key with
  | some (t, s1) => p t s1
  | none => false

/-- Stake 0 of a state, with a property. -/
def stp (s : State) (p : StakeSt → Bool) : Bool := (stake? s 0 0).any p

/-- The stake is a FIFO stake. -/
def fifoS (s : State) : State := updStake s 0 0 (fun st => { st with isMatch := false, ready := [] })

theorem witness_TokensArrive :
    popped (inNetS (fifoS run) (keyS 0) (tk 0)) (keyS 0) (fun t s1 => t.kind == 0 && !t.parityErr && colp s1 (fun k => !k.purging t.frame &&
      !weaveAbsent s1 0 k 0 && !k.unflipped.contains 0 && (s1.part k.part).hasColour 0 && !spilledAt s1 0 k 0 0) &&
      stp s1 (fun st => !st.isMatch && st.portReady 0 && !isMisfit st t && !(st.port 0).bounded (keyS 0)) &&
      !(s1.tile 0).keepsEarly (keyS 0)) = true ∧
    popped (inNetS run (keyS 0) (tk 0)) (keyS 0) (fun t s1 => stp s1 (fun st => st.isMatch && !(st.port 0).waitsLookup (keyS 0) &&
      (completes (s1.tile 0) st t).isSome)) = true ∧
    popped (inNetS (probeStake mapped (enc (.add (cm2 .i32 8) x0))) (keyS 0) (tk 0)) (keyS 0) (fun t s1 => stp s1 (fun st => st.isMatch &&
      (completes (s1.tile 0) st t).isNone) && colp s1 (fun k => rowFree s1 0 k 0 && !spilledFor s1 0 k 0 && !spillStuck s1 k 0)) = true ∧
    (chanPop (settleTile run (keyS 0)) (keyS 0)).isNone = true :=
  by decide +kernel

/-- A misfit on port a of a FIFO stake, with or without a misfit route. -/
def misfitS (q : Bool) : State :=
  updStake (fifoS (probeStake mapped (enc (.mov { cm .x 0 with acc := 2, d0 := { out0 with q := q } } x0)))) 0 0 (fun st =>
    st.setPort 0 { buf := [{ key := keyS 0, tok := tk 0, misfit := true }], latches := [] })

/-- A spilled token of colour 0. -/
def spilt : State :=
  match spillWrite run 0 (keyS 0) (tk 0) 0 false with
  | .ok _ s => s
  | _ => run

theorem witness_SpillsMisfitsStrays :
    (devOk (spillWrite run 0 (keyS 0) (tk 0) 0 false) = true ∧ colp spilt (fun k => k.running &&
      (nextSpill spilt 0 k [] k.spilled).any (fun e => (spillRead spilt 0 e.seq).isSome)) = true) ∧
    (stp (misfitS false) (fun st => (misfitRoute st).isNone && colp (misfitS false) (fun k => !cutHolds k st && k.running && issueOpen (misfitS false) &&
      (misfitNext k st 0 0).any (fun i => slotFree (misfitS false) (fireAt 0 0 k st (OpSet.empty.put 0 i.tok))))) = true) ∧
    (stp (misfitS true) (fun st => colp (misfitS true) (fun k => (misfitNext k st 0 0).isSome) && (misfitRoute st).any (fun d => chanRoom (misfitS true) (destKey 0 .stake 0 d.1 d.2))) = true) ∧
    (match chanPop (inNetS run { keyS 0 with ldst := 9 } (tk 0)) { keyS 0 with ldst := 9 } with
      | some (t, u) => t.kind != 1 && isStray u { keyS 0 with ldst := 9 } t
      | none => false) = true ∧
    (takeFirst (fun y => y.src == run.cur.place) ({ run with strays := [tk 0] }).strays).isSome = true :=
  by decide +kernel

/-- VF 0 with a registered weave, its colour asking for it. -/
def asked (b : Bool) : State :=
  (runC (fun k => { k with loadReq := b })).updVf 0 (fun f => { f with weaves := [probeWeave (enc (.mov (cm .x 0) x0))] })

/-- The upsett token has reached the colour's tile. -/
def flipping : State :=
  (runC (fun k => { k with unflipped := [0] })).updTile 0 (fun t => { t with sel := !t.sel, upsett := some { mkToken 0 0 0 0 0 0 with kind := 2 } })

theorem witness_Weaves :
    colp (asked true) (fun k => k.loadReq && holdsPart (asked true) k.vf && (weave? (asked true) k.vf k.weave).isSome) = true ∧
    colp (asked false) (fun k => !k.loadReq) = true ∧
    ((flipping.tile 0).shadow.colour = some 0 ∧ (flipping.tile 0).upsett.any (fun x => x.kind == 2 && x.colour == 0) = true ∧
      colp flipping (fun k => k.unflipped.contains 0) = true) ∧
    ((run.tile 0).upsett.isNone = true ∧ (run.tile 0).active.colour = some 0 ∧ (flipping.tile 0).active.colour = none) :=
  by decide +kernel

/-- A marker in the channel into port a of stake 0. -/
def marker (w : BitVec 16) : State := inNetS (fifoS run) (taskKey 0 0) { mkMarker 0 w 0 with port := 0 }

/-- A round of colour 0 has begun. -/
def inRound : State := run.updCol 0 (fun k => { k with round := 0, cut := some { why := .round, start := 0, forced := false, whole := false } })

/-- Stake 0 has a unit's marker to send on. -/
def forwards (n : Nat) : State := updStake run 0 0 (fun st => { st with unitMark := some (1, n) })

theorem witness_Rounds :
    (match chanPop (marker 0) (taskKey 0 0) with
      | some (t, u) => t.kind == 1 && t.ok && !(u.tile 0).keepsEarly (taskKey 0 0) && stp u (fun st => st.round.toNat == t.data.toNat)
      | none => false) = true ∧
    (match chanPop (marker 1) (taskKey 0 0) with
      | some (t, u) => t.kind == 1 && stp u (fun st => st.round.toNat != t.data.toNat)
      | none => false) = true ∧
    colp inRound (fun k => stp inRound (fun st => !mayEnter inRound 0 k st)) = true ∧
    colp (forwards 0) (fun k => stp (forwards 0) (fun st => st.unitMark == some (1, 0) && !unitBusy (forwards 0) 0 k st 0)) = true ∧
    colp run (fun k => k.cut.isNone && k.want.isNone && k.marks.isEmpty && k.running) = true ∧
    colp (runC (fun k => { k with want := some .slice })) (fun k => k.cut.isNone && k.want.isSome && !k.loadReq && k.unflipped.isEmpty) = true ∧
    ((stakesOf run 0).filter (·.entry)).all (fun y => chanRoom run (taskKey 0 y.lstake)) = true :=
  by decide +kernel

/-- A save of colour 0 has begun at clk 0. -/
def cutting (clk : Nat) : State :=
  { runC (fun k => { k with cut := some { why := .slice, start := 0, forced := false, whole := false } }) with clk := clk }

theorem witness_Cuts :
    colp (cutting 18000) (fun k => k.cut.any (fun x => x.why != .round && !x.whole && decide (x.start + usClk 12 ≤ (cutting 18000).clk))) = true ∧
    colp (cutting 17999) (fun k => k.cut.any (fun x => decide ((cutting 17999).clk < x.start + usClk 12))) = true :=
  by decide +kernel

/-- A migration round has reached stake 0, which has drained. -/
def migrating : State :=
  updStake (runC (fun k => { k with mig := some (0, 0) })) 0 0 (fun st => { st with fresh := true })

theorem witness_Migration :
    colp run (fun k => (run.part k.part).migen && k.mig.isNone && k.cut.isNone && k.want.isNone && k.running &&
      ((injectMarker run 0 k .round).col? 0).any (fun y => y.cut.isSome)) = true ∧
    (findStake migrating 0 0).isSome = true ∧
    colp migrating (fun k => stp migrating (fun st => mayMove migrating 0 k st 0 0 127 && moveDrained migrating 0 0 st)) = true ∧
    colp migrating (fun k => stp migrating (fun st => !mayMove migrating 0 k st 0 0 128)) = true :=
  by decide +kernel

/-- Frame 0 is ending, and nothing of it is left. -/
def ending : State := updStake (runF (fun x => { x with phase := .ending })) 0 0 (fun st => { st with ready := [] })

/-- A decrement on its way to a KGATE at stake 0 with a count. -/
def gateS (n : Nat) : State :=
  { updStake (probeStake mapped (enc (.kgate (cm .x 0) 4))) 0 0 (fun st => { st with kn := n }) with kdecs := [{ gate := 0, lstake := 0, tok := tk 0 }] }

theorem witness_FramesEnd :
    colp ending (fun k => frp ending (fun x => quiesced ending k 0 0 x) && decide (k.retiring.length < 16)) = true ∧
    frp (runF (fun x => { x with phase := .purging })) (fun x => x.phase == .purging) = true ∧
    (takeFirst (fun d => d.tok.colour == (0 : BitVec 12) && d.gate == (0 : BitVec 16)) (gateS 1).kdecs).isSome = true ∧
    stp (gateS 1) (fun st => decide (st.kn ≠ 0)) = true ∧ stp (gateS 0) (fun st => decide (st.kn = 0)) = true :=
  by decide +kernel

/-- Colour 0 is idle, and its queue of priority 0 holds one record, for an entry of a weave. -/
def idleQ (weave entry : Nat) : State :=
  poke (runC (fun k => { k with frames := [] })) [(0, 0x3000000), (8, 0x3001000), (16, 6), (24, 1), (0x3000010, weave + entry * 2 ^ 32)]

theorem witness_Tasks :
    colp (idleQ 1 0) (fun k => mayStart (idleQ 1 0) k && (nextRec (idleQ 1 0) k 0).any (fun h => recWeave h.rcd == k.weave && !recRsvd h.rcd &&
      entryOk (idleQ 1 0) 0 (recEntry h.rcd) && (freeFrame k).isSome && chanRoom (idleQ 1 0) (taskKey 0 0))) = true ∧
    colp (idleQ 1 1) (fun k => (nextRec (idleQ 1 1) k 0).any (fun h => !entryOk (idleQ 1 1) 0 (recEntry h.rcd))) = true ∧
    colp run (fun k => !mayStart run k) = true ∧ colp (runC (fun k => { k with join := some (0, 0) })) (fun k => k.join.isSome) = true ∧
    colp (idleQ 1 0) (fun k => k.isIdle && k.join.isNone && !preempted k && k.cut.isNone && k.swap.isNone) = true :=
  by decide +kernel

/-! ## Witnesses: jobs, commands and the scheduler -/

/-- VF 0 has one descriptor in its ring: an operation with its root, completion block and graph. -/
def jobS (op col ver graph : Nat) : State :=
  poke (run.updVf 0 (fun f => { f with q := { f.q with sqbase := 0x2000006, sqtail := 1, eqbase := 0x2010006 } }))
    [(0x2000000, col), (0x2000008, ver), (0x2000010, 0x2100000), (0x2000018, 0x2110000 + op), (0x2000020, graph), (0, 0x3000000), (8, 0x3001000), (16, 6)]

/-- A graph of one node and two versions at 0x2200000, its header's count and in-flight byte given. -/
def graphS (op ver n busy : Nat) : State := poke (jobS op 0 ver 0x2200000) [(0x2200000, n + 2 * 2 ^ 32), (0x2200010, busy)]

/-- A ready job and its descriptor, with a property. -/
def jobMay (s : State) (p : State → W512 → Bool) : Bool :=
  jobReady s 0 && match headDesc s 0 with
    | .ok bs s1 => p s1 (bytesData bs)
    | _ => false

/-- The header of the graph of a descriptor, with a property. -/
def graphMay (s : State) (p : State → W512 → List Byte → Bool) : Bool :=
  jobMay s (fun s1 d => (s.vf 0).launchWait.isNone && !jdBad s1 0 d && match devRead s1 0 (jdGraph d) 256 with
    | .ok h s2 => p s2 d h
    | _ => false)

theorem witness_Jobs :
    jobReady run 0 = false ∧ jobMay (jobS 4 0 0 0) (fun s1 d => jdBad s1 0 d) = true ∧ jobMay (jobS 1 16 0 0) (fun s1 d => jdBad s1 0 d) = true ∧
    jobMay (jobS 1 15 0 0) (fun s1 d => !jdBad s1 0 d && jdOp d == 1) = true ∧
    jobMay (jobS 1 0 0 0) (fun s1 d => !jdBad s1 0 d && match devWrites s1 0 [(jdDone d, natBytes 8 1), (jdDone d + 8, [0xFF, 0xFF]),
        (jdDone d + 64, natBytes 4 (jdJob d).toNat)] with
      | .ok _ s2 => match devRead s2 0 (jdRoot d) 64 with
        | .ok rb s3 => match pushRecord s3 0 (jdCol d) (setFld (recWithJob (bytesData rb) (jdJob d)) 64 64 (jdDone d)) with
          | .ok _ => true
          | _ => false
        | _ => false
      | _ => false) = true ∧
    graphMay (graphS 2 0 0 0) (fun _ d h => jdOp d == 2 && graphBad h) = true ∧ graphMay (graphS 2 0 1 1) (fun _ _ h => !graphBad h && graphField h 16 1 == 1 && !(run.vf 0).infl) = true ∧
    graphMay (graphS 2 0 1 0) (fun s2 d h => !graphBad h && graphField h 16 1 == 0 && (s2.vf 0).fill.isNone && !(s2.vf 0).infl &&
      devThen (devWrite s2 0 (jdGraph d + 16) [1]) (fun s3 =>
        devThen (devWrite (s3.updVf 0 (fun f => { f with infl := true })) 0 (jdGraph d + 12) (natBytes 4 0)) (fun s6 =>
          devThen (replayNodes s6 0 d 0 1 0) (fun s4 => devOk (devWrites s4 0 (doneWrites d (graphField h 6 2))))))) = true ∧
    graphMay (graphS 3 2 1 0) (fun _ d h => jdOp d == 3 && jdVer d != (graphField h 8 4 + 1) % 2 ^ 32) = true ∧
    graphMay (graphS 3 1 1 0) (fun s2 d h => jdVer d == (graphField h 8 4 + 1) % 2 ^ 32 && devOk (devWrite s2 0 (jdGraph d + 8) (natBytes 4 1))) = true :=
  by decide +kernel

/-- The physical function has one command in its ring: its first two words. -/
def cmdS (s : State) (w0 w1 : Nat) : State :=
  poke (s.updPf (fun p => { p with q := { p.q with sqbase := 0x2000006, sqtail := 1, eqbase := 0x2010006 } })) [(0x2000000, w0), (0x2000008, w1)]

/-- The command at the head, with a property. -/
def cmdMay (s : State) (op : Nat) (p : W512 → Bool) : Bool := (pfHead s).1.any (fun d => !cmdBad d && cmdOp d == op && p d)

/-- VF 0 has a registered weave and a context area, and colour index 1 has its task queues. -/
def bindS (ctxlog : W64) : State :=
  poke ((asked false).updVf 0 (fun f => { f with ctxbase := 0x4000000 + ctxlog })) ((List.range 8).map (fun (n : Nat) => (0x110 + 32 * n, 6)))

/-- The header of the image of a WVREG command, with a property. -/
def wvregHead (s : State) (p : Reader → State → Bool) : Bool :=
  match pfHead s with
  | (some d, s1) => cmdOp d == 1 && decide (cmdVf d < 1024) && fld d 128 64 % 64 == 0 && match paPeek s1 pfUnit (fld d 128 64) 128 with
    | .ok h s2 => p (readerOf h) s2
    | _ => false
  | _ => false

/-- A WVREG of an image whose one stake is a SINK: an entry and an exit. -/
def image5 : State :=
  let w := (enc (.sink { cm .x 0 with d0 := Dest.none })).toNat
  poke (cmdS run 1 5) [(0x2000010, 0x3000000), (0x3000000, 0x1_1A495657), (0x3000008, 5 + 2 ^ 32 + 2 ^ 48), (0x3000010, 1),
    (0x3000018, 128 + 32 * 2 ^ 32), (0x3000030, 192 + 40 * 2 ^ 32), (0x3000080, w), (0x3000088, w / 2 ^ 64), (0x3000090, 3 * 2 ^ 16),
    (0x3000098, 4), (0x30000C0, 0x100), (0x30000D0, 24), (0x30000D8, 4096)]

theorem witness_Commands :
    (pfHead (cmdS run 7 0)).1.any cmdBad = true ∧ (pfHead (cmdS run 0 0)).1.any cmdBad = true ∧
    (pfHead (poke (cmdS run 1 0) [(0x2000018, 1)])).1.any cmdBad = true ∧
    (pfHead run).1.isNone = true ∧ wvregHead (cmdS run 1 5) (fun g _ => (checkHeader g 5 false).isSome) = true ∧
    wvregHead image5 (fun g s => (checkHeader g 5 false).isNone && match paRead s pfUnit 0x3000000 (imageEnd g) with
      | .ok bs _ => (validate run.mgmt (readerOf bs) 5 false).isNone
      | _ => false) = true ∧
    wvregHead (poke image5 [(0x3000098, 0)]) (fun g s => (checkHeader g 5 false).isNone && match paRead s pfUnit 0x3000000 (imageEnd g) with
      | .ok bs _ => (validate run.mgmt (readerOf bs) 5 false).isSome
      | _ => false) = true ∧
    cmdMay (cmdS run 2 (5 * 2 ^ 32)) 2 (fun _ => (weave? run 0 5).isNone) = true ∧
    cmdMay (cmdS (asked false) 2 (1 + 1 * 2 ^ 16 + 1 * 2 ^ 32)) 2 (fun d => (weave? (asked false) 0 (d.extractLsb' 96 32)).isSome &&
      descsBad (asked false) ((asked false).part 0) 1) = true ∧
    (((bindS 20).vf 0).runs = true ∧ ((bindS 20).col? 1).isNone = true ∧ idxHeld (bindS 20) 0 1 = false ∧ leadOk (bindS 20) 0 1 1 1 = true ∧
      descsBad (bindS 20) ((bindS 20).part 0) 1 = false ∧ ctxFull (bindS 20) 0 1 = false ∧ ctxFull (bindS 0) 0 1 = true) ∧
    cmdMay (cmdS run 3 1) 3 (fun d => (cmdColour (cmdS run 3 1) d).isNone) = true ∧
    cmdMay (cmdS run 3 0) 3 (fun d => (cmdColour (cmdS run 3 0) d).any (fun k => !k.2.isIdle)) = true ∧
    cmdMay (cmdS (idleQ 1 0) 3 0) 3 (fun d => (cmdColour (idleQ 1 0) d).any (fun k => k.2.isIdle && k.2.join.isNone && !preempted k.2 && k.2.cut.isNone && k.2.swap.isNone)) = true ∧
    cmdMay (cmdS run 4 0) 4 (fun d => (cmdColour run d).any (fun k => !preempted k.2)) = true ∧
    cmdMay (cmdS run 5 127) 5 (fun d => decide (126 < fld d 64 16)) = true ∧
    cmdMay (cmdS run 5 126) 5 (fun d => decide (fld d 64 16 ≤ 126) && decide (dirCount run (run.vf 0) ≤ 126) && !areaWaits run (run.vf 0)) = true ∧
    cmdMay (cmdS run 6 1) 6 (fun d => run.pf.ckpt.isNone && cmdVf d == 0 && fld d 128 64 % 4096 == 0) = true :=
  by decide +kernel

/-- VF 0 has a context area. -/
def wholeArea : State := run.updVf 0 (fun f => { f with ctxbase := 0x4000000 + 20 })

/-- A CKPTALL of partition 0 is under way, at a point. -/
def ckptS (copying : Bool) (runs : List (Nat × Nat × Nat)) (m : Option (Nat × List Byte)) : State :=
  (cmdS run 6 1).updPf (fun p => { p with ckpt := some ⟨0, 1, 0x8000, 0, runs, copying, m⟩ })

theorem witness_Checkpoints :
    cmdMay (ckptS false [] none) 6 (fun _ => maskCols run 1 != []) = true ∧ maskCols up 1 = [] ∧
    cmdMay (ckptS true [(0x4000, 0x9000, 65)] none) 6 (fun _ => !physWaits run 0x4000 64 && rangeFree run 0x4000 64) = true ∧
    cmdMay (ckptS true [] (some (0x8000, [1]))) 6 (fun _ => true) = true ∧ cmdMay (ckptS true [] (some (0x8001, []))) 6 (fun _ => poolAcked run) = true ∧
    poolAcked (poolWrite run 0x8000 [1]) = false ∧ cmdMay (cmdS wholeArea 4 0) 4 (fun d => (cmdColour wholeArea d).any (fun k => (placeCtx wholeArea k.2).isSome) &&
      !areaWaits wholeArea (wholeArea.vf 0)) = true :=
  by decide +kernel

/-- Both VFs have work, VF 0 holds the partition, and its slice began at clk 0. -/
def sliced (clk : Nat) : State :=
  { (run.updVf 1 (fun f => { f with en := true, enabled := true })).updPart 0 (fun p => { p with slice := 10 }) with
    clk := clk, cols := run.cols ++ (run.cols.map (fun k => (1, { k.2 with vf := 1 }))) }

theorem witness_Slices :
    ((run.part 0).en = true ∧ (run.part 0).state ≠ .accepted ∧ ckptHolds run 0 = false) ∧
    (holder (sliced 0) 0 = some 0 ∧ hasWork (sliced 0) 0 = true ∧ turnEnds (sliced 14999) 0 0 = false ∧ turnEnds (sliced 15000) 0 0 = true ∧
      nextWorker (sliced 15000) 0 0 = some 1 ∧ colsOf (sliced 15000) 0 = [0]) ∧
    (nextWorker (run.updPart 0 (fun p => { p with slice := 10 })) 0 0 = none ∧ holder { run with vfs := [(0, { Vf.reset with en := true, enabled := true })] } 0 = none ∧
      hasWork up 0 = false ∧ turnEnds up 0 0 = true ∧ workers up 0 = []) ∧
    colp (runC (fun k => { k with swap := some (9, 9) })) (fun k => k.swap.isSome && (swapWeave run k 9).isNone && !preempted k) = true ∧
    sliceOver (run.updPart 0 (fun p => { p with slice := 0 })) 0 = true :=
  by decide +kernel

/-- A guest switch of VF 0 that has reached a stage, its colour's cut whole. -/
def guestS (g : GswPhase) (ld : W64) : State :=
  (updStake (runC (fun k => { k with cut := some { why := .guest, start := 0, forced := false, whole := true } })) 0 0 (fun st => { st with ready := [] })).updVf 0
    (fun f => { f with gsw := g, gswLoad := ld })

/-- The cut of colour 0 is whole, with nothing left to drain, and its VF has a context area. -/
def wholeS : State :=
  (updStake (runC (fun k => { k with cut := some { why := .slice, start := 0, forced := false, whole := true } })) 0 0 (fun st =>
    { st with ready := [] })).updVf 0 (fun f => { f with ctxbase := 0x4000000 + 20 })

theorem witness_Saves :
    colp wholeS (fun k => decide (commitReady wholeS 0 k = some .slice) && (takeCtx wholeS 0 k).isSome) = true ∧
    (loadingVf ((mapped.updVf 0 (fun f => { f with gsw := .load, gswCol := 5 }))) 5).isSome = true ∧
    barOpen (run.updVf 0 (fun f => { f with tdi := .error })) 0 0 = false ∧
    colp run (fun k => (commitReady run 0 k).isNone) = true ∧
    colp (guestS .cut 0) (fun k => decide (commitReady (guestS .cut 0) 0 k = some .guest)) = true ∧ ((guestS .cut 0).vf 0).gsw = .cut ∧
    ((guestS .save 8).vf 0).gsw = .save ∧ ((guestS .save 8).vf 0).gswSave = 0 ∧ (mapped.col? 5).isNone = true ∧ (loadingVf mapped 5).isNone = true ∧
    barOpen run 0 0 = true ∧ (0x1000 : W64).getLsbD 12 = true ∧ (run.vf 0).gsw = .idle ∧ (0x100F : W64).setWidth 12 = 15#12 ∧
    canRaise run 0 = true ∧ (run.part 0).block = 16 :=
  by decide +kernel

/-- Stake 0's own channel is full, and nothing of the colour has moved for 2^18 clk. -/
def stuck (ext : Bool) (n : Nat) : State :=
  { (updStake (fifoS (probeStake mapped (enc (.mov { cm .x 0 with d0 := { out0 with lstake := 0 } } x0)))) 0 0 (fun st => st.setPort 0
      { buf := (List.range 4).map (fun _ => { key := keyS 0, tok := tk 0, misfit := false }), latches := [] })).updCol 0 (fun k => { k with wdExt := ext }) with
    net := [{ key := keyS 0, items := List.replicate 6 (.tok (tk 0)), ext := false }], clk := n }

theorem witness_Watchdog :
    colp (stuck false 262143) (fun k => k.running && k.cut.isNone && decide ((stuck false 262143).clk < k.wdFrom + 2 ^ 18)) = true ∧
    colp (stuck false 262144) (fun k => isSilent (stuck false 262144) 0 k && decide (k.wdFrom + 2 ^ 18 ≤ 262144) && !k.wdExt && decide (k.exts < 16) &&
      (firstEdge ((fullEdges (stuck false 262144) 0 k).filter (fun e => e.what != .never))).isSome) = true ∧
    colp (stuck true 262144) (fun k => k.wdExt && !k.wdPosted && (firstEdge (fullEdges (stuck true 262144) 0 k)).isSome) = true ∧ canRaise (stuck true 0) 0 = true :=
  by decide +kernel

/-! ## Witnesses: interfaces, the host and the wicker links -/

theorem witness_Interfaces :
    ((up.vf 0).tdi = .configUnlocked ∧ (up.vf 0).en = true ∧ (up.vf 0).enabled = true ∧
      ((upVf (fun f => { f with stream := some 3 })).vf 0).stream = some 3 ∧ (up.vf 0).stream ≠ some 3) ∧
    ((lockedUp.vf 0).tdi = .configLocked ∧ (lockedUp.vf 0).nonce = 0) ∧ (up.vf 1023).en = false := by decide +kernel

/-- A port access is done. -/
def portOk (r : PortRes) : Bool :=
  match r with
  | .ok _ _ => true
  | _ => false

/-- A message that awaits its answer. -/
def sentOut (who : Waiting) (kind : MsgKind) (addr : Nat) : Outbound :=
  { tag := 3, colour := 0, who := who, kind := kind, addr := addr, page := none, data := 0, recorded := false, epoch := none, reis := false,
    poison := false, stream := none, late := none }

/-- The host has asked for a translation and a page, and awaits one completion. -/
def hostS : State :=
  { up with host := { up.host with
      out := [{ sentOut (.device 4096) (.read 64) 0x8000000004000 with page := some 7 }],
      atsAsked := [(5, true)], priAsked := [6], ats := [⟨7, 4, true, true⟩] } }

/-- A message of request 7 comes back once its colour is being cut and its stake has sent its marker. -/
def lateS : State :=
  (withR run [rq ldI .load 3 .issued]).updCol 0 (fun k => { k with cut := some { why := .slice, start := 0, forced := false, whole := true } })

/-- Every stack has failed. -/
def failedUp : State := up.updPf (fun p => { p with stk := 0, stkFailed := 0xFFF })

/-- A request of the host that has arrived. -/
def hostIn (kind : MsgKind) (addr : Nat) : Inbound :=
  { num := 0, port := 0, src := 0, tag := 0, ro := false, kind := kind, addr := addr, data := 0, got := [] }

theorem witness_HostPort :
    ((0x4000 : W64).getLsbD 63 = false ∧ up.inq = [] ∧ portOk (performIn up (hostIn (.read 64) 0x4000) 0x4000 0).1 = true ∧
      portOk (performIn up (hostIn (.write 64 (fullMask 64)) 0x4000) 0x4000 0).1 = true) ∧
    (match (performIn failedUp (hostIn (.read 64) 0x4000) 0x4000 0).1 with | .ue _ => true | _ => false) = true ∧
    (match (performIn State.reset (hostIn (.read 64) 0x4000) 0x4000 0).1 with | .wait _ => true | _ => false) = true ∧
    ((0x8000000100000000 : W64).getLsbD 63 = true ∧ ((0x8000000100000000 : W64).extractLsb' 32 11).toNat = 1 ∧ (up.vf 0).tdi = .configUnlocked ∧
      barOpen up 0 0x8000000100000000 = true ∧ barOpen (upVf (fun f => { f with tdi := .error })) 0 0x8000000100000000 = false ∧
      barOpen (upVf (fun f => { f with tdi := .run, stream := some 3 })) 0 0xC003000100000000 = true) ∧
    (hbmUsable up 0x4000 = true ∧ hbmWaits up 0x4000 = false ∧ (∀ l ∈ linesOf 0x4000 64, lineFree up l = true) ∧
      anyBad (homeRd (recallRange up 0x4000 64) 0x4000 64) = false) ∧
    (hostS.host.out.find? (fun x => x.tag == 3)).any (fun o => !o.recorded && o.late.isNone && !comesLate hostS o) = true ∧
    comesLate lateS (sentOut (.req 7 0) (.read 4) 0x8000000004000) = true ∧ (∀ x ∈ hostS.host.out, x.tag ≠ 4) ∧
    (5, true) ∈ hostS.host.atsAsked ∧ (4, true) ∉ hostS.host.atsAsked ∧ 6 ∈ hostS.host.priAsked ∧
    (hostS.host.out.filter (fun x => x.late.isNone && x.page.any (fun g => overlaps (g * 4096) 4096 0x7000 (2 ^ 12)))).map (·.tag) = [3] ∧
    hostS.host.invq.length < 32 := by decide +kernel

/-- A window over the first MiB, its read permission alone. -/
def windowed : State := { up with pf := { up.pf with wins := up.pf.wins.set 0 { Win.reset with en := true, base := 0, lim := 0xFFF, perm := 1 } } }

/-- A port of the links has answered a write, and awaits an answer to a read. -/
def linkS : State :=
  updPort { windowed with wick := { windowed.wick with
      out := [sentOut (.device 4096) (.read 64) 0xC000000004000] } } 0
    (fun w => { w with cache := [{ dev := 5, tag := 9, status := 0, data := 0 }] })

theorem witness_WickerAnswers : ∃ p o, linkS.wick.out.find? (fun x => x.tag == 3 && answerTy x.kind == 1 && portFor x.addr == p) = some o ∧
    o.late = none ∧ o.recorded = false ∧ comesLate linkS o = false :=
  ⟨portFor 0xC000000004000, sentOut (.device 4096) (.read 64) 0xC000000004000, by
    simp [show linkS.wick.out = [sentOut (.device 4096) (.read 64) 0xC000000004000] from rfl, sentOut, answerTy],
    rfl, rfl, by decide +kernel⟩

theorem witness_WickerLinks :
    (35 : W64).toNat < 36 ∧ (191 : W64).toNat < 192 ∧
    (match windowAt windowed 0x4000 0 with | .ok pa => pa == 0x4000 && portOk (performIn windowed { hostIn (.read 64) 0x4000 with port := 1 } pa (portDie 0)).1 | _ => false) = true ∧
    (match windowAt windowed 0xFFFFF 0 with | .ok pa => pa == 0xFFFFF | _ => false) = true ∧
    portOk (performIn windowed { hostIn (.atomic 0x7A .i32 0 4) 0x4000 with port := 1 } 0x4000 (portDie 0)).1 = true ∧ windowed.inq = [] ∧
    (match windowAt windowed 0x100000 0 with | .error st => st == 1 | _ => false) = true ∧
    (match windowAt windowed 0 1 with | .error st => st == 2 | _ => false) = true ∧
    (∀ w ∈ up.pf.wins, w.en = false) ∧ (cached linkS 0 5 9).isSome = true ∧ (cached linkS 0 5 8).isNone = true ∧ (wport linkS 0).cache.length < 4096 ∧
    (∀ x ∈ linkS.wick.out, x.tag ≠ (4 : W64).toNat) ∧ linkS.cur.place < 36 := by decide +kernel

/-! ## Witnesses: the step, memory and encodings -/

theorem witness_StepRunsTheScheduledInstruction :
    (at0 (.mov (cm .x 0) x0)).agenda = [.fire 0 0] ∧ fetch (at0 (.mov (cm .x 0) x0)) 0 0 = some (enc (.mov (cm .x 0) x0)) ∧
    reads (enc (.mov (cm .x 0) x0)) (fun i => i == .mov (cm .x 0) x0) = true ∧ (match decode (encode .warmReset) with | .ok .warmReset => true | _ => false) = true ∧
    fetch State.reset 2047 127 = none ∧ refuses (decodeStake 0) .reservedOpcode = true ∧ State.reset.agenda = [] := by decide +kernel

theorem witness_MemoryReadsZeroThenWhatWasWritten :
    Memory.wf State.reset.mem = true ∧ State.reset.scrubbed.Pairwise (· < ·) ∧ (match placeOf up 0x1000 with | .at _ => true | _ => false) = true ∧
    (artFor up.pf.arts 0x1000).any (fun a => !up.pf.stkFailed.getLsbD (stackOf (a.place 0x1000))) = true :=
  by decide +kernel

/-- With nothing scheduled, one clk passes. -/
theorem step_idle (s : State) (h : s.agenda = []) : Steps s (tick s 1) := by
  unfold Steps step
  rw [h]

/-- A state with bytes in memory keeps its canonical form over a step. -/
theorem witness_EveryStepKeepsMemoryCanonical : (Memory.wf mapped.mem = true ∧ mapped.scrubbed.Pairwise (· < ·)) ∧ ∃ s', Steps mapped s' :=
  ⟨by decide +kernel, ⟨tick mapped 1, step_idle mapped (by decide +kernel)⟩⟩

theorem witness_DecodeAndEncodeAgree : (Instr.add (cm2 .i32 8) x0).wf = true ∧ (Instr.common? (Instr.add (cm2 .i32 8) x0)).isSome = true ∧
    Instr.warmReset.wf = true := by decide +kernel

theorem witness_WordsDecode : (0xAF000000_00000000_00000000_00000000#128).extractLsb' 120 8 = 0xAF#8 ∧ (1 : BitVec 35) ≠ 0 ∧
    0xB0 ≤ ((0xB0000000_00000000_00000000_00000000#128).extractLsb' 120 8).toNat := by decide +kernel

end Sys2Proof.Tests
end

section
/-! PROOFS. Register writes without a step of their own reach their registers (R8, Table 12.2), and a write to a register that a
locked TDI freezes takes that TDI to ERROR (R298, R299). -/

namespace Sys2Proof.Machine

variable {s : State} {n off : Nat} {v : W64}

/-! ## The guard of the frozen registers (R298, R299) -/

theorem guardWrite_free {p : Nat → Vf → Bool} (h : lockedVfs s p = []) (body : State → State) : guardWrite s p body = body s := by
  rw [guardWrite, h]

theorem guardWrite_locked {p : Nat → Vf → Bool} {f : Nat} (h : lockedVfs s p = [f]) (body : State → State) :
    guardWrite s p body = tdiError s f := by
  rw [guardWrite, h]; rfl

@[simp] theorem tdi_tdiError (s : State) (f : Nat) : ((tdiError s f).vf f).tdi = .error := by
  simp [tdiError]

/-! ## Where a REGISTER_WRITE goes, by its space -/

theorem barNum_ofNat (h : n < 2 ^ 32) : barNum (BitVec.ofNat 64 n) = n := by
  rw [barNum, BitVec.toNat_ofNat, Nat.mod_eq_of_lt (by omega : n < 2 ^ 64), Nat.mod_eq_of_lt h]

theorem exec_registerWrite_pf {t : State} (hoff : off < 2 ^ 64) (h : pfBarWrite s off v = t) :
    exec (.registerWrite (BitVec.ofNat 64 0) (BitVec.ofNat 64 off) v) s = .next t := by
  show execRegisterWrite _ _ v s = _
  simp only [execRegisterWrite, barNum_ofNat (n := 0) (by decide), BitVec.toNat_ofNat, Nat.mod_eq_of_lt hoff, if_true, h]

theorem exec_registerWrite_vf {x : W64} (hn : n < 1024) (hx : barNum x = n + 1) (off v : W64) (s : State) :
    exec (.registerWrite x off v) s = .next (vfBarWrite s n x off.toNat v) := by
  show execRegisterWrite x off v s = _
  simp only [execRegisterWrite, hx, Nat.add_one_ne_zero, if_false, if_pos (show n + 1 ≤ 1024 by omega), Nat.add_sub_cancel]

theorem exec_registerWrite_cfgSpace {t : State} (hn : n < 2 ^ 31) (hoff : off < 2 ^ 64) (h : cfgSpaceWrite s n off v = t) :
    exec (.registerWrite (BitVec.ofNat 64 (2048 + n)) (BitVec.ofNat 64 off) v) s = .next t := by
  show execRegisterWrite _ _ v s = _
  simp (disch := omega) only [execRegisterWrite, barNum_ofNat, BitVec.toNat_ofNat, Nat.mod_eq_of_lt, if_neg, if_pos,
    Nat.add_sub_cancel_left, h]

/-! ## The address map of the physical function's BAR0 (Table 12.2) -/

theorem pfBarWrite_art {r : Nat} (hn : n < 16) (hr : r < 4) :
    pfBarWrite s (0x20000 + 32 * n + 8 * r) v = guardWrite s (frozenArt n) (fun s => artWrite s n r v) := by
  have hentry : (0x20000 + 32 * n + 8 * r - 0x20000) / 0x20 = n := by omega
  have hreg : (0x20000 + 32 * n + 8 * r) / 8 % 4 = r := by omega
  simp (disch := omega) only [pfBarWrite, if_neg, if_pos, hentry, hreg]

theorem pfBarWrite_unit {o : Nat} (ho : o < 0x10000) : pfBarWrite s (0x30000 + o) v = unitWrite s o v := by
  have hin : (decide (0x30000 ≤ 0x30000 + o) && decide (0x30000 + o < 0x40000)) = true := by simp; omega
  simp (disch := omega) only [pfBarWrite, if_neg, hin, if_true, Nat.add_sub_cancel_left]

theorem exec_registerWrite_unit {t : State} {o : Nat} (hoff : off = 0x30000 + o) (ho : o < 0x10000) (h : unitWrite s o v = t) :
    exec (.registerWrite (BitVec.ofNat 64 0) (BitVec.ofNat 64 off) v) s = .next t := by
  subst hoff
  exact exec_registerWrite_pf (by omega) ((pfBarWrite_unit ho).trans h)

theorem unitWrite_schedbase (hn : n < 64) : unitWrite s (0x2008 + 16 * n) v = schedbaseWrite s n v := by
  have hpart : (0x2008 + 16 * n - 0x2000) / 0x10 = n := by omega
  simp (disch := omega) only [unitWrite, if_neg, if_pos, hpart]

theorem unitWrite_qnpol (hn : n < 64) : unitWrite s (0x4008 + 64 * n) v = qnpolWrite s n v := by
  have hpart : (0x4008 + 64 * n - 0x4000) / 0x40 = n := by omega
  simp (disch := omega) only [unitWrite, if_neg, if_pos, hpart]

theorem unitWrite_part {r : Nat} (hn : n < 64) (hr : r < 8) :
    unitWrite s (0x6000 + 64 * n + 8 * r) v = guardWrite s (frozenPart n) (fun s => partWrite s n r v) := by
  have hpart : (0x6000 + 64 * n + 8 * r - 0x6000) / 0x40 = n := by omega
  have hreg : (0x6000 + 64 * n + 8 * r) % 0x40 / 8 = r := by omega
  simp (disch := omega) only [unitWrite, if_neg, if_pos, hpart, hreg]

theorem unitWrite_ctxbase (hn : n < 1024) : unitWrite s (0x8000 + 8 * n) v = ctxbaseWrite s n v := by
  have hvf : (0x8000 + 8 * n - 0x8000) / 8 = n := by omega
  simp (disch := omega) only [unitWrite, if_neg, if_pos, hvf]

theorem unitWrite_ptroot (hn : n < 1024) : unitWrite s (0xA000 + 16 * n) v = ptrootWrite s n v := by
  have hvf : (0xA000 + 16 * n - 0xA000) / 0x10 = n := by omega
  have hreg : (0xA000 + 16 * n) % 0x10 = 0 := by omega
  simp (disch := omega) only [unitWrite, if_neg, if_pos, hvf, hreg]

theorem unitWrite_hamctl (hn : n < 4) : unitWrite s (0xE000 + 16 * n) v = hamctlWrite s n v := by
  have hdie : (0xE000 + 16 * n - 0xE000) / 0x10 = n := by omega
  simp (disch := omega) only [unitWrite, if_neg, if_pos, hdie]

theorem unitWrite_win {r : Nat} (hn : n < 16) (hr : r < 4) : unitWrite s (0xF000 + 32 * n + 8 * r) v = winWrite s n r v := by
  have hwin : (0xF000 + 32 * n + 8 * r - 0xF000) / 0x20 = n := by omega
  have hreg : (0xF000 + 32 * n + 8 * r) / 8 % 4 = r := by omega
  have hin : (decide (0xF000 ≤ 0xF000 + 32 * n + 8 * r) && decide (0xF000 + 32 * n + 8 * r < 0xF200) &&
    decide ((0xF000 + 32 * n + 8 * r) % 8 = 0)) = true := by simp; omega
  simp (disch := omega) only [unitWrite, if_neg, hin, if_true, hwin, hreg]

/-! ## What a write leaves in each register -/

theorem updQueues_vf (hn : n < 1024) (g : Queues → Queues) : updQueues s n g = s.updVf n (fun f => { f with q := g f.q }) :=
  if_neg (by unfold pfQ; omega)

/-- Keeping the low 52 bits of a word is masking it with them. -/
theorem setWidth_52_eq_and (v : W64) : (v.setWidth 52).setWidth 64 = v &&& 0xFFFFFFFFFFFFF := by
  apply BitVec.eq_of_toNat_eq
  have hmask : (0xFFFFFFFFFFFFF : W64).toNat = 2 ^ 52 - 1 := rfl
  rw [BitVec.toNat_and, hmask, Nat.and_two_pow_sub_one_eq_mod, BitVec.toNat_setWidth, BitVec.toNat_setWidth]
  omega

theorem ctxbaseWrite_free (h : lockedVfs s (frozenVf n) = []) :
    ctxbaseWrite s n v = s.updVf n (fun f => { f with ctxbase := v &&& 0xFFFFFFFFFFFFF }) := by
  rw [ctxbaseWrite, guardWrite_free h, setWidth_52_eq_and]

theorem ptrootWrite_disabled (h : lockedVfs s (frozenVf n) = []) (hen : (s.vf n).en = false) :
    ptrootWrite s n v = s.updVf n (fun f => { f with ptroot := pageBits v }) := by
  simp only [ptrootWrite, guardWrite_free h, hen, Bool.false_eq_true, if_false]

theorem ptrootWrite_enabled (h : lockedVfs s (frozenVf n) = []) (hen : (s.vf n).en = true) : ptrootWrite s n v = s.pfErr := by
  simp only [ptrootWrite, guardWrite_free h, hen, if_true]

theorem partWrite_clu_disabled (hen : (s.part n).en = false) : partWrite s n 0 v = s.updPart n (fun p => { p with clu := v }) := by
  simp only [partWrite, hen, Bool.false_eq_true, if_false]

theorem artWrite_base_disabled (hen : (artOf s n).en = false) :
    artWrite s n 0 v = putArt s n { artOf s n with base := v.extractLsb' 8 44 } := by
  simp only [artWrite, hen, Bool.false_eq_true, if_false]

theorem artWrite_lim_disabled (hen : (artOf s n).en = false) :
    artWrite s n 1 v = putArt s n { artOf s n with lim := v.extractLsb' 8 44 } := by
  simp only [artWrite, hen, Bool.false_eq_true, if_false]

theorem hamctlWrite_inRange (hdly : v.extractLsb' 32 32 ≠ 0) (hth : v.extractLsb' 0 16 ≠ 0) :
    hamctlWrite s n v = s.updDie n (fun x => { x with dly := v.extractLsb' 32 32, th := v.extractLsb' 0 16 }) :=
  if_neg (by simp only [Bool.or_eq_true, decide_eq_true_eq, hdly, hth, or_self, not_false_eq_true])

/-! ## The BAR of a VF (Table 12.4, R278, R298) -/

section VfBar
variable {x : W64}

theorem vfBarWrite_closed (ho : barOpen s n x = false) (off : Nat) : vfBarWrite s n x off v = hostUr s x := by
  rw [vfBarWrite, barReq, ho]; rfl

theorem vfBarWrite_queue (ho : barOpen s n x = true) (hsave : off ≠ 0x1A0) (hload : off ≠ 0x1A8) :
    vfBarWrite s n x off v = queueWrite s n off v := by
  simp only [vfBarWrite, barReq, ho, if_true]

theorem vfBarWrite_gswSave (ho : barOpen s n x = true) :
    vfBarWrite s n x 0x1A0 v = s.updVf n (fun f => { f with gswSave := v }) := by
  simp only [vfBarWrite, barReq, ho, if_true]

theorem vfBarWrite_gswLoad (ho : barOpen s n x = true) :
    vfBarWrite s n x 0x1A8 v = s.updVf n (fun f => { f with gswLoad := v }) := by
  simp only [vfBarWrite, barReq, ho, if_true]

theorem queueWrite_eqhead (hn : n < 1024) :
    queueWrite s n 0x30 v = s.updVf n (fun f => { f with q := { f.q with eqhead := v.setWidth 32 } }) :=
  updQueues_vf hn (fun q => { q with eqhead := v.setWidth 32 })

theorem queueWrite_eqctl (hn : n < 1024) :
    queueWrite s n 0x38 v = s.updVf n (fun f =>
      { f with q := { f.q with modus := v.extractLsb' 16 16, ien := v.getLsbD 8, vec := v.extractLsb' 0 2 } }) :=
  updQueues_vf hn (fun q => { q with modus := v.extractLsb' 16 16, ien := v.getLsbD 8, vec := v.extractLsb' 0 2 })

theorem queueWrite_vfstat (hn : n < 1024) :
    queueWrite s n 0x40 v = if v.getLsbD 3 then s.updVf n (fun f => { f with q := { f.q with cfgerr := false } }) else s := by
  rw [← updQueues_vf hn (fun q => { q with cfgerr := false }), queueWrite]

end VfBar

/-! ## The claims -/

theorem registerWritesReachTheirRegisters : Claims.RegisterWritesReachTheirRegisters := by
  intro s v x n writes bar
  refine ⟨fun hn hx ho => ?openBar, fun hn hx ho off => ?closedBar, fun hn hfree => ?vf, fun hn => ?part,
    fun hn hfree hen => ?art, fun hn => ?window, fun hn hdly hth => ?hamctl, ?atomEn, ?pfid, ?ready0, ?pwrstat⟩
  case openBar =>
    have bar_of {off : W64} {t : State} (h : vfBarWrite s n x off.toNat v = t) : bar off t :=
      (exec_registerWrite_vf hn hx off v s).trans (congrArg _ h)
    have queue_of {off : W64} {t : State} (h : queueWrite s n off.toNat v = t) (hsave : off.toNat ≠ 0x1A0)
        (hload : off.toNat ≠ 0x1A8) : bar off t := bar_of ((vfBarWrite_queue ho hsave hload).trans h)
    exact ⟨queue_of (queueWrite_eqhead hn) (by decide) (by decide), queue_of (queueWrite_eqctl hn) (by decide) (by decide),
      queue_of (queueWrite_vfstat hn) (by decide) (by decide), bar_of (vfBarWrite_gswSave ho), bar_of (vfBarWrite_gswLoad ho),
      queue_of rfl (by decide) (by decide)⟩
  case closedBar => exact (exec_registerWrite_vf hn hx off v s).trans (congrArg _ (vfBarWrite_closed ho _))
  case vf =>
    refine ⟨?_, ?_, fun hen => ?_, fun hen => ?_⟩
    · exact exec_registerWrite_unit (by omega) (by omega) ((unitWrite_ctxbase hn).trans (ctxbaseWrite_free hfree))
    · exact exec_registerWrite_cfgSpace (by omega) (by omega) ((if_pos hn).trans (guardWrite_free hfree _))
    · exact exec_registerWrite_unit (by omega) (by omega) ((unitWrite_ptroot hn).trans (ptrootWrite_disabled hfree hen))
    · exact exec_registerWrite_unit (by omega) (by omega) ((unitWrite_ptroot hn).trans (ptrootWrite_enabled hfree hen))
  case part =>
    refine ⟨exec_registerWrite_unit (by omega) (by omega) (unitWrite_qnpol hn), fun hfree => ⟨?_, fun hen => ?_⟩⟩
    · exact exec_registerWrite_unit (by omega) (by omega) ((unitWrite_schedbase hn).trans (guardWrite_free hfree _))
    · exact exec_registerWrite_unit (by omega) (by omega)
        ((unitWrite_part (r := 0) hn (by decide)).trans ((guardWrite_free hfree _).trans (partWrite_clu_disabled hen)))
  case art =>
    refine ⟨exec_registerWrite_pf (by omega) ?_, exec_registerWrite_pf (by omega) ?_⟩
    · exact (pfBarWrite_art (r := 0) hn (by decide)).trans ((guardWrite_free hfree _).trans (artWrite_base_disabled hen))
    · rw [show 0x20008 + 32 * n = 0x20000 + 32 * n + 8 * 1 by omega]
      exact (pfBarWrite_art hn (by decide)).trans ((guardWrite_free hfree _).trans (artWrite_lim_disabled hen))
  case window =>
    intro w hfree
    exact ⟨exec_registerWrite_unit (o := 0xF000 + 32 * n + 8 * 0) (by omega) (by omega)
        ((unitWrite_win hn (by decide)).trans (guardWrite_free hfree _)),
      exec_registerWrite_unit (o := 0xF000 + 32 * n + 8 * 2) (by omega) (by omega)
        ((unitWrite_win hn (by decide)).trans (guardWrite_free hfree _))⟩
  case hamctl =>
    exact exec_registerWrite_unit (by omega) (by omega) ((unitWrite_hamctl hn).trans (hamctlWrite_inRange hdly hth))
  case atomEn => exact exec_registerWrite_cfgSpace (n := 1024) (by decide) (by decide) rfl
  case pfid => exact exec_registerWrite_pf (by decide) rfl
  case ready0 => exact exec_registerWrite_pf (by decide) rfl
  case pwrstat => exact exec_registerWrite_pf (by decide) rfl

theorem frozenRegistersTakeTheTdiToError : Claims.FrozenRegistersTakeTheTdiToError := by
  intro s n d v f i
  refine ⟨fun hi hf => ?partition, fun hi hv hen hf => ?art, tdi_tdiError s f⟩
  case partition =>
    have hpart : decide (64 ≤ i) = false := decide_eq_false (Nat.not_le.2 hi)
    refine ⟨fun hd => ?wshare, ?schedctl, fun hen hv => ?partEnable, fun hen hv => ?partDisable⟩
    case wshare =>
      have hdie : decide (4 ≤ d.toNat) = false := decide_eq_false (Nat.not_le.2 hd)
      have htaken : ¬(decide (64 ≤ i) || decide (4 ≤ d.toNat)) = true := by rw [hpart, hdie]; decide
      exact congrArg _ ((if_neg htaken).trans (guardWrite_locked hf _))
    case schedctl =>
      have htaken : ¬decide (64 ≤ i) = true := by rw [hpart]; decide
      exact congrArg _ ((if_neg htaken).trans (guardWrite_locked hf _))
    case partEnable =>
      have htaken : ¬(decide (64 ≤ i) || !v.getLsbD 63 || (s.part i).en) = true := by rw [hpart, hv, hen]; decide
      exact congrArg _ ((if_neg htaken).trans (guardWrite_locked hf _))
    case partDisable =>
      have htaken : ¬(decide (64 ≤ i) || v.getLsbD 63 || !(s.part i).en) = true := by rw [hpart, hv, hen]; decide
      exact congrArg _ ((if_neg htaken).trans (guardWrite_locked hf _))
  case art =>
    have hart : decide (16 ≤ i) = false := decide_eq_false (Nat.not_le.2 hi)
    have htaken : ¬(decide (16 ≤ i) || !v.getLsbD 63 || (artOf s i).en) = true := by rw [hart, hv, hen]; decide
    exact congrArg _ ((if_neg htaken).trans (guardWrite_locked hf _))

/-- Settles O33: each register's write is located by the address map and then read off its own lemma, and the guard of
the frozen registers answers for the others. -/
theorem registerWritesAndFrozenRegisters : Obligations.RegisterWritesAndFrozenRegisters :=
  ⟨registerWritesReachTheirRegisters, frozenRegistersTakeTheTdiToError⟩

end Sys2Proof.Machine
end

section
/-! PROOFS. What one step does with each item that can stand at the head of the schedule (log entry 1). -/

namespace Sys2Proof.Machine

variable {s : State} {rest : List StepItem} {t n : Nat}

/-! ## The schedule -/

theorem step_of_agenda_nil (h : s.agenda = []) : step s = .next (tick s 1) := by
  simp only [step, h]

theorem step_of_agenda_cons {x : StepItem} (h : s.agenda = x :: rest) : step s = stepItem { s with agenda := rest } x := by
  simp only [step, h]

/-! ## The slots of a tile (R14, R247) -/

@[simp] theorem fetch_agenda (s : State) (rest : List StepItem) (t n : Nat) : fetch { s with agenda := rest } t n = fetch s t n := rfl

theorem step_fire_noSlot (h : s.agenda = .fire t n :: rest) (hout : 2048 ≤ t ∨ 128 ≤ n) : step s = .fault (.noSuchSlot t n) :=
  (step_of_agenda_cons h).trans (if_pos hout)

theorem step_fire_empty (h : s.agenda = .fire t n :: rest) (ht : t < 2048) (hn : n < 128) (hw : fetch s t n = none) :
    step s = .next { s with agenda := rest } := by
  have hslot : ¬(2048 ≤ t ∨ 128 ≤ n) := by omega
  simp only [step_of_agenda_cons h, stepItem, if_neg hslot, fetch_agenda, hw]

theorem step_fire_stake {w : StakeWord} {r : Except DecodeError Instr} (h : s.agenda = .fire t n :: rest) (ht : t < 2048)
    (hn : n < 128) (hw : fetch s t n = some w) (hd : decodeStake w = r) : step s = runAt { s with agenda := rest } t n r := by
  have hslot : ¬(2048 ≤ t ∨ 128 ≤ n) := by omega
  simp only [step_of_agenda_cons h, stepItem, if_neg hslot, fetch_agenda, hw, hd]

/-! ## Device steps and the passing of time -/

theorem step_event {w : StepWord} {r : Except DecodeError Instr} (h : s.agenda = .event t w :: rest) (hd : decode w = r) :
    step s = runAt { s with agenda := rest } t 0 r :=
  (step_of_agenda_cons h).trans (congrArg (runAt _ t 0) hd)

theorem tick_frame (s : State) (n : Nat) :
    (tick s n).clk = s.clk + n ∧ (tick s n).agenda = s.agenda ∧ (tick s n).mem = s.mem ∧ (tick s n).net = s.net :=
  ⟨rfl, rfl, rfl, rfl⟩

/-- Settles O3: the head of the schedule goes to its item's lemma, and a fetched word to what its decoding gives. -/
theorem stepRunsTheScheduledInstruction : Obligations.StepRunsTheScheduledInstruction := by
  intro s rest t n w ew i e
  refine ⟨fun h ht hn hw hd => ?stake, fun h hd => ?event, fun h ht hn hw => ?empty, fun h ht hn hw hd => ?badStake,
    fun h hd => ?badEvent, fun h hout => ?noSlot, fun h => ?wait, fun h => ?idle⟩
  case stake => exact step_fire_stake h ht hn hw hd
  case event => exact step_event h hd
  case empty => exact step_fire_empty h ht hn hw
  case badStake => exact step_fire_stake h ht hn hw hd
  case badEvent => exact step_event h hd
  case noSlot => exact step_fire_noSlot h hout
  case wait => exact ⟨_, step_of_agenda_cons h, tick_frame { s with agenda := rest } n⟩
  case idle =>
    obtain ⟨hclk, hagenda, hmem, hnet⟩ := tick_frame s 1
    exact ⟨_, step_of_agenda_nil h, hclk, hagenda.trans h, hmem, hnet⟩

end Sys2Proof.Machine
end

section
/-! PROOFS. RDCTL, RDTIME and WRCTL (Table 13.7): what a begun firing leaves as it stood, each control register read and
written, and the claim assembled from them. -/

namespace Sys2Proof.Machine

variable {s : State} {f : Fire} {c : Common} {ctl : BitVec 8} {k : Colour} {n : Nat} {v : W64}

/-! ## What a begun firing leaves as it stood -/

theorem setDirty_changes_tiles (s : State) (k : Colour) (lt : Nat) (bits : List Nat) :
    ∃ ts, setDirty s k lt bits = { s with tiles := ts } := by
  unfold setDirty
  split
  · exact ⟨s.tiles, rfl⟩
  · split
    · exact ⟨s.tiles, rfl⟩
    · exact ⟨_, rfl⟩

theorem putStake_changes_tiles (s : State) (c : BitVec 12) (st : StakeSt) : ∃ ts, putStake s c st = { s with tiles := ts } := by
  unfold putStake
  split
  · obtain ⟨ts, hts⟩ := setDirty_changes_tiles (s.updTile _ _) _ _ _
    exact ⟨ts, hts⟩
  · exact ⟨s.tiles, rfl⟩

/-- A colour once a firing of one of its stakes has been counted at `clk` (R243, R245, R272). -/
def Colour.countFiring (clk : Nat) (k : Colour) : Colour :=
  { k with fired := k.fired + 1, fireLog := clk :: k.fireLog.filter (fun t => clk < t + 65536),
           wdFrom := clk, wdExt := false, wdPosted := false }

theorem begun_changes_tiles_and_count (f : Fire) (s : State) :
    ∃ ts, f.begun s = { s with tiles := ts }.updCol f.colour.toNat (Colour.countFiring s.clk) := by
  obtain ⟨ts, hts⟩ := putStake_changes_tiles s f.colour { takeSet f.st f.ops with fresh := false }
  rw [Fire.begun, Fire.begunWith, hts]
  exact ⟨_, rfl⟩

@[simp] theorem begun_clk (f : Fire) (s : State) : (f.begun s).clk = s.clk := by
  obtain ⟨ts, hts⟩ := begun_changes_tiles_and_count f s
  rw [hts]; rfl

@[simp] theorem begun_part (f : Fire) (s : State) (p : Nat) : (f.begun s).part p = s.part p := by
  obtain ⟨ts, hts⟩ := begun_changes_tiles_and_count f s
  rw [hts]; rfl

theorem begun_col? (hk : s.col? f.colour.toNat = some k) :
    (f.begun s).col? f.colour.toNat = some (k.countFiring s.clk) := by
  obtain ⟨ts, hts⟩ := begun_changes_tiles_and_count f s
  have hts' : ({ s with tiles := ts } : State).col? f.colour.toNat = some k := hk
  rw [hts, col_updCol, if_pos rfl, hts', Option.map_some]

/-- A change of a bound colour depends on what it makes of that colour alone. -/
theorem updCol_congr {g g' : Colour → Colour} (hk : s.col? n = some k) (hg : g k = g' k) : s.updCol n g = s.updCol n g' := by
  rw [State.col?] at hk
  simp only [State.updCol, mapUpd, hk, hg]

/-! ## The registers of Table 13.7 -/

theorem ctlRead_barcnt (hlo : 16 ≤ n) (hhi : n < 32) : ctlRead k n = (mapGet k.bars (n - 16) Barrier.reset).word := by
  have hin : 0x10 ≤ n ∧ n < 0x20 := ⟨hlo, hhi⟩
  simp (disch := omega) only [ctlRead, if_neg, if_pos hin]

theorem ctlWrite_fpctl (h : fpctlOk v = true) : ctlWrite s k 0 v = some { k with fpctl := v &&& 0x7FF } := if_pos h

theorem ctlWrite_fpctl_bad (h : fpctlOk v = false) : ctlWrite s k 0 v = none := if_neg (Bool.eq_false_iff.1 h)

theorem ctlWrite_spillbase (h : spillbaseOk v = true) : ctlWrite s k 3 v = some { k with spillbase := v &&& ~~~0xFC0 } := if_pos h

theorem ctlWrite_spillbase_bad (h : spillbaseOk v = false) : ctlWrite s k 3 v = none := if_neg (Bool.eq_false_iff.1 h)

theorem ctlWrite_msquota (h : msquotaOk v = true) : ctlWrite s k 4 v = some { k with quota := v.setWidth 13 } := if_pos h

theorem ctlWrite_msquota_bad (h : msquotaOk v = false) : ctlWrite s k 4 v = none := if_neg (Bool.eq_false_iff.1 h)

theorem ctlWrite_trapvec (h : trapvecOk (s.part k.part) v = true) : ctlWrite s k 5 v = some { k with trapvec := v } := if_pos h

theorem ctlWrite_trapvec_bad (h : trapvecOk (s.part k.part) v = false) : ctlWrite s k 5 v = none := if_neg (Bool.eq_false_iff.1 h)

theorem ctlWrite_barcnt (hlo : 16 ≤ n) (hhi : n < 32) :
    ctlWrite s k n v = some { k with bars := mapPut k.bars (n - 16) { mapGet k.bars (n - 16) Barrier.reset with
      broken := (mapGet k.bars (n - 16) Barrier.reset).broken && !v.getLsbD 31 } } := by
  have hin : 0x10 ≤ n ∧ n < 0x20 := ⟨hlo, hhi⟩
  simp (disch := omega) only [ctlWrite, if_neg, if_pos hin]

theorem ctlWrite_readOnly (h : 32 ≤ n) : ctlWrite s k n v = none := by
  simp (disch := omega) only [ctlWrite, if_neg]

/-! ## The registers in the low 64 bits of DATA -/

theorem time_setWidth (s : State) : s.time.setWidth 512 = BitVec.ofNat 512 (s.clk * 2 / 3 % 2 ^ 64) := by
  apply BitVec.eq_of_toNat_eq
  rw [State.time, timebase, BitVec.toNat_setWidth, BitVec.toNat_ofNat, BitVec.toNat_ofNat]

theorem msquota_setWidth (k : Colour) : (ctlRead k 4).setWidth 512 = BitVec.ofNat 512 (k.quota.toNat + k.spills.toNat * 2 ^ 16) :=
  BitVec.setWidth_ofNat_of_le_of_lt (by decide) (by have := k.quota.isLt; have := k.spills.isLt; omega)

theorem barrierWord_setWidth (b : Barrier) : b.word.setWidth 512 = BitVec.ofNat 512 (b.expect.toNat + b.arrived.toNat * 2 ^ 16 +
    b.broken.toNat * 2 ^ 31 + b.gen.toNat * 2 ^ 32) :=
  BitVec.setWidth_ofNat_of_le_of_lt (by decide) (by
    have := b.expect.isLt; have := b.arrived.isLt; have := b.broken.toNat_le; have := b.gen.isLt; omega)

/-! ## The three instructions -/

theorem emits_rdtime (h : Fires destsReady s f) : Emits (.rdtime c) s f (BitVec.ofNat 512 (s.clk * 2 / 3 % 2 ^ 64)) 0 := by
  have htime : (f.begun s).time.setWidth 512 = BitVec.ofNat 512 (s.clk * 2 / 3 % 2 ^ 64) := by rw [time_setWidth, begun_clk]
  rw [Emits, ← htime]
  exact congrArg _ (fireResult_of_fires h _ _)

theorem emits_rdctl {x : W512} (h : Fires destsReady s f) (hn : ctl.toNat = n) (hx : (ctlRead f.k n).setWidth 512 = x) :
    Emits (.rdctl c ctl) s f x 0 := by
  rw [Emits, ← hx, ← hn]
  exact congrArg _ (fireResult_of_fires h _ _)

theorem exec_wrctl_of_accepted (h : Fires destsReady s f) (hk : s.col? f.colour.toNat = some f.k) (hn : ctl.toNat = n)
    {g : Colour → Colour} {r : W64}
    (hw : ctlWrite (f.begun s) (f.k.countFiring s.clk) n (n64 (f.src c.sa 0) 0) = some (g (f.k.countFiring s.clk)))
    (hr : ctlRead (g (f.k.countFiring s.clk)) n = r) :
    exec (.wrctl c ctl) s = .next (f.done (emitResult ((f.begun s).updCol f.colour.toNat g) f (f.token (r.setWidth 512) 0))) := by
  have hcol := begun_col? hk
  have hset := updCol_congr (g := fun _ => g (f.k.countFiring s.clk)) (g' := g) hcol rfl
  show execWrctl c ctl s = _
  simp only [execWrctl, runFire_of_fires h, hcol, hn, hw, hr, hset]

theorem traps_wrctl_of_refused (h : Fires destsReady s f) (hk : s.col? f.colour.toNat = some f.k) (hn : ctl.toNat = n)
    (hw : ctlWrite (f.begun s) (f.k.countFiring s.clk) n (n64 (f.src c.sa 0) 0) = none) : Traps (.wrctl c ctl) s f cILLOP := by
  show execWrctl c ctl s = _
  simp only [execWrctl, runFire_of_fires h, begun_col? hk, hn, hw]

/-- Settles O27: each register's own read and write lemma, through what RDCTL emits and what WRCTL does with an accepted and a
refused value. -/
theorem controlRegistersReadAndWrite : Obligations.ControlRegistersReadAndWrite := by
  intro s f c ctl h hk n v writes
  refine ⟨emits_rdtime h, fun hn => emits_rdctl h hn rfl, fun hn => emits_rdctl h hn rfl, fun hn => emits_rdctl h hn rfl,
    fun hn => emits_rdctl h hn (msquota_setWidth f.k), fun hn => emits_rdctl h hn rfl, fun hlo hhi => ?readBarcnt,
    fun hn hok => ?fpctl, fun hn hbad => ?fpctlBad, fun hn => ?colkey, fun hn hok => ?spillbase, fun hn hbad => ?spillbaseBad,
    fun hn hok => ?msquota, fun hn hbad => ?msquotaBad, fun hn hok => ?trapvec, fun hn hbad => ?trapvecBad,
    fun hlo hhi => ?barcnt, fun hro => ?readOnly⟩
  case readBarcnt => exact emits_rdctl h rfl ((congrArg _ (ctlRead_barcnt hlo hhi)).trans (barrierWord_setWidth _))
  case fpctl => exact exec_wrctl_of_accepted h hk hn (ctlWrite_fpctl hok) rfl
  case fpctlBad => exact traps_wrctl_of_refused h hk hn (ctlWrite_fpctl_bad hbad)
  case colkey => exact exec_wrctl_of_accepted h hk hn rfl rfl
  case spillbase => exact exec_wrctl_of_accepted h hk hn (ctlWrite_spillbase hok) rfl
  case spillbaseBad => exact traps_wrctl_of_refused h hk hn (ctlWrite_spillbase_bad hbad)
  case msquota =>
    refine exec_wrctl_of_accepted h hk hn (ctlWrite_msquota hok) ?_
    show BitVec.ofNat 64 ((v.setWidth 13).toNat + f.k.spills.toNat * 2 ^ 16) = _
    rw [BitVec.toNat_setWidth]
  case msquotaBad => exact traps_wrctl_of_refused h hk hn (ctlWrite_msquota_bad hbad)
  case trapvec => exact exec_wrctl_of_accepted h hk hn (ctlWrite_trapvec ((begun_part f s _).symm ▸ hok)) rfl
  case trapvecBad => exact traps_wrctl_of_refused h hk hn (ctlWrite_trapvec_bad ((begun_part f s _).symm ▸ hbad))
  case barcnt =>
    refine exec_wrctl_of_accepted h hk rfl (ctlWrite_barcnt hlo hhi) ?_
    rw [ctlRead_barcnt hlo hhi]
    exact congrArg _ (mapGet_mapPut_same _ _ _ _)
  case readOnly => exact traps_wrctl_of_refused h hk rfl (ctlWrite_readOnly hro)

end Sys2Proof.Machine
end

section
/-! PROOFS. Migration rounds (R238) and the move of one stake (R239, R240, Table 10.7). -/

namespace Sys2Proof.Machine

variable {s : State} {colour lstake tile slot : W64} {c : BitVec 12} {k : Colour} {st : StakeSt} {frm fslot tl sl : Nat}

/-! ## Migration rounds (R238) -/

/-- A migration round is due: MIGEN allows it, and the one before it started at least 65,536 clk ago. -/
def MigrationDue (s : State) (k : Colour) : Prop :=
  (s.part k.part).migen = true ∧ ∀ w at_, k.mig = some (w, at_) → at_ + 65536 ≤ s.clk

theorem exec_migrationRound_held (hk : s.col? (colour.setWidth 12 : BitVec 12).toNat = some k)
    (h : ¬MigrationDue s k ∨ k.cut ≠ none ∨ k.running = false) : exec (.migrationRound colour) s = .next s := by
  show execMigrationRound colour s = _
  rw [execMigrationRound, hk]
  refine congrArg Host.Outcome.next (if_neg fun hall => ?_)
  simp only [Bool.and_eq_true, Option.isNone_iff_eq_none] at hall
  obtain ⟨⟨⟨⟨hen, hold⟩, hcut⟩, -⟩, hrun⟩ := hall
  have hdue : MigrationDue s k := ⟨hen, fun w at_ hm => by rw [hm] at hold; exact of_decide_eq_true hold⟩
  rcases h with hnot | hround | hstill
  · exact hnot hdue
  · exact hround hcut
  · exact Bool.eq_false_iff.1 hstill hrun

theorem exec_migrationRound_starts {k1 : Colour} (hk : s.col? (colour.setWidth 12 : BitVec 12).toNat = some k)
    (hdue : MigrationDue s k) (hcut : k.cut = none) (hwant : k.want = none) (hrun : k.running = true)
    (hk1 : (injectMarker s (colour.setWidth 12) k .round).col? (colour.setWidth 12 : BitVec 12).toNat = some k1)
    (hin : k1.cut ≠ none ∨ k1.round ≠ k.round) :
    exec (.migrationRound colour) s = .next ((injectMarker s (colour.setWidth 12) k .round).updCol
      (colour.setWidth 12 : BitVec 12).toNat (fun x => { x with mig := some (k.round + 1, s.clk), moves := 0 })) := by
  obtain ⟨hen, hold⟩ := hdue
  have hwent : (k1.cut.isSome || k1.round != k.round) = true := by
    simpa only [Bool.or_eq_true, Option.isSome_iff_ne_none, bne_iff_ne] using hin
  show execMigrationRound colour s = _
  cases hm : k.mig with
  | none => simp only [execMigrationRound, hk, hm, hen, hcut, hwant, hrun, hk1, hwent, Option.isNone_none, Bool.and_self, if_true]
  | some x =>
    have hpast : decide (x.2 + 65536 ≤ s.clk) = true := decide_eq_true (hold x.1 x.2 hm)
    simp only [execMigrationRound, hk, hm, hpast, hen, hcut, hwant, hrun, hk1, hwent, Option.isNone_none, Bool.and_self, if_true]

/-! ## A bank with one slot changed -/

@[simp] theorem Tile.setActive_active (t : Tile) (b : Bank) : (t.setActive b).active = b := by
  cases h : t.sel <;> simp only [Tile.setActive, Tile.active, h, if_true, Bool.false_eq_true, if_false]

theorem Tile.updBank_active {t : Tile} {c : BitVec 12} (h : t.active.colour = some c) (g : Bank → Bank) :
    (t.updBank c g).active = g t.active := by
  rw [Tile.updBank, if_pos h, Tile.setActive_active]

/-! ## The move of a stake (R239, R240) -/

/-- What R238 and R14 ask of a move, as far as the stake, its round and the tile that takes it show. -/
theorem mayMove_requires (h : mayMove s c k st frm tl sl = true) :
    st.fresh = true ∧ st.fix = false ∧ k.running = true ∧ k.moves < (s.part k.part).migmax.toNat ∧
      (s.tile tl).active.colour = some c ∧ (tl = frm ∨ (s.tile tl).poolGiven + st.depths ≤ 1024) := by
  simp only [mayMove, Bool.and_eq_true, Bool.or_eq_true, decide_eq_true_eq, beq_iff_eq, Bool.not_eq_true'] at h
  obtain ⟨⟨⟨⟨⟨⟨⟨⟨⟨⟨⟨hfresh, -⟩, hmoves⟩, -⟩, hrun⟩, hfix⟩, -⟩, hbank⟩, -⟩, -⟩, -⟩, htakes⟩ := h
  exact ⟨hfresh, hfix, hrun, hmoves, hbank, htakes.imp id fun ⟨⟨_, hpool⟩, _⟩ => hpool⟩

theorem exec_stakeMove_held (hk : s.col? (colour.setWidth 12 : BitVec 12).toNat = some k)
    (hs : findStake s (colour.setWidth 12) (lstake.setWidth 16) = some (frm, fslot, st))
    (h : mayMove s (colour.setWidth 12) k st frm tile.toNat slot.toNat = false ∨ moveDrained s (colour.setWidth 12) frm st = false) :
    exec (.stakeMove colour lstake tile slot) s = .next s := by
  show execStakeMove colour lstake tile slot s = _
  have hno : ¬(mayMove s (colour.setWidth 12) k st frm tile.toNat slot.toNat && moveDrained s (colour.setWidth 12) frm st) = true := by
    rcases h with h | h <;> simp only [h, Bool.false_and, Bool.and_false, Bool.false_eq_true, not_false_eq_true]
  simp only [execStakeMove, hk, hs, if_neg hno]

theorem exec_stakeMove_moves (hk : s.col? (colour.setWidth 12 : BitVec 12).toNat = some k)
    (hs : findStake s (colour.setWidth 12) (lstake.setWidth 16) = some (frm, fslot, st))
    (hmay : mayMove s (colour.setWidth 12) k st frm tile.toNat slot.toNat = true)
    (hdry : moveDrained s (colour.setWidth 12) frm st = true) :
    exec (.stakeMove colour lstake tile slot) s = .next (moveStake s (colour.setWidth 12) st frm fslot tile.toNat slot.toNat) := by
  show execStakeMove colour lstake tile slot s = _
  simp only [execStakeMove, hk, hs, hmay, hdry, Bool.and_self, if_true]

@[simp] theorem tile_updCol (s : State) (n : Nat) (g : Colour → Colour) (t : Nat) : (s.updCol n g).tile t = s.tile t := rfl

section MoveStake

variable (s c st frm fslot tl sl)

@[simp] theorem moveStake_mem : (moveStake s c st frm fslot tl sl).mem = s.mem := rfl

@[simp] theorem moveStake_net : (moveStake s c st frm fslot tl sl).net = s.net := rfl

@[simp] theorem moveStake_reqs : (moveStake s c st frm fslot tl sl).reqs = s.reqs := rfl

/-- The colour counts the move and remaps the stake. -/
theorem moveStake_col? : (moveStake s c st frm fslot tl sl).col? c.toNat = (s.col? c.toNat).map (fun k => { k with
    smap := mapUpd k.smap st.lstake.toNat (fun e => { e with ptile := tl, pslot := sl }), moves := k.moves + 1 }) := by
  rw [moveStake, col_updCol, if_pos rfl]
  rfl

/-- The tile that takes the stake has it in its new slot, behind its own rows and early tokens the stake's. -/
theorem moveStake_tile_to (h : tl ≠ frm) : (moveStake s c st frm fslot tl sl).tile tl =
    { (s.tile tl).updBank c (fun b => { b with slots := mapPut b.slots sl { st with fresh := false } }) with
      rows := (s.tile tl).rows ++ (s.tile frm).rows.filter (fun t => t.colour == c && t.lstake == st.lstake)
      early := (s.tile tl).early ++ (s.tile frm).early.filter (fun i => i.tok.colour == c && i.tok.lstake == st.lstake) } := by
  simp only [moveStake, tile_updCol, tile_updTile_same, tile_updTile_ne _ _ h]

/-- The tile that the stake leaves has neither its slot nor its rows nor its early tokens. -/
theorem moveStake_tile_from (h : tl ≠ frm) : (moveStake s c st frm fslot tl sl).tile frm =
    { (s.tile frm).updBank c (fun b => { b with slots := mapDel b.slots fslot }) with
      rows := (s.tile frm).rows.filter (fun t => !(t.colour == c && t.lstake == st.lstake))
      early := (s.tile frm).early.filter (fun i => !(i.tok.colour == c && i.tok.lstake == st.lstake)) } := by
  simp only [moveStake, tile_updCol, tile_updTile_same, tile_updTile_ne _ _ h.symm]

end MoveStake

/-- In a tile whose active bank is the colour's, the stake stands in its new slot and has not fired since. -/
theorem moveStake_slot (h : tl ≠ frm) (hc : (s.tile tl).active.colour = some c) :
    mapGet? ((moveStake s c st frm fslot tl sl).tile tl).active.slots sl = some { st with fresh := false } := by
  rw [moveStake_tile_to (h := h)]
  show mapGet? ((s.tile tl).updBank c _).active.slots sl = _
  rw [Tile.updBank_active hc, mapGet?_mapPut_same]

/-! ## The claim -/

/-- Settles O51: a round starts where it is due and nothing is in flight, and a stake moves where `mayMove` and `moveDrained` let it. -/
theorem stakesMigrateInMigrationRounds : Obligations.StakesMigrateInMigrationRounds := by
  intro s colour lstake tile slot k frm fslot st c l tl sl mine due entries hk
  refine ⟨exec_migrationRound_held hk, fun hdue hcut hwant hrun _ k1 hk1 hin =>
    exec_migrationRound_starts hk hdue hcut hwant hrun hk1 hin, fun hs => ⟨fun hmay hdry => ?moves, exec_stakeMove_held hk hs, ?keeps⟩⟩
  case moves =>
    obtain ⟨-, -, -, -, hbank, -⟩ := mayMove_requires hmay
    refine ⟨_, exec_stakeMove_moves hk hs hmay hdry, fun k' hk' => ?_, moveStake_mem .., moveStake_net ..,
      moveStake_reqs .., fun hne => ⟨?_, ?_, ?_, moveStake_slot hne hbank⟩⟩
    · rw [moveStake_col?, hk, Option.map_some, Option.some_inj] at hk'
      subst hk'
      exact ⟨rfl, rfl⟩
    · rw [moveStake_tile_to (h := hne)]
    · rw [moveStake_tile_from (h := hne)]
    · rw [moveStake_tile_to (h := hne)]
  case keeps =>
    intro hwhy
    refine Bool.eq_false_iff.2 fun hmay => ?_
    obtain ⟨hfresh, hfix, hrun, hmoves, -, hpool⟩ := mayMove_requires hmay
    rcases hwhy with h | h | h | h | ⟨hne, h⟩
    · exact Bool.eq_false_iff.1 hfix h
    · exact Bool.eq_false_iff.1 h hfresh
    · exact Bool.eq_false_iff.1 h hrun
    · omega
    · rcases hpool with htl | hroom
      · exact hne htl
      · omega

end Sys2Proof.Machine
end

section
/-! PROOFS. Lanes that a float firing emits, and NaN operands of FADD, FSUB, FMUL and FDIV (R101). -/

namespace Sys2Proof.Machine

variable {s : State} {f : Fire} {c : Common} {imm : BitVec 32} {i : Instr} {t sty : Ty} {n : Nat} {env : FpEnv} {a b v : FVal}

/-! ## The lanes of a float firing (R352 to R354) -/

theorem width_mul_lanes_le (t : Ty) : t.width * t.lanes ≤ 512 := Nat.mul_div_le 512 t.width

theorem width_le (t : Ty) : t.width ≤ 512 := by cases t <;> decide

theorem width_mul_laneCount_le (c : Common) : c.ty.width * laneCount c ≤ 512 := by
  unfold laneCount
  split
  · exact width_mul_lanes_le c.ty
  · exact Nat.le_trans (Nat.le_of_eq (Nat.mul_one _)) (width_le c.ty)

theorem width_mul_laneCount2_le (c : Common) (sty : Ty) : c.ty.width * laneCount2 c sty ≤ 512 := by
  unfold laneCount2
  split
  · exact Nat.le_trans (Nat.mul_le_mul_left _ (Nat.min_le_left ..)) (width_mul_lanes_le c.ty)
  · exact Nat.le_trans (Nat.le_of_eq (Nat.mul_one _)) (width_le c.ty)

theorem length_range_map {α : Type} (g : Nat → α) (n : Nat) : ((List.range n).map g).length = n := by
  rw [List.length_map, List.length_range]

theorem getD_range_map {α : Type} (g : Nat → α) {n p : Nat} (h : p < n) (d : α) : ((List.range n).map g).getD p d = g p := by
  rw [List.getD_eq_getElem?_getD, List.getElem?_map, List.getElem?_range h, Option.map_some, Option.getD_some]

theorem lanesAre_ofLanes {w : Nat} {g : Nat → Nat} (h : w * n ≤ 512) :
    LanesAre w n (ofLanes w ((List.range n).map g)) (fun k => g k % 2 ^ w) := by
  have hlen : w * ((List.range n).map g).length ≤ 512 := by rwa [length_range_map]
  refine ⟨fun k hk => ?_, ?_⟩
  · rw [lane_ofLanes hlen, getD_range_map g hk]
  · have hlt := ofLanes_lt hlen
    rwa [length_range_map] at hlt

/-- A firing that emits the lanes of `g` with their flags. -/
theorem emitsFloat_of_fireFlags {g : Nat → Nat × Flags} {fmt : BitVec 3} (h : Fires destsReady s f) (hw : t.width * n ≤ 512)
    {val : Fire → W512 × Flags} (hexec : exec i s = .next (fireFlags val fmt s))
    (hval : val f = withFlags t.width ((List.range n).map g)) : EmitsFloat i s f t n fmt g := by
  refine ⟨ofLanes t.width ((List.range n).map fun k => (g k).1), ?_, lanesAre_ofLanes hw⟩
  rw [hexec, fireFlags_of_fires h, hval]
  simp only [withFlags, List.map_map, List.foldl_map, Function.comp_def]

/-- The mould of R354 emits one lane for each pair, or triple, of operand lanes. -/
theorem emitsFloat_of_floatLanes {op : FpEnv → Nat → Nat → Nat → Nat × Flags} {fmt : BitVec 3} (h : Fires destsReady s f)
    (hexec : exec i s = .next (fireFlags (floatLanes c imm op) fmt s)) :
    EmitsFloat i s f c.ty (laneCount c) fmt (fun k =>
      op (f.env c.rnd false) (f.lane c.ty imm c.sa 0 k) (f.lane c.ty imm c.sb 1 k) (f.lane c.ty imm c.sc 2 k)) :=
  emitsFloat_of_fireFlags h (width_mul_laneCount_le c) hexec rfl

/-- The mould of R353 emits one lane for each lane of the operand taken as STY. -/
theorem emitsFloat_of_castFloat {op : FpEnv → Nat → BitVec 32 → Nat × Flags} {fmt : BitVec 3} {narrowing : Bool}
    (h : Fires destsReady s f) (hexec : exec i s = .next (fireFlags (castFloat c sty narrowing op) fmt s)) :
    EmitsFloat i s f c.ty (laneCount2 c sty) fmt (fun k =>
      op (f.env c.rnd narrowing) (f.lane sty 0 c.sa 0 k) (plaitLane f k)) :=
  emitsFloat_of_fireFlags h (width_mul_laneCount2_le c sty) hexec rfl

/-! ## NaN operands (R100, R101) -/

@[simp] theorem FVal.isNan_quiet (v : FVal) : v.quiet.isNan = v.isNan := by cases v <;> rfl

/-- What an operation with a NaN operand delivers: the first NaN, quieted, or the canonical one under DN. -/
theorem nanOf_pair (h : (a.isNan || b.isNan) = true) : nanOf env [a, b] =
    some (if env.dn then .canon else if a.isNan then a.quiet else b.quiet, if a.isSnan || b.isSnan then flagNV else 0) := by
  cases ha : a.isNan with
  | true => simp [nanOf, ha]
  | false =>
    have hb : b.isNan = true := by simpa [ha] using h
    simp [nanOf, ha, hb]

theorem isNan_nanPair (h : (a.isNan || b.isNan) = true) :
    (if env.dn then FVal.canon else if a.isNan then a.quiet else b.quiet).isNan = true := by
  have hcanon : FVal.canon.isNan = true := rfl
  cases ha : a.isNan with
  | true => split <;> simp [hcanon, ha]
  | false =>
    have hb : b.isNan = true := by simpa [ha] using h
    split <;> simp [hcanon, hb]

theorem isFlt_iff (t : Ty) : t.isFlt = true ↔ t = .f32 ∨ t = .bf16 ∨ t = .f16 ∨ t = .f64 := by cases t <;> decide

/-- A NaN rounds into FLT without a flag. -/
theorem roundTo_nan_flags (ht : t.isFlt = true) (hv : v.isNan = true) (word : BitVec 32) : (roundTo env t false v word).2 = 0 := by
  cases v with
  | nan s fr m => obtain rfl | rfl | rfl | rfl := (isFlt_iff t).1 ht <;> rfl
  | inf s => cases hv
  | num s n d => cases hv

theorem zero_or_flags (fl : Flags) : 0 ||| fl = fl := BitVec.zero_or

theorem finish_nanPair (ht : t.isFlt = true) (h : (a.isNan || b.isNan) = true) {r : FRes} (hr : some r = nanOf env [a, b]) :
    finish env t r = ((roundTo env t false (if env.dn then FVal.canon else if a.isNan then a.quiet else b.quiet)).1,
      if a.isSnan || b.isSnan then flagNV else 0) := by
  rw [nanOf_pair h, Option.some_inj] at hr
  subst hr
  simp only [finish, roundTo_nan_flags ht (isNan_nanPair h), zero_or_flags]

theorem addF_nanPair (h : (a.isNan || b.isNan) = true) : some (addF env a b) = nanOf env [a, b] := by
  simp only [addF, nanOf_pair h, Option.getD_some]

theorem subF_nanPair (h : (a.isNan || b.isNan) = true) : some (subF env a b) = nanOf env [a, b] := by
  simp only [subF, nanOf_pair h, Option.getD_some]

theorem mulF_nanPair (h : (a.isNan || b.isNan) = true) : some (mulF env a b) = nanOf env [a, b] := by
  simp only [mulF, nanOf_pair h]

theorem divF_nanPair (h : (a.isNan || b.isNan) = true) : some (divF env a b) = nanOf env [a, b] := by
  simp only [divF, nanOf_pair h]

/-- Settles O13: each of the four delivers what `nanOf` gives for its operands, which rounds without a flag of its own. -/
theorem floatNaNOperandsGiveAQuietNaN : Obligations.FloatNaNOperandsGiveAQuietNaN := by
  intro s f c x h ht n env a b nan
  refine ⟨_, _, _, _, emitsFloat_of_floatLanes h rfl, emitsFloat_of_floatLanes h rfl, emitsFloat_of_floatLanes h rfl,
    emitsFloat_of_floatLanes h rfl, fun i _ hnan => ?_⟩
  exact ⟨finish_nanPair ht hnan (addF_nanPair hnan), finish_nanPair ht hnan (subF_nanPair hnan),
    finish_nanPair ht hnan (mulF_nanPair hnan), finish_nanPair ht hnan (divF_nanPair hnan)⟩

end Sys2Proof.Machine
end

section
/-! PROOFS. Conversions round once or saturate (R107, R108, R385, R392, R407, R416). -/

namespace Sys2Proof.Machine

variable {t sty : Ty} {env : FpEnv} {v : FVal} {n d : Nat} {neg : Bool}

/-! ## Decoded numbers -/

/-- A finite number whose denominator is not 0. -/
def FVal.Proper (v : FVal) : Prop := ∃ neg n d, v = .num neg n d ∧ d ≠ 0

theorem scale2_den_ne_zero (n : Nat) (k : Int) : (scale2 n 1 k).2 ≠ 0 := by
  unfold scale2
  split
  · exact Nat.one_ne_zero
  · exact Nat.mul_ne_zero Nat.one_ne_zero (Nat.ne_of_gt (Nat.two_pow_pos _))

theorem decodeF_proper {x : Nat} (h : (decodeF t x).isNum = true) : (decodeF t x).Proper := by
  revert h
  simp only [decodeF]
  split
  · split <;> exact fun h => nomatch h
  · split
    · exact fun h => nomatch h
    · split <;> exact fun _ => ⟨_, _, _, rfl, scale2_den_ne_zero _ _⟩

theorem decodeIn_proper {x : Nat} (h : (decodeIn env t x).isNum = true) : (decodeIn env t x).Proper := by
  revert h
  unfold decodeIn
  split
  · exact fun _ => ⟨_, _, _, rfl, Nat.one_ne_zero⟩
  · exact decodeF_proper

/-! ## Rounding a quotient to an integer (R108) -/

/-- A magnitude under a sign. -/
def withSign (neg : Bool) (k : Nat) : Int := if neg then -(k : Int) else k

theorem withSign_cast (neg : Bool) (k : Nat) : ((withSign neg k : Int) : Rat) = if neg then -((k : Int) : Rat) else ((k : Int) : Rat) := by
  cases neg with
  | false => rfl
  | true => exact Rat.intCast_neg _

theorem num_q (neg : Bool) (n d : Nat) : (FVal.num neg n d).q = if neg then -mkRat n d else mkRat n d := by
  cases neg with
  | false => rfl
  | true => exact (Rat.neg_mkRat _ _).symm

theorem mkRat_one (z : Int) : mkRat z 1 = (z : Rat) := by
  rw [Rat.mkRat_eq_div]; grind

theorem num_q_withSign (neg : Bool) (k : Nat) : (FVal.num neg k 1).q = withSign neg k := by
  rw [num_q, withSign_cast, mkRat_one]

/-- A quotient is its whole part and the remainder's share of the divisor. -/
theorem mkRat_eq_add_rem (hd : d ≠ 0) (n : Nat) : mkRat n d = (((n / d : Nat) : Int) : Rat) + mkRat ((n % d : Nat) : Int) d := by
  have hdiv : d * (n / d) + n % d = n := Nat.div_add_mod n d
  have hcast : (d : Int) * ((n / d : Nat) : Int) + ((n % d : Nat) : Int) = n := by exact_mod_cast hdiv
  rw [← mkRat_one, Rat.mkRat_add_mkRat _ _ Nat.one_ne_zero hd, Nat.one_mul, ← hcast]
  congr 1
  grind

/-- The share of a remainder that is not 0. -/
theorem mkRat_pos {r : Nat} (hr : r ≠ 0) (hd : d ≠ 0) : 0 < mkRat (r : Int) d := by
  have hr' : (0 : Rat) < ((r : Int) : Rat) := Rat.intCast_pos.2 (by omega)
  have hd' : (0 : Rat) < (d : Rat) := Rat.natCast_pos.2 (by omega)
  rw [Rat.mkRat_eq_div, Rat.lt_div_iff hd', Rat.zero_mul]
  exact hr'

theorem mkRat_nonneg (hd : d ≠ 0) (r : Nat) : 0 ≤ mkRat (r : Int) d := by
  by_cases hr : r = 0
  · have h0 : mkRat (r : Int) d = 0 := by rw [hr, Int.natCast_zero, Rat.zero_mkRat]
    exact Rat.le_iff_lt_or_eq.2 (.inr h0.symm)
  · exact Rat.le_of_lt (mkRat_pos hr hd)

theorem mkRat_lt_mkRat {p q e : Nat} (he : e ≠ 0) (hd : d ≠ 0) (h : p * d < q * e) : mkRat (p : Int) e < mkRat (q : Int) d := by
  have he' : (0 : Rat) < (e : Rat) := Rat.natCast_pos.2 (by omega)
  have hd' : (0 : Rat) < (d : Rat) := Rat.natCast_pos.2 (by omega)
  have hswap : ((p : Int) : Rat) / (e : Rat) * (d : Rat) = ((p : Int) : Rat) * (d : Rat) / (e : Rat) := by grind
  rw [Rat.mkRat_eq_div, Rat.mkRat_eq_div, Rat.lt_div_iff hd', hswap, Rat.div_lt_iff he']
  exact_mod_cast h

theorem mkRat_one_two : mkRat ((1 : Nat) : Int) 2 = 1 / 2 := Rat.mkRat_eq_div 1 2

theorem mkRat_rem_lt_one (hd : d ≠ 0) (n : Nat) : mkRat ((n % d : Nat) : Int) d < 1 :=
  mkRat_lt_mkRat (q := 1) hd Nat.one_ne_zero (by have := Nat.mod_lt n (Nat.pos_of_ne_zero hd); omega)

theorem floor_natQuot (hd : d ≠ 0) (n : Nat) : (mkRat n d).floor = (n / d : Nat) := by
  have hlt := mkRat_rem_lt_one hd n
  have h0 := mkRat_nonneg hd (n % d)
  have hy := mkRat_eq_add_rem hd n
  refine Int.le_antisymm (Int.lt_add_one_iff.1 (Rat.floor_lt_iff.2 ?_)) (Rat.le_floor_iff.2 ?_)
  · rw [Rat.intCast_add, hy]; grind
  · rw [hy]; grind

theorem ceil_natQuot (hd : d ≠ 0) (n : Nat) : (mkRat n d).ceil = (n / d : Nat) + (if n % d = 0 then 0 else 1 : Int) := by
  have hy := mkRat_eq_add_rem hd n
  split
  · next hr =>
    rw [hr, Int.natCast_zero, Rat.zero_mkRat, Rat.add_zero] at hy
    rw [hy, Rat.ceil_intCast, Int.add_zero]
  · next hr =>
    have hlt := mkRat_rem_lt_one hd n
    have hpos := mkRat_pos hr hd
    refine Int.le_antisymm (Rat.ceil_le_iff.2 ?_) (Int.add_one_le_iff.2 (Rat.lt_ceil_iff.2 ?_))
    · rw [Rat.intCast_add, hy]; grind
    · rw [hy]; grind

theorem ceil_neg_natQuot (hd : d ≠ 0) (n : Nat) : (-mkRat n d).ceil = -((n / d : Nat) : Int) := by
  rw [Rat.ceil_eq_neg_floor_neg, Rat.neg_neg, floor_natQuot hd]

theorem floor_neg_natQuot (hd : d ≠ 0) (n : Nat) :
    (-mkRat n d).floor = -((n / d : Nat) + (if n % d = 0 then 0 else 1 : Int)) := by
  rw [← ceil_natQuot hd, Rat.ceil_eq_neg_floor_neg, Int.neg_neg]

theorem half_add_half : (1 / 2 : Rat) + 1 / 2 = 1 := by grind

/-- Less than a half above an integer. -/
theorem near_below {k r e : Rat} (h0 : 0 ≤ r) (h : r < e) :
    k - (k + r) ≤ e ∧ k + r - k ≤ e ∧ ¬(k - (k + r) = e ∨ k + r - k = e) :=
  ⟨by grind, by grind, by grind⟩

/-- More than a half above an integer, and so less than a half below the next. -/
theorem near_above {k r e : Rat} (h1 : r < 1) (he : e + e = 1) (h : e < r) :
    k + 1 - (k + r) ≤ e ∧ k + r - (k + 1) ≤ e ∧ ¬(k + 1 - (k + r) = e ∨ k + r - (k + 1) = e) :=
  ⟨by grind, by grind, by grind⟩

/-- A half above an integer is a half away from both its neighbours. -/
theorem near_half {k e : Rat} (he : e + e = 1) :
    (k - (k + e) ≤ e ∧ k + e - k ≤ e) ∧ k + 1 - (k + e) ≤ e ∧ k + e - (k + 1) ≤ e :=
  ⟨⟨by grind, by grind⟩, by grind, by grind⟩

/-- The whole magnitude to which RNE takes a quotient lies within a half of it, and is even where it is a half away. -/
theorem nearest_natQuot (hd : d ≠ 0) (neg : Bool) (n : Nat) (w : BitVec 32) :
    let k := n / d + if roundsUp .rne neg (n / d) (n % d) d w then 1 else 0
    ((k : Int) : Rat) - mkRat n d ≤ 1 / 2 ∧ mkRat n d - ((k : Int) : Rat) ≤ 1 / 2 ∧
      (((k : Int) : Rat) - mkRat n d = 1 / 2 ∨ mkRat n d - ((k : Int) : Rat) = 1 / 2 → k % 2 = 0) := by
  intro k
  have hy := mkRat_eq_add_rem hd n
  have hlt := mkRat_rem_lt_one hd n
  have hlow := mkRat_nonneg hd (n % d)
  have hdown (hk : k = n / d) : ((k : Int) : Rat) = (((n / d : Nat) : Int) : Rat) := by rw [hk]
  have hup (hk : k = n / d + 1) : ((k : Int) : Rat) = (((n / d : Nat) : Int) : Rat) + 1 := by
    rw [hk, Int.natCast_add, Rat.intCast_add]; rfl
  rw [hy]
  rcases Nat.lt_trichotomy (2 * (n % d)) d with hr | hr | hr
  · have hshare : mkRat ((n % d : Nat) : Int) d < 1 / 2 := by
      rw [← mkRat_one_two]; exact mkRat_lt_mkRat hd (by decide) (by omega)
    have hk : k = n / d := by simp [k, roundsUp, Nat.not_lt.2 (Nat.le_of_lt hr), Nat.ne_of_lt hr]
    obtain ⟨hlo, hhi, hne⟩ := near_below (k := (((n / d : Nat) : Int) : Rat)) hlow hshare
    rw [hdown hk]
    exact ⟨hlo, hhi, fun h => absurd h hne⟩
  · have hshare : mkRat ((n % d : Nat) : Int) d = 1 / 2 := by
      rw [← mkRat_one_two]; exact (Rat.mkRat_eq_iff hd (by decide)).2 (by omega)
    have hr0 : n % d ≠ 0 := by omega
    obtain ⟨⟨hlo, hhi⟩, hlo', hhi'⟩ := near_half (k := (((n / d : Nat) : Int) : Rat)) half_add_half
    rw [hshare]
    rcases Nat.mod_two_eq_zero_or_one (n / d) with hp | hp
    · have hk : k = n / d := by simp [k, roundsUp, hr, hp]
      rw [hdown hk]
      exact ⟨hlo, hhi, fun _ => by omega⟩
    · have hk : k = n / d + 1 := by simp [k, roundsUp, hr, hr0, hp]
      rw [hup hk]
      exact ⟨hlo', hhi', fun _ => by omega⟩
  · have hshare : 1 / 2 < mkRat ((n % d : Nat) : Int) d := by
      rw [← mkRat_one_two]; exact mkRat_lt_mkRat (by decide) hd (by omega)
    have hr0 : n % d ≠ 0 := by omega
    have hk : k = n / d + 1 := by simp [k, roundsUp, hr, hr0]
    obtain ⟨hlo, hhi, hne⟩ := near_above (k := (((n / d : Nat) : Int) : Rat)) hlt half_add_half hshare
    rw [hup hk]
    exact ⟨hlo, hhi, fun h => absurd h hne⟩

theorem roundInt_nearest {rm : Rm} (hrm : rm = .rne ∨ rm = .rsr) (neg : Bool) (n d : Nat) :
    (roundInt rm neg n d).1 = n / d + if roundsUp .rne neg (n / d) (n % d) d 0 then 1 else 0 := by
  obtain rfl | rfl := hrm <;> rfl

theorem roundInt_rtz (neg : Bool) (n d : Nat) : (roundInt .rtz neg n d).1 = n / d := by simp [roundInt, roundsUp]

theorem roundInt_rup (neg : Bool) (n d : Nat) :
    (roundInt .rup neg n d).1 = n / d + if neg || n % d = 0 then 0 else 1 := by
  cases neg <;> simp [roundInt, roundsUp]

theorem roundInt_rdn (neg : Bool) (n d : Nat) :
    (roundInt .rdn neg n d).1 = n / d + if !neg || n % d = 0 then 0 else 1 := by
  cases neg <;> simp [roundInt, roundsUp]

/-- R108: the integer that `roundInt` gives is the one to which the mode takes the number. -/
theorem roundsTo_roundInt (hd : d ≠ 0) (rm : Rm) (neg : Bool) (n : Nat) :
    RoundsTo rm (FVal.num neg n d).q (withSign neg (roundInt rm neg n d).1) := by
  have near (hrm : rm = .rne ∨ rm = .rsr) : let x := (FVal.num neg n d).q; let z := withSign neg (roundInt rm neg n d).1
      (z : Rat) - x ≤ 1 / 2 ∧ x - (z : Rat) ≤ 1 / 2 ∧ ((z : Rat) - x = 1 / 2 ∨ x - (z : Rat) = 1 / 2 → z % 2 = 0) := by
    obtain ⟨hup, hdown, heven⟩ := nearest_natQuot hd neg n 0
    rw [← roundInt_nearest hrm] at hup hdown heven
    intro x z
    have hparity : (roundInt rm neg n d).1 % 2 = 0 → z % 2 = 0 := by
      cases neg <;> simp only [z, withSign, if_true, Bool.false_eq_true, if_false] <;> omega
    have hz : (z : Rat) = if neg then _ else _ := withSign_cast ..
    have hx : x = if neg then _ else _ := num_q ..
    rw [hz, hx]
    cases neg with
    | false => exact ⟨hup, hdown, fun h => hparity (heven h)⟩
    | true =>
      simp only [if_true]
      exact ⟨by grind, by grind, fun h => hparity (heven (by grind))⟩
  cases rm with
  | rne => exact near (.inl rfl)
  | rsr => exact near (.inr rfl)
  | rtz =>
    have h0 := mkRat_nonneg hd n
    show _ = if _ then _ else _
    rw [num_q, roundInt_rtz]
    cases neg with
    | false => simp only [Bool.false_eq_true, if_false, Rat.not_lt.2 h0, floor_natQuot hd, withSign]
    | true =>
      simp only [if_true, withSign, ceil_neg_natQuot hd, floor_neg_natQuot hd]
      split
      · rfl
      · next h =>
        have hn : n = 0 := Decidable.byContradiction fun hn => h (by have := mkRat_pos hn hd; grind)
        rw [hn, Nat.zero_mod, if_pos rfl, Int.add_zero]
  | rup =>
    show _ = Rat.ceil _
    rw [num_q, roundInt_rup]
    cases neg with
    | false => rw [if_neg Bool.false_ne_true, ceil_natQuot hd]; by_cases hr : n % d = 0 <;> simp [withSign, hr]
    | true => rw [if_pos rfl, ceil_neg_natQuot hd]; rfl
  | rdn =>
    show _ = Rat.floor _
    rw [num_q, roundInt_rdn]
    cases neg with
    | false => rw [if_neg Bool.false_ne_true, floor_natQuot hd]; rfl
    | true => rw [if_pos rfl, floor_neg_natQuot hd]; by_cases hr : n % d = 0 <;> simp [withSign, hr]

/-- The integer is the number itself exactly where no remainder is left. -/
theorem withSign_roundInt_eq_iff (hd : d ≠ 0) (rm : Rm) (neg : Bool) (n : Nat) :
    (withSign neg (roundInt rm neg n d).1 : Rat) = (FVal.num neg n d).q ↔ n % d = 0 := by
  have hmag : (withSign neg (roundInt rm neg n d).1 : Rat) = (FVal.num neg n d).q ↔
      (((roundInt rm neg n d).1 : Int) : Rat) = mkRat n d := by
    rw [withSign_cast, num_q]
    cases neg with
    | false => rfl
    | true => exact ⟨fun h => by have := congrArg Neg.neg h; rwa [if_pos rfl, if_pos rfl, Rat.neg_neg, Rat.neg_neg] at this,
        fun h => by rw [h]⟩
  have hlt := mkRat_rem_lt_one hd n
  rw [hmag, mkRat_eq_add_rem hd]
  constructor
  · intro h
    refine Decidable.byContradiction fun hr => ?_
    have hpos := mkRat_pos hr hd
    obtain ⟨up, hup⟩ : ∃ up : Bool, (roundInt rm neg n d).1 = n / d + if up then 1 else 0 := ⟨_, rfl⟩
    rw [hup] at h
    cases up with
    | false => rw [if_neg Bool.false_ne_true, Nat.add_zero] at h; grind
    | true => rw [if_pos rfl, Int.natCast_add, Rat.intCast_add] at h; grind
  · intro hr
    have hk : (roundInt rm neg n d).1 = n / d := by simp [roundInt, roundsUp, hr]
    rw [hk, hr, Int.natCast_zero, Rat.zero_mkRat, Rat.add_zero]

/-! ## Saturated integers (R89, R108) -/

/-- The least integer of a type. -/
def intMin (t : Ty) : Int := if t.isSigned then -2 ^ (t.width - 1) else 0

/-- The greatest integer of a type. -/
def intMax (t : Ty) : Int := if t.isSigned then 2 ^ (t.width - 1) - 1 else 2 ^ t.width - 1

theorem intMin_le_intMax (t : Ty) : intMin t ≤ intMax t := by
  have hhalf : (0 : Int) < 2 ^ (t.width - 1) := Int.pow_pos (by decide)
  have hwhole : (0 : Int) < 2 ^ t.width := Int.pow_pos (by decide)
  unfold intMin intMax
  split <;> omega

theorem toSigned_wrapInt {w : Nat} (hw : 0 < w) {x : Int} (hlo : -2 ^ (w - 1) ≤ x) (hhi : x < 2 ^ (w - 1)) :
    toSigned w (wrapInt w x) = x := by
  obtain ⟨k, rfl⟩ : ∃ k, w = k + 1 := ⟨w - 1, by omega⟩
  rw [Nat.add_sub_cancel] at hlo hhi
  have hpos : (0 : Int) < 2 ^ k := Int.pow_pos (by decide)
  have hcast : ((2 ^ k : Nat) : Int) = 2 ^ k := by push_cast; rfl
  have hmod : x % (2 ^ (k + 1) : Nat) = if x < 0 then x + 2 ^ (k + 1) else x := by
    push_cast
    rw [Int.pow_succ]
    split
    · rw [← Int.add_emod_right, Int.emod_eq_of_lt (by omega) (by omega)]
    · exact Int.emod_eq_of_lt (by omega) (by omega)
  rw [toSigned, wrapInt, hmod, Nat.add_sub_cancel]
  push_cast
  rw [Int.pow_succ]
  split <;> split <;> omega

theorem wrapInt_unsigned {w : Nat} {x : Int} (hlo : 0 ≤ x) (hhi : x < 2 ^ w) : (wrapInt w x : Int) = x := by
  have hmod : x % (2 ^ w : Nat) = x := Int.emod_eq_of_lt hlo (by push_cast; exact hhi)
  rw [wrapInt, hmod, Int.toNat_of_nonneg hlo]

theorem width_pos (t : Ty) : 0 < t.width := by cases t <;> decide

/-- An integer of the type's range, wrapped to the type, reads back as itself. -/
theorem laneInt_wrapInt {x : Int} (hlo : intMin t ≤ x) (hhi : x ≤ intMax t) : laneInt t (wrapInt t.width x) = x := by
  unfold intMin at hlo
  unfold intMax at hhi
  unfold laneInt
  split <;> simp_all only [if_true, Bool.false_eq_true, if_false]
  · exact toSigned_wrapInt (width_pos t) hlo (Int.lt_of_le_sub_one hhi)
  · exact wrapInt_unsigned hlo (Int.lt_of_le_sub_one hhi)

/-- R108: F2I of a number gives the rounded integer, saturated, with NV where it was out of range and NX where it was rounded. -/
theorem f2i_num (t : Ty) (hd : d ≠ 0) (env : FpEnv) (neg : Bool) (n : Nat) :
    let z := withSign neg (roundInt env.rm neg n d).1
    laneInt t (f2i env t (.num neg n d)).1 = max (intMin t) (min (intMax t) z) ∧
      (f2i env t (.num neg n d)).2 = if z < intMin t ∨ intMax t < z then flagNV
        else if (z : Rat) = (FVal.num neg n d).q then 0 else flagNX := by
  intro z
  have hf : f2i env t (.num neg n d) = if z < intMin t then (wrapInt t.width (intMin t), flagNV)
      else if intMax t < z then (wrapInt t.width (intMax t), flagNV)
      else (wrapInt t.width z, if n % d = 0 then 0 else flagNX) := by
    have hexact : (roundInt env.rm neg n d).2 = decide (n % d = 0) := rfl
    simp only [f2i, intMin, intMax, z, withSign, hexact, decide_eq_true_eq, gt_iff_lt]
    push_cast
    rfl
  have hle := intMin_le_intMax t
  have hexact : (z : Rat) = (FVal.num neg n d).q ↔ n % d = 0 := withSign_roundInt_eq_iff hd ..
  simp only [hf, hexact]
  clear_value z
  split
  · next h => exact ⟨by rw [laneInt_wrapInt (Int.le_refl _) hle]; omega, by rw [if_pos (.inl h)]⟩
  · next hlo =>
    split
    · next h => exact ⟨by rw [laneInt_wrapInt hle (Int.le_refl _)]; omega, by rw [if_pos (.inr h)]⟩
    · next hhi => exact ⟨by rw [laneInt_wrapInt (by omega) (by omega)]; omega, by rw [if_neg (not_or.2 ⟨hlo, hhi⟩)]⟩

theorem f2i_nan (h : v.isNan = true) : f2i env t v = (0, flagNV) := by
  cases v with
  | nan => rfl
  | inf => cases h
  | num => cases h

/-- R107: a number that FCVT converts is rounded once. -/
theorem cvtLane_num {x : Nat} {word : BitVec 32} (h : (decodeIn env sty x).isNum = true) :
    cvtLane t sty env x word = roundTo env t false (decodeIn env sty x) word := by
  obtain ⟨neg, n, d, hv, -⟩ := decodeIn_proper h
  simp [cvtLane, hv, nanOf, FVal.isNan, finish]

theorem ofInt_q (x : Int) : (ofInt x).q = x := by
  rw [ofInt, num_q_withSign, Rat.intCast_inj, withSign]
  simp only [decide_eq_true_eq]
  split <;> omega

/-- R407: FRND of a number formats the integer to which the mode takes it. -/
theorem rndF_num (env : FpEnv) (neg : Bool) (n d : Nat) : (rndF env (.num neg n d)).1 = .num neg (roundInt env.rm neg n d).1 1 := rfl

/-- Settles O16: each conversion through what its mould emits, a number through its exact value. -/
theorem conversionsRoundOrSaturate : Obligations.ConversionsRoundOrSaturate := by
  intro s f c sty x h w n la lo hi
  refine ⟨fun _ _ => ?fcvt, fun ht _ => ?f2i, fun _ _ => ?i2f, fun ht => ?frnd⟩
  case fcvt => exact ⟨_, emitsFloat_of_castFloat h rfl, fun i _ hnum => cvtLane_num hnum⟩
  case f2i =>
    intro env
    refine ⟨_, emitsFloat_of_castFloat h rfl, fun i _ => ⟨fun hnan => ?_, fun hnum => ?_⟩⟩
    · exact f2i_nan hnan
    · obtain ⟨neg, m, d, hv, hd⟩ := decodeIn_proper hnum
      rw [hv]
      exact ⟨_, roundsTo_roundInt hd env.rm neg m, f2i_num c.ty hd env neg m⟩
  case i2f => exact ⟨_, emitsFloat_of_castFloat h rfl, fun i _ => ⟨ofInt (laneInt sty (la i)), rfl, ofInt_q _, rfl⟩⟩
  case frnd =>
    intro env a
    refine ⟨_, emitsFloat_of_floatLanes h rfl, fun i _ hnum => ?_⟩
    obtain ⟨neg, m, d, hv, hd⟩ := decodeIn_proper hnum
    have ha : a i = .num neg m d := hv
    rw [ha]
    refine ⟨_, .num neg (roundInt env.rm neg m d).1 1, roundsTo_roundInt hd env.rm neg m, rfl, num_q_withSign .., rfl, ?_⟩
    rw [← rndF_num, ← hv]
    rfl

end Sys2Proof.Machine
end

section
/-! PROOFS. An MMA step reads its lines, sets the ones with REL empty, and commits by adding the products of its operands to its
bank (R115, R116, R208, R213, R215, R217, R344, R442). -/

namespace Sys2Proof.Machine

variable {s : State} {n : Nat} {m : MatCmd} {ty : Ty} {bs : List Byte}

/-! ## Starting a step (R208, R215, R223, R344) -/

theorem exec_mmaStepStart_held (hr : cmdReady (fun x => x.opc == 0x99) (s.tile s.cur.place).cmds = some (n, m))
    (h : linesFull (s.tile s.cur.place) (mmaLines m) = false ∨ issueOpen s = false) : exec .mmaStepStart s = .next s := by
  show execMmaStepStart s = _
  rcases h with h | h <;> simp only [execMmaStepStart, hr, h, Bool.not_false, Bool.true_or, Bool.or_true, if_true]

theorem exec_mmaStepStart_error (hr : cmdReady (fun x => x.opc == 0x99) (s.tile s.cur.place).cmds = some (n, m))
    (hopen : issueOpen s = true) (hfull : linesFull (s.tile s.cur.place) (mmaLines m) = true)
    (hbad : linesBad (s.tile s.cur.place) (mmaLines m) = true) : exec .mmaStepStart s = .next (cmdError s s.cur.place n m) := by
  show execMmaStepStart s = _
  simp only [execMmaStepStart, hr, hopen, hfull, hbad, Bool.not_true, Bool.or_self, Bool.false_eq_true, if_false, if_true]

theorem exec_mmaStepStart_reads (hr : cmdReady (fun x => x.opc == 0x99) (s.tile s.cur.place).cmds = some (n, m))
    (hopen : issueOpen s = true) (hfull : linesFull (s.tile s.cur.place) (mmaLines m) = true)
    (hgood : linesBad (s.tile s.cur.place) (mmaLines m) = false) :
    exec .mmaStepStart s = .next (cmdEmpty (cmdDirty (cmdPut s s.cur.place n
      { m with started := true, bytes := lineBytes (s.tile s.cur.place) (mmaLines m) }) m) m (mmaRel m)) := by
  show execMmaStepStart s = _
  simp only [execMmaStepStart, hr, hopen, hfull, hgood, Bool.not_true, Bool.or_self, Bool.false_eq_true, if_false]

/-! ## The bytes that a step has read (R215) -/

theorem lineBytes_eq_map (t : Tile) (lines : List Nat) :
    lineBytes t lines = (lines.flatMap fun n => rangeFrom (64 * n) 64).map (scrGet t) := by
  rw [lineBytes, List.map_flatMap]

theorem lineBytes_append (t : Tile) (xs ys : List Nat) : lineBytes t (xs ++ ys) = lineBytes t xs ++ lineBytes t ys :=
  List.flatMap_append

theorem length_rangeFrom (a n : Nat) : (rangeFrom a n).length = n := by rw [rangeFrom, List.length_map, List.length_range]

theorem length_lineBytes (t : Tile) (lines : List Nat) : (lineBytes t lines).length = 64 * lines.length := by
  induction lines with
  | nil => rfl
  | cons x xs ih =>
    rw [← List.singleton_append, lineBytes_append, List.length_append, ih, List.length_append, Nat.mul_add]
    simp [lineBytes, length_rangeFrom]

theorem mixByte_same (s : State) (t : Tile) (rel : List Nat) (x : Nat) : mixByte s t rel (scrGet t x, x) = (s, scrGet t x) := by
  simp [mixByte]

theorem foldl_mixByte_same (s : State) (t : Tile) (rel offs : List Nat) (out : List Byte) :
    ((offs.map (scrGet t)).zip offs).foldl (fun (acc : State × List Byte) x =>
      let y := mixByte acc.1 t rel x
      (y.1, y.2 :: acc.2)) (s, out) = (s, (offs.map (scrGet t)).reverse ++ out) := by
  induction offs generalizing out with
  | nil => rfl
  | cons x xs ih =>
    simp only [List.map_cons, List.zip_cons_cons, List.foldl_cons, mixByte_same, List.reverse_cons, List.append_assoc,
      List.singleton_append]
    exact ih _

/-- Where no store has changed a line since the step began, the step has read what the lines hold. -/
theorem stepBytes_unchanged {tile : Nat} (h : m.bytes = lineBytes (s.tile tile) (mmaLines m)) : stepBytes s tile m = (s, m.bytes) := by
  rw [stepBytes, h, lineBytes_eq_map]
  simp only [foldl_mixByte_same, List.append_nil, List.reverse_reverse]

/-! ## Lanes of an operand -/

theorem leNat_lt (bs : List Byte) : leNat bs < 256 ^ bs.length := by
  induction bs with
  | nil => exact Nat.one_pos
  | cons b bs ih =>
    have hb : b.toNat < 256 := b.isLt
    simp only [leNat, List.length_cons, Nat.pow_succ]
    omega

theorem leNat_append (xs ys : List Byte) : leNat (xs ++ ys) = leNat xs + 256 ^ xs.length * leNat ys := by
  induction xs with
  | nil => simp [leNat]
  | cons x xs ih => simp only [List.cons_append, leNat, ih, List.length_cons, Nat.pow_succ]; grind

theorem leNat_take_drop {k : Nat} (hk : k ≤ bs.length) :
    leNat (bs.take k) = leNat bs % 256 ^ k ∧ leNat (bs.drop k) = leNat bs / 256 ^ k := by
  have hlen : (bs.take k).length = k := List.length_take_of_le hk
  have hlt : leNat (bs.take k) < 256 ^ k := by simpa only [hlen] using leNat_lt (bs.take k)
  have hsplit : leNat bs = leNat (bs.take k) + 256 ^ k * leNat (bs.drop k) := by
    have happ := leNat_append (bs.take k) (bs.drop k)
    rwa [List.take_append_drop, hlen] at happ
  rw [hsplit, Nat.add_mul_mod_self_left, Nat.mod_eq_of_lt hlt, Nat.add_mul_div_left _ _ (Nat.pow_pos (by decide)), Nat.div_eq_of_lt hlt,
    Nat.zero_add]
  exact ⟨rfl, rfl⟩

/-- Code `k` of row `r` of an operand: 32 codes to a row, in order from bit 0. -/
def opCode (ty : Ty) (bs : List Byte) (r k : Nat) : Nat := leNat bs / 2 ^ (ty.width * (32 * r + k)) % 2 ^ ty.width

theorem pieces_eq_map_range {α : Type} {w : Nat} (hw : 0 < w) (n : Nat) (xs : List α) (h : xs.length = w * n) :
    pieces w n xs = (List.range n).map (fun r => (xs.drop (w * r)).take w) := by
  induction n generalizing xs with
  | zero => rfl
  | succ n ih =>
    have hne : xs.isEmpty = false := by
      rw [List.isEmpty_eq_false_iff, ← List.length_pos_iff, h]; exact Nat.mul_pos hw (Nat.succ_pos n)
    have htail : (xs.drop w).length = w * n := by rw [List.length_drop, h, Nat.mul_succ, Nat.add_sub_cancel]
    simp [pieces, hne, ih _ htail, List.range_succ_eq_map, Function.comp_def, Nat.mul_succ, Nat.add_comm]

/-- A field of a number, taken from a wider field that holds it. -/
theorem field_of_field (x p l : Nat) {b w : Nat} (h : b + w ≤ l) : x / 2 ^ p % 2 ^ l / 2 ^ b % 2 ^ w = x / 2 ^ (p + b) % 2 ^ w := by
  refine Nat.eq_of_testBit_eq fun j => ?_
  simp only [Nat.testBit_mod_two_pow, Nat.testBit_div_two_pow]
  rcases Nat.lt_or_ge j w with hj | hj
  · rw [decide_eq_true (show j + b < l by omega), Bool.true_and, Nat.add_assoc, Nat.add_comm b]
  · rw [decide_eq_false (Nat.not_lt.2 hj), Bool.false_and, Bool.false_and]

theorem opRows_eq_codes (h : bs.length = 64 * opLines ty) :
    opRows ty bs = (List.range 64).map (fun r => (List.range 32).map (opCode ty bs r)) := by
  have hlen : bs.length = 4 * ty.width * 64 := by rw [h, opLines, Nat.mul_comm]
  rw [opRows, pieces_eq_map_range (Nat.mul_pos (by decide) (width_pos ty)) 64 bs hlen, List.map_map]
  refine List.map_congr_left fun r hr => List.map_congr_left fun k hk => ?_
  rw [List.mem_range] at hr hk
  have hdrop : 4 * ty.width * r ≤ bs.length := by rw [hlen]; exact Nat.mul_le_mul_left _ (Nat.le_of_lt hr)
  have htake : 4 * ty.width ≤ (bs.drop (4 * ty.width * r)).length := by
    rw [List.length_drop, hlen, ← Nat.mul_sub]; exact Nat.le_mul_of_pos_right _ (by omega)
  have hbyte (e : Nat) : 256 ^ e = 2 ^ (8 * e) := (Nat.pow_mul 2 8 e).symm
  have hfit : ty.width * k + ty.width ≤ 8 * (4 * ty.width) := by
    calc ty.width * k + ty.width = ty.width * (k + 1) := rfl
      _ ≤ ty.width * 32 := Nat.mul_le_mul_left _ hk
      _ = 8 * (4 * ty.width) := by omega
  have hplace : 8 * (4 * ty.width * r) + ty.width * k = ty.width * (32 * r + k) := by grind
  rw [(leNat_take_drop htake).1, (leNat_take_drop hdrop).2, opCode, Nat.shiftRight_eq_div_pow, hbyte, hbyte,
    field_of_field _ _ _ hfit, hplace]

/-- The lines of a step, cut into the data and the scales of A and of B. -/
theorem lineBytes_mmaLines (t : Tile) (m : MatCmd) : lineBytes t (mmaLines m) =
    lineBytes t (opDataLines m.common.ty m.opa) ++ (lineBytes t (opScaleLines m.opa m.ha) ++
      (lineBytes t (opDataLines m.bty m.opb) ++ lineBytes t (opScaleLines m.opb m.hb))) := by
  simp only [mmaLines, lineBytes_append, List.append_assoc]

/-! ## The elements of a bank after a step (R115, R116) -/

/-- Every pair of two ranges, row by row. -/
theorem flatMap_range_eq_map {α : Type} (h : Nat → Nat → α) (n : Nat) {k : Nat} (hk : 0 < k) :
    (List.range n).flatMap (fun a => (List.range k).map (h a)) = (List.range (n * k)).map (fun p => h (p / k) (p % k)) := by
  induction n with
  | zero => simp
  | succ n ih =>
    rw [List.range_succ, List.flatMap_append, ih, Nat.succ_mul, List.range_add, List.map_append, List.map_map,
      List.flatMap_singleton]
    refine congrArg _ (List.map_congr_left fun b hb => ?_)
    have hb' : b < k := List.mem_range.1 hb
    simp only [Function.comp_apply, Nat.mul_comm n k, Nat.mul_add_div hk, Nat.mul_add_mod, Nat.div_eq_of_lt hb',
      Nat.mod_eq_of_lt hb', Nat.add_zero]

/-- A bank with each row of A and each column of B brought to its element. -/
theorem zipWith_pairs {α β γ : Type} (g : BitVec 32 → α × β → γ) (a : Acc) (ra : Nat → α) (rb : Nat → β) :
    List.zipWith g a.list (((List.range 64).map ra).flatMap fun x => ((List.range 64).map rb).map fun y => (x, y)) =
      (List.range 4096).map (fun p => g (mapGet a.elems p 0) (ra (p / 64), rb (p % 64))) := by
  have hpairs : ((List.range 64).map ra).flatMap (fun x => ((List.range 64).map rb).map fun y => (x, y)) =
      (List.range 4096).map (fun p => (ra (p / 64), rb (p % 64))) := by
    simp only [List.flatMap_map, List.map_map]
    exact flatMap_range_eq_map (fun i j => (ra i, rb j)) 64 (by decide)
  rw [hpairs, Acc.list, List.zipWith_map, List.zipWith_self]

theorem zipIdx_range_map {α : Type} (g : Nat → α) (n : Nat) : ((List.range n).map g).zipIdx = (List.range n).map (fun i => (g i, i)) := by
  refine List.ext_getElem (by simp) fun i h _ => ?_
  simp

/-- The scaled values of row `r` of an operand. -/
def opRowVals (ty : Ty) (d : W512) (h : Option W512) (bs sb : List Byte) (r : Nat) : List FVal :=
  (List.range 32).map (fun k => scaled (decodeF ty (opCode ty bs r k)) (opScale d h sb r k))

theorem opVals_eq_rows (h : bs.length = 64 * opLines ty) (d : W512) (l : Option W512) (sb : List Byte) :
    opVals ty d l bs sb = (List.range 64).map (opRowVals ty d l bs sb) := by
  simp only [opVals, opRows_eq_codes h, zipIdx_range_map, List.map_map]
  rfl

theorem length_opData (t : Tile) (ty : Ty) (d : W512) : (lineBytes t (opDataLines ty d)).length = 64 * opLines ty := by
  rw [length_lineBytes, opDataLines, length_rangeFrom]

/-- The integers of row `r` of an operand. -/
def opRowInts (ty : Ty) (bs : List Byte) (r : Nat) : List Int := (List.range 32).map (fun k => laneInt ty (opCode ty bs r k))

theorem opInts_eq_rows (h : bs.length = 64 * opLines ty) :
    (opRows ty bs).map (fun r => r.map (laneInt ty)) = (List.range 64).map (opRowInts ty bs) := by
  simp only [opRows_eq_codes h, List.map_map]
  rfl

/-- Element `p` of a bank after a step of operands with these data and scales. -/
def stepWord (m : MatCmd) (a : Acc) (ab asb bb bsb : List Byte) (p : Nat) : BitVec 32 :=
  if m.common.ty.isInt then
    stepInt (mapGet a.elems p 0) (opRowInts m.common.ty ab (p / 64)) (opRowInts m.bty bb (p % 64))
  else BitVec.ofNat 32 (stepElem (mapGet a.elems p 0) (opRowVals m.common.ty m.opa m.ha ab asb (p / 64))
    (opRowVals m.bty m.opb m.hb bb bsb (p % 64))).1

theorem stepAcc_elements {ab asb bb bsb : List Byte} (ha : ab.length = 64 * opLines m.common.ty)
    (hsa : asb.length = 64 * (opScaleLines m.opa m.ha).length) (hb : bb.length = 64 * opLines m.bty) (a : Acc) :
    (stepAcc m a.list (ab ++ (asb ++ (bb ++ bsb)))).1 = (List.range 4096).map (stepWord m a ab asb bb bsb) := by
  cases hint : m.common.ty.isInt with
  | true =>
    simp only [stepAcc, hint, if_true, ← List.drop_drop, List.take_left' ha, List.drop_left' ha, List.drop_left' hsa,
      List.take_left' hb, opInts_eq_rows ha, opInts_eq_rows hb]
    rw [zipWith_pairs]
    exact List.map_congr_left fun p _ => by rw [stepWord, if_pos hint]
  | false =>
    simp only [stepAcc, hint, Bool.false_eq_true, if_false, ← List.drop_drop, List.take_left' ha, List.drop_left' ha,
      List.take_left' hsa, List.drop_left' hsa, List.take_left' hb, List.drop_left' hb, opVals_eq_rows ha, opVals_eq_rows hb]
    rw [zipWith_pairs, List.map_map]
    exact List.map_congr_left fun p _ => by rw [stepWord, hint, if_neg Bool.false_ne_true]; rfl

theorem stepInt_rows (x : BitVec 32) (f g : Nat → Int) (n : Nat) :
    stepInt x ((List.range n).map f) ((List.range n).map g) = x + BitVec.ofInt 32 ((List.range n).map fun k => f k * g k).sum := by
  rw [stepInt, List.zipWith_map, List.zipWith_self]

/-- R115, R116: element (i, j) after a step, from row `i` of A and column `j` of B. -/
theorem stepWord_at {i j : Nat} (hj : j < 64) (a : Acc) (ab asb bb bsb : List Byte) :
    stepWord m a ab asb bb bsb (64 * i + j) =
      if m.common.ty.isInt then mapGet a.elems (64 * i + j) 0 + BitVec.ofInt 32 ((List.range 32).map fun k =>
        laneInt m.common.ty (opCode m.common.ty ab i k) * laneInt m.bty (opCode m.bty bb j k)).sum
      else BitVec.ofNat 32 (stepElem (mapGet a.elems (64 * i + j) 0) (opRowVals m.common.ty m.opa m.ha ab asb i)
        (opRowVals m.bty m.opb m.hb bb bsb j)).1 := by
  have hrow : (64 * i + j) / 64 = i := by omega
  have hcol : (64 * i + j) % 64 = j := by omega
  rw [stepWord, hrow, hcol, opRowInts, opRowInts, stepInt_rows]

/-! ## The exact sum of a chunk (R115) -/

theorem mulVals_proper {x y : FVal} (hx : x.Proper) (hy : y.Proper) : ∃ v, mulVals x y = some v ∧ v.Proper ∧ v.q = x.q * y.q := by
  obtain ⟨sx, nx, dx, rfl, hdx⟩ := hx
  obtain ⟨sy, ny, dy, rfl, hdy⟩ := hy
  have hmul : mkRat ((nx * ny : Nat) : Int) (dx * dy) = mkRat nx dx * mkRat ny dy := by
    rw [Int.natCast_mul, Rat.mkRat_mul_mkRat]
  refine ⟨.num (sx != sy) (nx * ny) (dx * dy), rfl, ⟨_, _, _, rfl, Nat.mul_ne_zero hdx hdy⟩, ?_⟩
  rw [num_q, num_q, num_q, hmul]
  cases sx <;> cases sy <;> grind

/-- The products of two chunks are numbers, and sum to the sum of the products. -/
theorem products_proper {xs ys : List FVal} (hx : ∀ x ∈ xs, x.Proper) (hy : ∀ y ∈ ys, y.Proper) :
    ∃ vs : List FVal, List.zipWith mulVals xs ys = vs.map some ∧ (∀ v ∈ vs, v.Proper) ∧
      (vs.map FVal.q).sum = (List.zipWith (fun x y => x.q * y.q) xs ys).sum := by
  induction xs generalizing ys with
  | nil => exact ⟨[], by simp⟩
  | cons x xs ih =>
    cases ys with
    | nil => exact ⟨[], by simp⟩
    | cons y ys =>
      obtain ⟨v, hv, hvp, hvq⟩ := mulVals_proper (hx x (by simp)) (hy y (by simp))
      obtain ⟨vs, hvs, hvsp, hvsq⟩ := ih (fun z (hz : z ∈ xs) => hx z (by simp [hz])) (fun z (hz : z ∈ ys) => hy z (by simp [hz]))
      exact ⟨v :: vs, by simp [hv, hvs], by simpa [hvp] using hvsp, by simp [hvq, hvsq]⟩

theorem sumRat_proper {vs : List FVal} (h : ∀ v ∈ vs, v.Proper) :
    (sumRat vs).2 ≠ 0 ∧ mkRat (sumRat vs).1 (sumRat vs).2 = (vs.map FVal.q).sum := by
  induction vs with
  | nil => exact ⟨Nat.one_ne_zero, rfl⟩
  | cons v vs ih =>
    obtain ⟨hden, hsum⟩ := ih fun z hz => h z (by simp [hz])
    obtain ⟨sg, n, d, rfl, hd⟩ := h v (by simp)
    refine ⟨Nat.mul_ne_zero hd hden, ?_⟩
    rw [List.map_cons, List.sum_cons, ← hsum]
    exact (Rat.mkRat_add_mkRat _ _ hd hden).symm

theorem FVal.Proper.isInf_eq_false {v : FVal} (h : v.Proper) : v.isInf = false := by
  obtain ⟨_, _, _, rfl, _⟩ := h; rfl

theorem FVal.Proper.isNan_eq_false {v : FVal} (h : v.Proper) : v.isNan = false := by
  obtain ⟨_, _, _, rfl, _⟩ := h; rfl

/-- The sum of numbers is a number, and exact. -/
theorem sumVals_proper (env : FpEnv) {vs : List FVal} (h : ∀ v ∈ vs, v.Proper) :
    (sumVals env vs).1.isNum = true ∧ (sumVals env vs).1.q = (vs.map FVal.q).sum := by
  have hinf (p : FVal → Bool) : vs.any (fun v => v.isInf && p v) = false :=
    List.any_eq_false.2 fun v hv => by simp [(h v hv).isInf_eq_false]
  obtain ⟨-, hsum⟩ := sumRat_proper h
  simp only [sumVals, hinf, Bool.and_self, Bool.false_eq_true, if_false]
  split
  · next h0 =>
    refine ⟨rfl, ?_⟩
    rw [← hsum, h0, Rat.zero_mkRat]
    simp [FVal.q]
  · refine ⟨rfl, ?_⟩
    rw [← hsum, FVal.q]
    congr 1
    simp only [decide_eq_true_eq]
    split <;> omega

theorem chunkSum_proper {xs ys : List FVal} (hx : ∀ x ∈ xs, x.Proper) (hy : ∀ y ∈ ys, y.Proper) :
    (chunkSum xs ys).1.isNum = true ∧ (chunkSum xs ys).1.q = (List.zipWith (fun x y => x.q * y.q) xs ys).sum := by
  have hnan {zs : List FVal} (hz : ∀ z ∈ zs, z.Proper) : zs.any FVal.isNan = false :=
    List.any_eq_false.2 fun z h => by simp [(hz z h).isNan_eq_false]
  obtain ⟨vs, hvs, hvsp, hvsq⟩ := products_proper hx hy
  have hall : ∀ v ∈ FVal.num false 0 1 :: vs, v.Proper := by
    simpa using ⟨⟨_, _, _, rfl, Nat.one_ne_zero⟩, hvsp⟩
  obtain ⟨hnum, hq⟩ := sumVals_proper .step hall
  have hsome : (vs.map some).any Option.isNone = false := by simp
  have hzero : (FVal.num false 0 1).q = 0 := by simp [FVal.q]
  simp only [chunkSum, hnan hx, hnan hy, hvs, hsome, Bool.or_self, Bool.false_eq_true, if_false, List.filterMap_map]
  rw [List.map_cons, List.sum_cons, hzero, Rat.zero_add, hvsq] at hq
  simpa using ⟨hnum, hq⟩

/-! ## The claim -/

theorem exec_mmaStepCommit_of_unchanged (hr : cmdFind (fun x => x.opc == 0x99 && x.started && !x.performed) (s.tile s.cur.place).cmds =
    some (n, m)) (hb : m.bytes = lineBytes (s.tile s.cur.place) (mmaLines m)) :
    let a := (s.tile s.cur.place).acc m.bank
    let r := stepAcc m a.list m.bytes
    exec .mmaStepCommit s = .next (cmdSteps (raiseFlags (s.updTile s.cur.place (fun x => x.setAcc m.bank
      (a.commitStep s.clk (accElems r.1)))) m.colour r.2) s.cur.place n m (a.steps + 1)) := by
  show execMmaStepCommit s = _
  simp only [execMmaStepCommit, hr, stepBytes_unchanged hb]

/-- Settles O46: a start through its three outcomes, a commit through the elements of `stepAcc`, and the chunk sum through the
exact sum of proper numbers. -/
theorem matrixStepsMultiplyAndAccumulate : Obligations.MatrixStepsMultiplyAndAccumulate := by
  intro s n m tl t lines
  refine ⟨fun hr => ⟨exec_mmaStepStart_held hr, exec_mmaStepStart_error hr, exec_mmaStepStart_reads hr⟩, fun hr hb => ?commit,
    fun a b _ h => chunkSum_proper (fun x hx => h x (List.mem_append_left _ hx)) (fun y hy => h y (List.mem_append_right _ hy))⟩
  case commit =>
    intro a ta tb code ca cb va vb
    have hes := stepAcc_elements (length_opData t ta m.opa) (length_lineBytes t (opScaleLines m.opa m.ha))
      (length_opData t tb m.opb) (bsb := lineBytes t (opScaleLines m.opb m.hb)) a
    rw [← lineBytes_mmaLines, ← hb] at hes
    refine ⟨_, _, exec_mmaStepCommit_of_unchanged hr hb, ?_⟩
    rw [hes]
    refine ⟨by rw [List.length_map, List.length_range], fun i j hi hj => ?_⟩
    rw [getD_range_map _ (by omega), stepWord_at hj]
    rfl

end Sys2Proof.Machine
end

section
/-! PROOFS. Matrix firings: what an accepted command leaves in its tile's queue and in its bank (R207, R208), and when a firing is
refused (R212 to R214, R218 to R220, R441 to R443, R446, R449). -/

namespace Sys2Proof.Machine

variable {s t : State} {f : Fire} {c : Common} {x : MatX} {n : Nat} {opa opb : W512}
  {o : Option (BitVec 12 × BitVec 12)} {int : Bool}

/-! ## The matrix unit of a tile -/

/-- The matrix unit of a tile: its command queue and its accumulator banks. -/
def Tile.matrix (t : Tile) : List MatCmd × (Nat → Acc) := (t.cmds, t.acc)

theorem Tile.acc_setAcc_same (t : Tile) (b : Nat) (a : Acc) : (t.setAcc b a).acc b = a := by
  match b with
  | 0 | 1 | 2 | _ + 3 => rfl

theorem Tile.setAcc_cmds (t : Tile) (b : Nat) (a : Acc) : (t.setAcc b a).cmds = t.cmds := by
  unfold Tile.setAcc
  split <;> rfl

theorem Tile.updBank_matrix (t : Tile) (c : BitVec 12) (g : Bank → Bank) : (t.updBank c g).matrix = t.matrix := by
  unfold Tile.updBank
  split
  · unfold Tile.setActive; split <;> rfl
  · split
    · unfold Tile.setShadow; split <;> rfl
    · rfl

/-! ## What leaves every matrix unit as it stands -/

/-- A change of one tile that leaves its matrix unit alone leaves that of every tile alone. -/
theorem updTile_matrix (s : State) (a b : Nat) {g : Tile → Tile} (hg : ∀ t, (g t).matrix = t.matrix) :
    ((s.updTile a g).tile b).matrix = (s.tile b).matrix := by
  by_cases h : b = a
  · rw [h, tile_updTile_same, hg]
  · rw [tile_updTile_ne s g h]

theorem setDirty_matrix (s : State) (k : Colour) (lt : Nat) (bits : List Nat) (b : Nat) :
    ((setDirty s k lt bits).tile b).matrix = (s.tile b).matrix := by
  unfold setDirty
  split
  · rfl
  · split
    · rfl
    · exact updTile_matrix _ _ _ fun _ => rfl

theorem putStake_matrix (s : State) (c : BitVec 12) (st : StakeSt) (b : Nat) :
    ((putStake s c st).tile b).matrix = (s.tile b).matrix := by
  unfold putStake
  split
  · rw [setDirty_matrix]
    exact updTile_matrix _ _ _ fun t => t.updBank_matrix c _
  · rfl

theorem updStake_matrix (s : State) (c : BitVec 12) (l : BitVec 16) (g : StakeSt → StakeSt) (b : Nat) :
    ((updStake s c l g).tile b).matrix = (s.tile b).matrix := by
  unfold updStake
  split
  · exact putStake_matrix ..
  · rfl

theorem updStake_changes_tiles (s : State) (c : BitVec 12) (l : BitVec 16) (g : StakeSt → StakeSt) :
    ∃ ts, updStake s c l g = { s with tiles := ts } := by
  unfold updStake
  split
  · exact putStake_changes_tiles ..
  · exact ⟨s.tiles, rfl⟩

theorem useSlot_matrix (s : State) (a : Nat) (who : Option (BitVec 16)) (b : Nat) :
    ((useSlot s a who).tile b).matrix = (s.tile b).matrix :=
  updTile_matrix _ _ _ fun _ => rfl

theorem begun_matrix (f : Fire) (s : State) (b : Nat) : ((f.begun s).tile b).matrix = (s.tile b).matrix := by
  rw [Fire.begun, Fire.begunWith, noteFiring, tile_updCol, useSlot_matrix, putStake_matrix]

@[simp] theorem begun_mem (f : Fire) (s : State) : (f.begun s).mem = s.mem := by
  obtain ⟨ts, hts⟩ := begun_changes_tiles_and_count f s
  rw [hts]; rfl

@[simp] theorem begun_reqs (f : Fire) (s : State) : (f.begun s).reqs = s.reqs := by
  obtain ⟨ts, hts⟩ := begun_changes_tiles_and_count f s
  rw [hts]; rfl

@[simp] theorem ownsBank_begun (n : Nat) (s : State) (f : Fire) : ownsBank n (f.begun s) f = ownsBank n s f :=
  congrArg (fun m => (m.2 n).qowner == some (f.colour, f.frame)) (begun_matrix f s f.tile)

@[simp] theorem queuedInt_begun (n : Nat) (s : State) (f : Fire) : queuedInt n (f.begun s) f = queuedInt n s f :=
  congrArg (fun m => (m.2 n).qint) (begun_matrix f s f.tile)

/-! ## Before the command is accepted (R207) -/

/-- `t` has the command queue of the firing's tile, HBM4 and the requests as `s` has them, and in it bank `n` of that tile has
this queued owner and this queued mode. -/
structure QueueStands (s : State) (f : Fire) (n : Nat) (o : Option (BitVec 12 × BitVec 12)) (int : Bool) (t : State) : Prop where
  /-- No command has come or gone. -/
  cmds : (t.tile f.tile).cmds = (s.tile f.tile).cmds
  /-- The queued owner. -/
  qowner : ((t.tile f.tile).acc n).qowner = o
  /-- The queued mode. -/
  qint : ((t.tile f.tile).acc n).qint = int
  /-- HBM4 is the same. -/
  mem : t.mem = s.mem
  /-- The requests are the same. -/
  reqs : t.reqs = s.reqs

theorem queueStands_of_matrix (hm : (t.tile f.tile).matrix = (s.tile f.tile).matrix) (hmem : t.mem = s.mem) (hreqs : t.reqs = s.reqs) :
    QueueStands s f n ((s.tile f.tile).acc n).qowner ((s.tile f.tile).acc n).qint t where
  cmds := congrArg Prod.fst hm
  qowner := congrArg (fun m => (m.2 n).qowner) hm
  qint := congrArg (fun m => (m.2 n).qint) hm
  mem := hmem
  reqs := hreqs

theorem queueStands_begun : QueueStands s f n ((s.tile f.tile).acc n).qowner ((s.tile f.tile).acc n).qint (f.begun s) :=
  queueStands_of_matrix (begun_matrix f s f.tile) (begun_mem f s) (begun_reqs f s)

theorem queueStands_updStake_begun (col : BitVec 12) (l : BitVec 16) (g : StakeSt → StakeSt) :
    QueueStands s f n ((s.tile f.tile).acc n).qowner ((s.tile f.tile).acc n).qint (updStake (f.begun s) col l g) := by
  obtain ⟨ts, hts⟩ := updStake_changes_tiles (f.begun s) col l g
  refine queueStands_of_matrix ((updStake_matrix ..).trans (begun_matrix ..)) ?_ ?_
  · rw [hts]; exact begun_mem f s
  · rw [hts]; exact begun_reqs f s

theorem QueueStands.queueOwner (h : QueueStands s f n o int t) (o' : Option (BitVec 12 × BitVec 12)) (int' : Option Bool) :
    QueueStands s f n o' (int'.getD int) (queueOwner t f.tile n o' int') where
  cmds := by rw [Machine.queueOwner, tile_updTile_same, Tile.setAcc_cmds, h.cmds]
  qowner := by rw [Machine.queueOwner, tile_updTile_same, Tile.acc_setAcc_same]
  qint := by rw [Machine.queueOwner, tile_updTile_same, Tile.acc_setAcc_same, h.qint]
  mem := h.mem
  reqs := h.reqs

/-! ## The command is accepted (R208) -/

theorem acceptCmd_matrix (t : State) (f : Fire) (m : MatCmd) :
    ((acceptCmd t f m).tile f.tile).matrix = ((t.tile f.tile).cmds ++ [m], (t.tile f.tile).acc) := by
  rw [acceptCmd, setDirty_matrix, tile_updTile_same]
  rfl

theorem acceptCmd_changes_tiles (t : State) (f : Fire) (m : MatCmd) : ∃ ts, acceptCmd t f m = { t with tiles := ts } := by
  obtain ⟨ts, hts⟩ := setDirty_changes_tiles (t.updTile f.tile fun y => { y with cmds := y.cmds ++ [m] }) f.k
    (f.st.lstake.toNat / 128) [180]
  exact ⟨ts, hts⟩

/-- The firing's command, with these operands, stands at the end of its tile's queue, not started, with FPCTL and COLKEY as sampled;
bank `n` has this queued owner and this queued mode, and HBM4 and the requests are the same. -/
def JoinsQueue (i : Instr) (s : State) (f : Fire) (n : Nat) (opa opb : W512) (o : Option (BitVec 12 × BitVec 12)) (int : Bool) : Prop :=
  ∃ u m, exec i s = .next (f.done u) ∧ (u.tile f.tile).cmds = (s.tile f.tile).cmds ++ [m] ∧ m.word = f.st.word ∧
    m.lstake = f.st.lstake ∧ m.colour = f.colour ∧ m.frame = f.frame ∧ m.wave = f.wave ∧ m.opa = opa ∧ m.opb = opb ∧
    m.fpctl = f.k.fpctl ∧ m.colkey = f.k.colkey ∧ m.started = false ∧ m.out = [] ∧
    ((u.tile f.tile).acc n).qowner = o ∧ ((u.tile f.tile).acc n).qint = int ∧ u.mem = s.mem ∧ u.reqs = s.reqs

theorem QueueStands.joinsQueue {i : Instr} {fa fb : BitVec 3} {ha hb : Option W512} (h : QueueStands s f n o int t)
    (hexec : exec i s = .next (f.done (acceptCmd t f (mkCmd f opa opb fa fb ha hb)))) : JoinsQueue i s f n opa opb o int := by
  have hm := acceptCmd_matrix t f (mkCmd f opa opb fa fb ha hb)
  obtain ⟨ts, hts⟩ := acceptCmd_changes_tiles t f (mkCmd f opa opb fa fb ha hb)
  have hqueue := congrArg Prod.fst hm
  have hbank := congrArg (fun m => m.2 n) hm
  refine ⟨_, _, hexec, hqueue.trans (by rw [h.cmds]), rfl, rfl, rfl, rfl, rfl, rfl, rfl, rfl, rfl, rfl, rfl,
    (congrArg Acc.qowner hbank).trans h.qowner, (congrArg Acc.qint hbank).trans h.qint, ?_, ?_⟩
  · rw [hts]; exact h.mem
  · rw [hts]; exact h.reqs

/-! ## The five firings -/

theorem joinsQueue_mzero (h : Fires (fun s f => cmdRoom s f && bankOpen x.bank.toNat s f) s f) :
    JoinsQueue (.mzero c x) s f x.bank.toNat 0 0 (some (f.colour, f.frame)) c.ty.isInt :=
  (queueStands_begun.queueOwner (some (f.colour, f.frame)) (some c.ty.isInt)).joinsQueue (congrArg _ (runFire_of_fires h _))

theorem exec_mldacc_of_fires (h : Fires (fun s f => cmdRoom s f && bankOpen x.bank.toNat s f) s f) :
    exec (.mldacc c x) s = .next (f.done (if desc0 (f.src c.sa 0) 13 18 != 0 || decide (8192 < desc0 (f.src c.sa 0) 0 13 + 256) then
        trapFire (f.begun s) f cILLOP
      else acceptCmd (queueOwner (f.begun s) f.tile x.bank.toNat (some (f.colour, f.frame)) (some c.ty.isInt)) f
        (mkCmd f (f.src c.sa 0) 0 (f.fmtOf c.ty c.sa 0) 0 none none))) :=
  congrArg _ (runFire_of_fires h _)

theorem traps_mldacc (h : Fires (fun s f => cmdRoom s f && bankOpen x.bank.toNat s f) s f)
    (hbad : desc0 (f.src c.sa 0) 13 18 ≠ 0 ∨ 8192 < desc0 (f.src c.sa 0) 0 13 + 256) : Traps (.mldacc c x) s f cILLOP := by
  rw [Traps, exec_mldacc_of_fires h, if_pos (by simpa using hbad)]

theorem joinsQueue_mldacc (h : Fires (fun s f => cmdRoom s f && bankOpen x.bank.toNat s f) s f)
    (hres : desc0 (f.src c.sa 0) 13 18 = 0) (hfit : desc0 (f.src c.sa 0) 0 13 + 256 ≤ 8192) :
    JoinsQueue (.mldacc c x) s f x.bank.toNat (f.src c.sa 0) 0 (some (f.colour, f.frame)) c.ty.isInt := by
  have hexec := exec_mldacc_of_fires (c := c) h
  rw [if_neg (by simp [hres, hfit])] at hexec
  exact (queueStands_begun.queueOwner (some (f.colour, f.frame)) (some c.ty.isInt)).joinsQueue hexec

/-- R212 to R214, R442, R443: a token of an MMA disagrees with its type or its latch, or its descriptor is bad. -/
def mmaBad (c : Common) (x : MatX) (f : Fire) : Bool :=
  let ha := latchHdr f.st 0 f.colour f.frame
  let hb := latchHdr f.st 1 f.colour f.frame
  opTagBad c c.ty (f.fmtOf c.ty .port 0) ha || opTagBad c x.bty (f.fmtOf x.bty .port 1) hb ||
    opBad c.ty (f.src .port 0) ha || opBad x.bty (f.src .port 1) hb

theorem exec_mma_of_fires (h : Fires mmaGate s f) :
    exec (.mma c x) s = .next (f.done (if mmaBad c x f || !ownsBank x.bank.toNat s f || queuedInt x.bank.toNat s f != c.ty.isInt then
        trapFire (f.begun s) f cILLOP
      else acceptCmd (updStake (f.begun s) f.colour f.st.lstake (fun st =>
          latchAdvance (latchAdvance st 0 f.colour f.frame) 1 f.colour f.frame)) f
        (mkCmd f (f.src .port 0) (f.src .port 1) (f.fmtOf c.ty .port 0) (f.fmtOf x.bty .port 1)
          (latchHdr f.st 0 f.colour f.frame) (latchHdr f.st 1 f.colour f.frame)))) := by
  show execMma c x s = _
  simp only [execMma, runFire_of_fires h, ownsBank_begun, queuedInt_begun, mmaBad,
    Bool.or_right_comm _ (!ownsBank x.bank.toNat s f)]

theorem traps_mma (h : Fires mmaGate s f)
    (hbad : (mmaBad c x f || !ownsBank x.bank.toNat s f || queuedInt x.bank.toNat s f != c.ty.isInt) = true) :
    Traps (.mma c x) s f cILLOP := by
  rw [Traps, exec_mma_of_fires h, if_pos hbad]

theorem joinsQueue_mma (h : Fires mmaGate s f) (hok : mmaBad c x f = false) (hown : ownsBank x.bank.toNat s f = true)
    (hint : queuedInt x.bank.toNat s f = c.ty.isInt) :
    JoinsQueue (.mma c x) s f x.bank.toNat (f.src .port 0) (f.src .port 1) ((s.tile f.tile).acc x.bank.toNat).qowner
      ((s.tile f.tile).acc x.bank.toNat).qint := by
  have hexec := exec_mma_of_fires (c := c) (x := x) h
  rw [if_neg (by simp [hok, hown, hint])] at hexec
  exact (queueStands_updStake_begun ..).joinsQueue hexec

theorem exec_msnap_of_fires (h : Fires cmdRoom s f) :
    exec (.msnap c x) s = .next (f.done (if !ownsBank x.bank.toNat s f || desc0 (f.src c.sa 0) 0 32 != 0 ||
        queuedInt x.bank.toNat s f != c.ty.isInt then trapFire (f.begun s) f cILLOP
      else acceptCmd (f.begun s) f (mkCmd f (f.src c.sa 0) 0 (f.fmtOf c.ty c.sa 0) 0 none none))) := by
  show execMsnap c x s = _
  simp only [execMsnap, runFire_of_fires h, ownsBank_begun, queuedInt_begun]

theorem traps_msnap (h : Fires cmdRoom s f) (hbad : (!ownsBank x.bank.toNat s f || desc0 (f.src c.sa 0) 0 32 != 0 ||
    queuedInt x.bank.toNat s f != c.ty.isInt) = true) : Traps (.msnap c x) s f cILLOP := by
  rw [Traps, exec_msnap_of_fires h, if_pos hbad]

theorem joinsQueue_msnap (h : Fires cmdRoom s f) (hown : ownsBank x.bank.toNat s f = true)
    (hres : desc0 (f.src c.sa 0) 0 32 = 0) (hint : queuedInt x.bank.toNat s f = c.ty.isInt) :
    JoinsQueue (.msnap c x) s f x.bank.toNat (f.src c.sa 0) 0 ((s.tile f.tile).acc x.bank.toNat).qowner
      ((s.tile f.tile).acc x.bank.toNat).qint := by
  have hexec := exec_msnap_of_fires (c := c) (x := x) h
  rw [if_neg (by simp [hown, hres, hint])] at hexec
  exact queueStands_begun.joinsQueue hexec

theorem exec_mdrain_of_fires (h : Fires cmdRoom s f) :
    exec (.mdrain c x) s = .next (f.done (if !ownsBank x.bank.toNat s f ||
        drainBad c.ty (f.src c.sa 0) (queuedInt x.bank.toNat s f) then trapFire (f.begun s) f cILLOP
      else acceptCmd (if desc1 (f.src c.sa 0) 47 1 = 1 then queueOwner (f.begun s) f.tile x.bank.toNat none none else f.begun s) f
        (mkCmd f (f.src c.sa 0) 0 (f.fmtOf c.ty c.sa 0) 0 none none))) := by
  show execMdrain c x s = _
  simp only [execMdrain, runFire_of_fires h, ownsBank_begun, queuedInt_begun]

theorem traps_mdrain (h : Fires cmdRoom s f) (hbad : (!ownsBank x.bank.toNat s f ||
    drainBad c.ty (f.src c.sa 0) (queuedInt x.bank.toNat s f)) = true) : Traps (.mdrain c x) s f cILLOP := by
  rw [Traps, exec_mdrain_of_fires h, if_pos hbad]

/-- R207, Table 9.3: an MDRAIN with FREE leaves no queued owner, and its acceptance does not change the queued mode. -/
theorem joinsQueue_mdrain (h : Fires cmdRoom s f) (hown : ownsBank x.bank.toNat s f = true)
    (hok : drainBad c.ty (f.src c.sa 0) (queuedInt x.bank.toNat s f) = false) :
    JoinsQueue (.mdrain c x) s f x.bank.toNat (f.src c.sa 0) 0
      (if desc1 (f.src c.sa 0) 47 1 = 1 then none else ((s.tile f.tile).acc x.bank.toNat).qowner)
      ((s.tile f.tile).acc x.bank.toNat).qint := by
  have hexec := exec_mdrain_of_fires (c := c) (x := x) h
  rw [if_neg (by simp [hown, hok])] at hexec
  refine QueueStands.joinsQueue ?_ hexec
  split
  · exact queueStands_begun.queueOwner none none
  · exact queueStands_begun

/-! ## The claim -/

/-- Settles O26: each firing traps where its test refuses it, and otherwise accepts its command in a state in which its tile's queue
stands as before. -/
theorem matrixCommandsJoinTheirTilesQueue : Obligations.MatrixCommandsJoinTheirTilesQueue := by
  intro s f c x n d a b ha hb joins q
  exact ⟨fun h => ⟨joinsQueue_mzero h, traps_mldacc h, joinsQueue_mldacc h⟩,
    fun h => ⟨traps_mma h, joinsQueue_mma h⟩,
    fun h => ⟨traps_msnap h, joinsQueue_msnap h, traps_mdrain h, joinsQueue_mdrain h⟩⟩

end Sys2Proof.Machine
end

section
/-! PROOFS. Memory accesses of the device itself leave every virtual function as it stands (R146 to R164, R201). -/

namespace Sys2Proof.Machine

theorem foldl_vfs {α : Type} {g : State → α → State} (h : ∀ s x, (g s x).vfs = s.vfs) (l : List α) (s : State) :
    (l.foldl g s).vfs = s.vfs := by
  induction l generalizing s with
  | nil => rfl
  | cons x l ih => exact (ih (g s x)).trans (h s x)

/-! ## HBM4 -/

@[simp] theorem scrubOne_vfs (s : State) (g : Nat) : (scrubOne s g).vfs = s.vfs := by
  unfold scrubOne
  split <;> rfl

@[simp] theorem hbmPut_vfs (s : State) (pa : Nat) (b : Byte) : (hbmPut s pa b).vfs = s.vfs := by
  unfold hbmPut
  split
  · exact scrubOne_vfs s _
  · rfl

@[simp] theorem hbmWrite_vfs (s : State) (pa : Nat) (bs : List Byte) : (hbmWrite s pa bs).vfs = s.vfs := by
  induction bs generalizing s pa with
  | nil => rfl
  | cons b bs ih => exact (ih _ _).trans (hbmPut_vfs s pa b)

@[simp] theorem hbmSetBad_vfs (s : State) (pa : Nat) (bad : Bool) : (hbmSetBad s pa bad).vfs = s.vfs := by
  unfold hbmSetBad
  split <;> rfl

@[simp] theorem hbmPutLine_vfs (s : State) (line : Nat) (data : BitVec 1024) (bad : BitVec 4) :
    (hbmPutLine s line data bad).vfs = s.vfs :=
  (foldl_vfs (fun _ _ => hbmSetBad_vfs _ _ _) _ _).trans (hbmWrite_vfs s _ _)

@[simp] theorem hbmWr_vfs (s : State) (pa : Nat) (w : List WrByte) (tol : Bool) : (hbmWr s pa w tol).vfs = s.vfs := by
  refine (foldl_vfs (fun t b => ?byte) _ _).trans (foldl_vfs (fun t g => ?granule) _ s)
  case byte => split <;> simp only [hbmPut_vfs]
  case granule =>
    split
    · split
      · exact hbmSetBad_vfs ..
      · split
        · rw [hbmSetBad_vfs, hbmWrite_vfs]
        · exact State.updDie_vfs ..
    · rfl

/-! ## Slices and the home of a line -/

@[simp] theorem sliceDrop_vfs (s : State) (d line : Nat) : (sliceDrop s d line).vfs = s.vfs := rfl

@[simp] theorem sliceUpd_vfs (s : State) (line : Nat) (g : SliceLine → SliceLine) : (sliceUpd s line g).vfs = s.vfs := rfl

@[simp] theorem sliceEvict_vfs (s : State) (d : Nat) (l : SliceLine) : (sliceEvict s d l).vfs = s.vfs := by
  unfold sliceEvict
  split <;> simp only [sliceDrop_vfs, hbmPutLine_vfs]

@[simp] theorem sliceNew_vfs (s : State) (new : SliceLine) (victim : Option SliceLine) :
    (sliceNew s new victim).vfs = s.vfs := by
  cases victim with
  | none => rfl
  | some l => exact sliceEvict_vfs s (lineDie s new.line) l

@[simp] theorem slicePut_vfs (s : State) (p line : Nat) (pin : Option (Nat × Nat)) (dirty : Bool) (data : BitVec 1024)
    (bad : BitVec 4) : (slicePut s p line pin dirty data bad).vfs = s.vfs := by
  cases hold : sliceFind s line with
  | some y =>
    simp only [slicePut, hold]
    split
    · rfl
    · split
      · exact sliceNew_vfs ..
      · rfl
  | none =>
    simp only [slicePut, hold]
    split
    · exact sliceNew_vfs ..
    · split
      · exact hbmPutLine_vfs ..
      · rfl

@[simp] theorem settleDrain_vfs (s : State) (line : Nat) : (settleDrain s line).vfs = s.vfs := by
  simp only [settleDrain]
  split
  · split
    · exact sliceEvict_vfs ..
    · rfl
  · rfl

@[simp] theorem countPartial_vfs (s : State) (line : Nat) (bad : BitVec 4) (off : Nat) (w : List WrByte) (tol : Bool) :
    (countPartial s line bad off w tol).vfs = s.vfs := by
  simp only [countPartial]
  split <;> rfl

@[simp] theorem homeWr_vfs (s : State) (pa : Nat) (w : List WrByte) (tol : Bool) : (homeWr s pa w tol).vfs = s.vfs := by
  refine foldl_vfs (fun t x => ?_) _ s
  unfold homeWr1
  split
  · simp only [settleDrain_vfs, sliceUpd_vfs, countPartial_vfs]
  · exact hbmWr_vfs ..

/-! ## Recalled lines -/

@[simp] theorem writeBack_vfs (s : State) (c : Nat) (l : L1Line) : (writeBack s c l).vfs = s.vfs := by
  unfold writeBack
  split <;> simp only [slicePut_vfs]

@[simp] theorem l1Drop_vfs (s : State) (c line : Nat) : (l1Drop s c line).vfs = s.vfs := rfl

@[simp] theorem dirPut_vfs (s : State) (e : DirEnt) : (dirPut s e).vfs = s.vfs := rfl

@[simp] theorem recallLine_vfs (s : State) (line : Nat) : (recallLine s line).vfs = s.vfs := by
  have hdrop (t : State) (c : Nat) : (match l1Find t c line with
      | some l => l1Drop (writeBack t c l) c line
      | none => t).vfs = t.vfs := by
    split <;> simp only [l1Drop_vfs, writeBack_vfs]
  simp only [recallLine]
  split <;> exact foldl_vfs hdrop _ s

@[simp] theorem physWr_vf (s : State) (pa : Nat) (bs : List Byte) (v : Nat) : (physWr s pa bs).vf v = s.vf v := by
  have hvfs : (physWr s pa bs).vfs = s.vfs := (homeWr_vfs _ pa (wrAll bs) false).trans (foldl_vfs recallLine_vfs _ s)
  rw [State.vf, hvfs, State.vf]

end Sys2Proof.Machine
end

section
/-! PROOFS. Ring bases, doorbells and SQHEAD (R284 to R287); events written at the ring slots that EQTAIL names, and the messages
that follow them (R288 to R291, R523, R524). -/

namespace Sys2Proof.Machine

variable {s u : State} {n : Nat} {vf v : W64} {t : BitVec 32} {e : Event} {rest : List Event}

/-! ## The queues of a function -/

theorem queuesOf_pf (s : State) : queuesOf s pfQ = s.pf.q := rfl

theorem queuesOf_vf (h : n ≠ pfQ) : queuesOf s n = (s.vf n).q := if_neg h

@[simp] theorem queuesOf_updQueues (s : State) (n : Nat) (g : Queues → Queues) :
    queuesOf (updQueues s n g) n = g (queuesOf s n) := by
  unfold queuesOf updQueues
  split
  · rfl
  · rw [vf_updVf_same]

@[simp] theorem updQueues_mem (s : State) (n : Nat) (g : Queues → Queues) : (updQueues s n g).mem = s.mem := by
  unfold updQueues
  split <;> rfl

@[simp] theorem updQueues_host (s : State) (n : Nat) (g : Queues → Queues) : (updQueues s n g).host = s.host := by
  unfold updQueues
  split <;> rfl

/-! ## Raising an event -/

/-- The queues are as they were, but for the events that wait in them. -/
def SameRings (q q' : Queues) : Prop := q' = { q with evbuf := q'.evbuf, pend := q'.pend }

theorem SameRings.sqerr {q q' : Queues} (h : SameRings q q') : q'.sqerr = q.sqerr := by rw [h]

theorem SameRings.sqtail {q q' : Queues} (h : SameRings q q') : q'.sqtail = q.sqtail := by rw [h]

/-- An event is placed in the buffer, or in the hold ring of a VF that pauses (R292). -/
theorem placeEvent_sameRings (s : State) (n : Nat) (e : Event) : SameRings (s.vf n).q ((placeEvent s n e).vf n).q := by
  cases hp : (s.vf n).pause <;>
    simp only [SameRings, placeEvent, hp, if_true, Bool.false_eq_true, if_false, physWr_vf, vf_updVf_same]

theorem raise_sameRings (s : State) (n : Nat) (e : Event) : SameRings (s.vf n).q ((raise s n e).vf n).q := by
  simp only [raise]
  split
  · exact placeEvent_sameRings ..
  · simp only [SameRings, vf_updVf_same]

theorem raisePf_sameRings (s : State) (e : Event) : SameRings s.pf.q (raisePf s e).pf.q := by
  simp only [SameRings, raisePf, State.updPf]
  split <;> rfl

/-! ## The registers of a queue (R284 to R287) -/

theorem queueReq_open (hn : barNum vf ≤ 1024) (ho : barOpen s (barNum vf) vf = true) (body : State → Nat → State) :
    queueReq s vf body = body s (barNum vf) := by
  have hq : isQueue (barNum vf) = true := decide_eq_true hn
  rw [queueReq, if_pos hq, barReq, if_pos ho]

theorem ringSet_iff : ringSet v = true ↔ 6 ≤ v.toNat % 64 ∧ v.toNat % 64 ≤ 16 := by
  simp only [ringSet, Bool.and_eq_true, decide_eq_true_eq]

/-- A write of a ring base is refused: the ring holds entries, a job is in flight, or LOG2N is out of range (R284). -/
theorem baseRefused_iff {a b : BitVec 32} : (a != b || jobInFlight s n || !ringSet v) = true ↔
    a ≠ b ∨ jobInFlight s n = true ∨ v.toNat % 64 < 6 ∨ 16 < v.toNat % 64 := by
  rw [Bool.or_eq_true, Bool.or_eq_true, bne_iff_ne, Bool.not_eq_true', ← Bool.not_eq_true, ringSet_iff, or_assoc,
    Decidable.not_and_iff_not_or_not, Nat.not_le, Nat.not_le]

theorem baseTaken {a b : BitVec 32} (hempty : a = b) (hjob : jobInFlight s n = false) (hlo : 6 ≤ v.toNat % 64)
    (hhi : v.toNat % 64 ≤ 16) : ¬(a != b || jobInFlight s n || !ringSet v) = true := by
  rw [hempty, bne_self_eq_false, hjob, ringSet_iff.2 ⟨hlo, hhi⟩]
  decide

/-- A doorbell that the queue takes up: its function runs, the queue is not in error and TAIL changes (R286, R287, R293). -/
theorem exec_sqDoorbell_rings (hn : barNum vf ≤ 1024) (ho : barOpen s (barNum vf) vf = true) (ht : v.setWidth 32 = t)
    (hrun : barNum vf = pfQ ∨ (s.vf (barNum vf)).runs = true) (herr : (queuesOf s (barNum vf)).sqerr = false)
    (hnew : t ≠ (queuesOf s (barNum vf)).sqtail) :
    exec (.sqDoorbell vf v) s = .next (if doorbellBad (queuesOf s (barNum vf)) t then
      (if barNum vf = pfQ then raisePf (updQueues s (barNum vf) (fun q => { q with sqerr := true })) sqerrEvent
        else raise (updQueues s (barNum vf) (fun q => { q with sqerr := true })) (barNum vf) sqerrEvent)
      else updQueues s (barNum vf) (fun q => { q with sqtail := t })) := by
  subst ht
  have htaken : ¬((barNum vf != pfQ && !(s.vf (barNum vf)).runs) || (queuesOf s (barNum vf)).sqerr ||
      v.setWidth 32 == (queuesOf s (barNum vf)).sqtail) = true := by
    simp only [herr, Bool.or_false, Bool.or_eq_true, Bool.and_eq_true, bne_iff_ne, Bool.not_eq_true', beq_iff_eq, hnew, or_false]
    rintro ⟨hpf, hstill⟩
    exact hrun.elim hpf (fun h => Bool.eq_false_iff.1 hstill h)
  show execSqDoorbell vf v s = _
  simp only [execSqDoorbell, queueReq_open hn ho, if_neg htaken]

/-- The event of a doorbell in error leaves the rings as they stand. -/
theorem sqerrRaised_sameRings (s : State) (n : Nat) :
    SameRings (queuesOf s n) (queuesOf (if n = pfQ then raisePf s sqerrEvent else raise s n sqerrEvent) n) := by
  by_cases hpf : n = pfQ
  · subst hpf
    exact raisePf_sameRings ..
  · simp only [if_neg hpf, queuesOf_vf hpf]
    exact raise_sameRings ..

theorem doorbellBad_iff {q : Queues} :
    doorbellBad q t = true ↔ 2 ^ 31 ≤ (t - q.sqtail).toNat ∨ ringSize q.sqbase < (t - q.sqhead).toNat := by
  simp only [doorbellBad, Bool.or_eq_true, decide_eq_true_eq]

theorem queueRegistersAndDoorbells : Claims.QueueRegistersAndDoorbells := by
  intro s vf v n q refused log t hn ho
  refine ⟨fun hempty hjob hlo hhi => ?sqbase, fun hwhy => ?sqbaseRefused, fun hempty hjob hlo hhi => ?eqbase,
    fun hwhy => ?eqbaseRefused, fun herr => ?sqhead, fun hrun herr hnew => ⟨fun hstep hfit => ?rings, fun hbad => ?breaks⟩⟩
  case sqbase => exact congrArg _ ((queueReq_open hn ho _).trans (if_neg (baseTaken hempty hjob hlo hhi)))
  case sqbaseRefused => exact congrArg _ ((queueReq_open hn ho _).trans (if_pos (baseRefused_iff.2 hwhy)))
  case eqbase => exact congrArg _ ((queueReq_open hn ho _).trans (if_neg (baseTaken hempty hjob hlo hhi)))
  case eqbaseRefused => exact congrArg _ ((queueReq_open hn ho _).trans (if_pos (baseRefused_iff.2 hwhy)))
  case sqhead =>
    have htaken : ¬(!(queuesOf s n).sqerr) = true := by rw [show (queuesOf s n).sqerr = true from herr]; decide
    exact congrArg _ ((queueReq_open hn ho _).trans (if_neg htaken))
  case rings =>
    have hgood : ¬doorbellBad q t = true := by rw [doorbellBad_iff]; omega
    rw [exec_sqDoorbell_rings hn ho rfl hrun herr hnew, if_neg hgood]
  case breaks =>
    have hbreak : doorbellBad q t = true := doorbellBad_iff.2 hbad
    refine ⟨_, by rw [exec_sqDoorbell_rings hn ho rfl hrun herr hnew, if_pos hbreak], ?_, ?_⟩
    · rw [(sqerrRaised_sameRings ..).sqerr, queuesOf_updQueues]
    · rw [(sqerrRaised_sameRings ..).sqtail, queuesOf_updQueues]

/-! ## Writing an event (R288, R290, R524) -/

/-- The function's events go out: the PF's always, a VF's while the event is of its generation and its TDI is not in ERROR (R293, R298). -/
def EventGoesOut (s : State) (n : Nat) (e : Event) : Prop :=
  n = pfQ ∨ (n < pfQ ∧ e.gen = (s.vf n).gen ∧ (s.vf n).tdi ≠ .error)

theorem eventTry_writes (ho : EventGoesOut s n e) (hbuf : (queuesOf s n).evbuf = e :: rest) (hacks : e.acks = [])
    (hroom : eventRoom (queuesOf s n) = true) : eventTry s n = eventWrite s n e rest := by
  have hgen : (n != pfQ && e.gen != (s.vf n).gen) = false := by
    rcases ho with rfl | ⟨-, hgen, -⟩
    · rfl
    · rw [hgen, bne_self_eq_false, Bool.and_false]
  have htdi : (n != pfQ && (s.vf n).tdi == .error) = false := by
    rcases ho with rfl | ⟨-, -, htdi⟩
    · rfl
    · rw [beq_false_of_ne htdi, Bool.and_false]
  simp only [eventTry, hbuf, hgen, htdi, hroom, hacks, acksLook, List.all_nil, Bool.not_true, Bool.or_self, Bool.false_eq_true,
    if_false]

/-- The address of the ring slot that EQTAIL names (R288). -/
def eventSlot (q : Queues) : Nat := ringSlot q.eqbase q.eqtail.toNat 32

theorem eventWrite_done (hclear : e.clear = [])
    (hw : ringWrite s n (eventSlot (queuesOf s n)) (e.bytes (eventPhase (queuesOf s n))) = .ok [] u) :
    eventWrite s n e rest = eventDone u n e rest := by
  rw [eventSlot] at hw
  simp only [eventWrite, hclear, clearInfl, hw]

theorem eventWrite_faults {cause reason : BitVec 8} {va : Nat} (hclear : e.clear = [])
    (hw : ringWrite s n (eventSlot (queuesOf s n)) (e.bytes (eventPhase (queuesOf s n))) = .fault cause reason va u) :
    eventWrite s n e rest = eventFault u n cause reason (eventSlot (queuesOf s n)) := by
  rw [eventSlot] at hw ⊢
  simp only [eventWrite, hclear, clearInfl, hw]

theorem eventFault_first {cause reason : BitVec 8} {va : Nat} (h : (queuesOf s n).evFault = none) :
    eventFault s n cause reason va =
      raisePf (updQueues s n (fun q => { q with evFault := some s.clk })) (areaEvent cause reason va) := by
  simp only [eventFault, h, Option.isSome_none, Bool.false_eq_true, if_false]

theorem admitOf_nonePending (h : (queuesOf s n).pend = []) : admitOf s n = s := by
  by_cases hpf : n = pfQ
  · subst hpf
    rw [queuesOf_pf] at h
    rw [admitOf, if_pos rfl]
    simp only [admitPf, State.updPf, h, List.take_nil, List.drop_nil, List.append_nil]
    rw [← h]
  · rw [queuesOf_vf hpf] at h
    rw [admitOf, if_neg hpf, admitEvents, h]
    rfl

/-- The event is out of the buffer and EQTAIL has advanced; a message is due where IEN is set (R288, R289). -/
def eventTaken (s : State) (n : Nat) (rest : List Event) : State :=
  updQueues s n (fun q => { q with evbuf := rest, eqtail := q.eqtail + 1, evFault := none, msixDue := q.msixDue || q.ien })

/-- The job that an event has ended leaves its VF (R284). -/
def dropJob (s : State) (n : Nat) (e : Event) : State :=
  s.updVf n (fun f => { f with jobs := f.jobs.filter (fun j => !(j.id == e.id && j.ended)) })

theorem eventDone_nonePending (hpend : (queuesOf s n).pend = []) (hemit : e.emit = none) : eventDone s n e rest =
    if n ≠ 1024 ∧ (e.ty = 1 ∨ e.ty = 2) then dropJob (eventTaken s n rest) n e else eventTaken s n rest := by
  have htaken : (queuesOf (eventTaken s n rest) n).pend = [] := by rw [eventTaken, queuesOf_updQueues]; exact hpend
  have hends : (n != pfQ && (e.ty == 1 || e.ty == 2)) = true ↔ n ≠ 1024 ∧ (e.ty = 1 ∨ e.ty = 2) := by
    rw [Bool.and_eq_true, bne_iff_ne, Bool.or_eq_true, beq_iff_eq, beq_iff_eq]
    rfl
  show eventEmit (admitOf (if n != pfQ && (e.ty == 1 || e.ty == 2) then dropJob (eventTaken s n rest) n e
    else eventTaken s n rest) n) e = _
  simp only [hends]
  split
  · next h =>
    obtain ⟨hvf, -⟩ := h
    have hdropped : (queuesOf (dropJob (eventTaken s n rest) n e) n).pend = [] := by
      rw [queuesOf_vf hvf, dropJob, vf_updVf_same, ← queuesOf_vf hvf]
      exact htaken
    rw [admitOf_nonePending hdropped, eventEmit, hemit]
  · rw [admitOf_nonePending htaken, eventEmit, hemit]

theorem exec_eventWrite_tries (h : (queuesOf s vf.toNat).evFault = none) :
    exec (.eventWrite vf) s = .next (eventTry s vf.toNat) := by
  show execEventWrite vf s = _
  simp only [execEventWrite, h, Option.isSome_none, Bool.false_eq_true, if_false]

theorem exec_eventSlotRetry_tries (h : (queuesOf s vf.toNat).evFault ≠ none) :
    exec (.eventSlotRetry vf) s = .next (eventTry s vf.toNat) := by
  show execEventSlotRetry vf s = _
  simp only [execEventSlotRetry, Option.isSome_iff_ne_none.2 h, if_true]

/-! ## Messages (R289) -/

/-- The message of a function's vector goes out. -/
def sendMsix (s : State) (n : Nat) : State :=
  let s1 := updQueues s n (fun q => { q with msixDue := false, msixLast := mapPut q.msixLast q.vec.toNat s.clk })
  { s1 with host := { s1.host with msix := (n, (queuesOf s n).vec.toNat) :: s1.host.msix } }

theorem sendMsix_queues (s : State) (n : Nat) : queuesOf (sendMsix s n) n =
    { queuesOf s n with msixDue := false, msixLast := mapPut (queuesOf s n).msixLast (queuesOf s n).vec.toNat s.clk } :=
  queuesOf_updQueues s n _

theorem sendMsix_host (s : State) (n : Nat) :
    (sendMsix s n).host.msix = (n, (queuesOf s n).vec.toNat) :: s.host.msix := by
  simp only [sendMsix, updQueues_host]

theorem sendMsix_mem (s : State) (n : Nat) : (sendMsix s n).mem = s.mem := updQueues_mem ..

theorem exec_msixMessage_sends (hdue : (queuesOf s vf.toNat).msixDue = true) (hien : (queuesOf s vf.toNat).ien = true)
    (hlast : ∀ t, mapGet? (queuesOf s vf.toNat).msixLast (queuesOf s vf.toNat).vec.toNat = some t →
      t + usClk (queuesOf s vf.toNat).modus.toNat ≤ s.clk) :
    exec (.msixMessage vf) s = .next (sendMsix s vf.toNat) := by
  show execMsixMessage vf s = _
  cases hl : mapGet? (queuesOf s vf.toNat).msixLast (queuesOf s vf.toNat).vec.toNat with
  | none => simp only [execMsixMessage, hdue, hien, hl, Bool.and_self, if_true, sendMsix]
  | some t => simp only [execMsixMessage, hdue, hien, hl, decide_eq_true (hlast t hl), Bool.and_self, if_true, sendMsix]

/-! ## The claims -/

theorem eventsAreWrittenInOrder : Claims.EventsAreWrittenInOrder := by
  intro s u vf e rest cause reason va n q slot ph put after
  refine ⟨fun ho hbuf hacks hemit hclear hroom => ?event, fun hdue hien hlast => ?message⟩
  case event =>
    have htry : eventTry s n = eventWrite s n e rest := eventTry_writes ho hbuf hacks hroom
    refine ⟨fun hw hpend => ?written, fun hw hfirst hnew => ?faults⟩
    case written =>
      have hdone : eventTry s n = after :=
        htry.trans ((eventWrite_done hclear hw).trans (eventDone_nonePending hpend hemit))
      exact ⟨fun h => (exec_eventWrite_tries h).trans (congrArg _ hdone),
        fun h => (exec_eventSlotRetry_tries h).trans (congrArg _ hdone)⟩
    case faults =>
      exact (exec_eventWrite_tries hfirst).trans
        (congrArg _ (htry.trans ((eventWrite_faults hclear hw).trans (eventFault_first hnew))))
  case message =>
    refine ⟨_, exec_msixMessage_sends hdue hien hlast, sendMsix_host .., ?_, ?_, ?_, sendMsix_mem ..⟩
    all_goals rw [sendMsix_queues]
    exact mapGet?_mapPut_same ..

/-- Settles O35: a request that the BAR takes reaches its queue, whose register, doorbell and event each have a lemma of their own;
an event in error leaves the rings as they stand, so that SQERR and TAIL are read off the state before it. -/
theorem queuesTakeDoorbellsAndWriteEvents : Obligations.QueuesTakeDoorbellsAndWriteEvents :=
  ⟨queueRegistersAndDoorbells, eventsAreWrittenInOrder⟩

end Sys2Proof.Machine
end

section
/-! PROOFS. LAUNCH, REPLAY and PATCH descriptors (R228, R229, R234 to R236): how the job unit meets the head descriptor, and what
the steps of each operation leave. -/

namespace Sys2Proof.Machine

variable {s s1 s2 s3 s4 : State} {vf : W64} {v op : Nat} {d : W512} {bs rb h : List Byte} {run : State → Nat → W512 → State}

/-! ## The head descriptor (R228) -/

theorem jobStep_notReady (hr : jobReady s v = false) : jobStep s v op run = s := by
  rw [jobStep, hr]
  rfl

/-- The job unit holds a descriptor: it is ready for the VF, no LAUNCH of the VF waits to push, and the descriptor has been read. -/
structure HoldsDesc (s : State) (v : Nat) (bs : List Byte) (s1 : State) : Prop where
  ready : jobReady s v = true
  read : headDesc s v = .ok bs s1
  noWait : (s.vf v).launchWait = none

theorem jobStep_meets (hd : HoldsDesc s v bs s1) : jobStep s v op run =
    if jdBad s1 v (bytesData bs) then descEvent s1 v (bytesData bs) 1 2
    else if jdOp (bytesData bs) = op then run s1 v (bytesData bs) else s1 := by
  simp only [jobStep, hd.ready, hd.read, hd.noWait, Option.isSome_none, Bool.not_true, Bool.or_self, Bool.false_eq_true, if_false]

theorem jobStep_malformed (hd : HoldsDesc s v bs s1) (hbad : jdBad s1 v (bytesData bs) = true) :
    jobStep s v op run = descEvent s1 v (bytesData bs) 1 2 := by
  rw [jobStep_meets hd, if_pos hbad]

theorem jobStep_runs (hd : HoldsDesc s v bs s1) (hgood : jdBad s1 v (bytesData bs) = false) (hop : jdOp (bytesData bs) = op) :
    jobStep s v op run = run s1 v (bytesData bs) := by
  rw [jobStep_meets hd, hgood, if_neg Bool.false_ne_true, if_pos hop]

/-! ## LAUNCH (R229) -/

theorem launchDesc_pushes (hw : devWrites s v (doneWrites d 1) = .ok [] s1) : launchDesc s v d = launchPush s1 v d := by
  rw [launchDesc, hw]

/-- The root record of a LAUNCH, with its job and its completion block. -/
def launchRecord (d : W512) (rb : List Byte) : W512 := setFld (recWithJob (bytesData rb) (jdJob d)) 64 64 (jdDone d)

/-- What the push of a root record leaves. -/
def launchEnd (s : State) (v : Nat) (d : W512) : PushRes → State
  | .ok s1 => takeDesc (openJob s1 v d 0) v
  | .full => s.updVf v (fun f => { f with launchWait := some s.clk })
  | .noQueue => descEvent s v d 1 2
  | .wait => s

theorem launchPush_ends (hroot : devRead s v (jdRoot d) 64 = .ok rb s1) : launchPush s v d =
    launchEnd s1 v d (pushRecord s1 (s1.vf v).part.toNat (jdCol d) (launchRecord d rb)) := by
  simp only [launchPush, hroot]
  rw [← launchRecord]
  cases pushRecord s1 (s1.vf v).part.toNat (jdCol d) (launchRecord d rb) <;> rfl

theorem exec_launchPushRetry_early {t : Nat} (hwait : (s.vf vf.toNat).launchWait = some t) (hearly : s.clk < t + 1024) :
    exec (.launchPushRetry vf) s = .next s := by
  show execLaunchPushRetry vf s = _
  simp only [execLaunchPushRetry, hwait, decide_eq_false (Nat.not_le.2 hearly), Bool.false_and, Bool.false_eq_true, if_false]

theorem exec_launchPushRetry_pushes {t : Nat} (hwait : (s.vf vf.toNat).launchWait = some t) (hpast : t + 1024 ≤ s.clk)
    (hr : jobReady s vf.toNat = true) (hd : headDesc s vf.toNat = .ok bs s1) :
    exec (.launchPushRetry vf) s = .next (launchPush s1 vf.toNat (bytesData bs)) := by
  show execLaunchPushRetry vf s = _
  simp only [execLaunchPushRetry, hwait, decide_eq_true hpast, hr, hd, Bool.and_self, if_true]

/-! ## REPLAY (R234, R235) -/

theorem replayDesc_goesOn {n : Nat} (hg : devRead s v (jdGraph d) 256 = .ok h s1) (hfill : (s1.vf v).fill = some n) :
    replayDesc s v d = replayPush s1 v d (graphField h 0 4 - n) n := by
  simp only [replayDesc, hg, hfill]

theorem replayDesc_refuses (hg : devRead s v (jdGraph d) 256 = .ok h s1) (hfill : (s1.vf v).fill = none)
    (hbad : graphBad h = true) : replayDesc s v d = descEvent s1 v d 1 2 := by
  simp only [replayDesc, hg, hfill, hbad, if_true]

theorem replayDesc_waits (hg : devRead s v (jdGraph d) 256 = .ok h s1) (hfill : (s1.vf v).fill = none)
    (hgood : graphBad h = false) (hflight : graphField h 16 1 = 1) (hinfl : (s1.vf v).infl = false) : replayDesc s v d = s1 := by
  simp only [replayDesc, hg, hfill, hgood, hflight, hinfl, decide_true, Bool.not_false, Bool.and_self, Bool.false_eq_true, if_false,
    if_true]

theorem replayDesc_marks (hg : devRead s v (jdGraph d) 256 = .ok h s1) (hfill : (s1.vf v).fill = none)
    (hgood : graphBad h = false) (hown : graphField h 16 1 ≠ 1 ∨ (s1.vf v).infl = true)
    (hmark : devWrite s1 v (jdGraph d + 16) [1] = .ok [] s2) :
    replayDesc s v d = replayWrites (s2.updVf v (fun f => { f with infl := true })) v d h := by
  have hfree : (decide (graphField h 16 1 = 1) && !(s1.vf v).infl) = false := by
    rcases hown with hclear | hours
    · rw [decide_eq_false hclear, Bool.false_and]
    · rw [hours, Bool.not_true, Bool.and_false]
  simp only [replayDesc, hg, hfill, hgood, hfree, hmark, Bool.false_eq_true, if_false]

theorem replayWrites_pushes (hver : devWrite s v (jdGraph d + 12) (natBytes 4 (graphField h 8 4)) = .ok [] s1)
    (hnodes : replayNodes s1 v d (graphField h 8 4) (graphField h 0 4) 0 = .ok [] s2)
    (hdone : devWrites s2 v (doneWrites d (graphField h 6 2)) = .ok [] s3) :
    replayWrites s v d h = replayPush (openJob s3 v d (jdGraph d)) v d (graphField h 0 4) 0 := by
  simp only [replayWrites, hver, hnodes, hdone]

/-! ## PATCH (R236) -/

/-- A PATCH names the graph's next version, whose slot no replay in flight holds (R236). -/
def PatchGood (h : List Byte) (d : W512) : Prop :=
  jdVer d = (graphField h 8 4 + 1) % 2 ^ 32 ∧
    (graphField h 16 1 = 0 ∨ jdVer d % graphField h 4 2 ≠ graphField h 12 4 % graphField h 4 2)

theorem patchGood_iff : (jdVer d == (graphField h 8 4 + 1) % 2 ^ 32 &&
    (graphField h 16 1 == 0 || jdVer d % graphField h 4 2 != graphField h 12 4 % graphField h 4 2)) = true ↔ PatchGood h d := by
  rw [Bool.and_eq_true, Bool.or_eq_true, beq_iff_eq, beq_iff_eq, bne_iff_ne, PatchGood]

theorem patchDesc_refused (hg : devRead s v (jdGraph d) 256 = .ok h s1) (hbad : ¬PatchGood h d) :
    patchDesc s v d = descEvent s1 v d 2 6 := by
  rw [← patchGood_iff, Bool.not_eq_true] at hbad
  simp only [patchDesc, hg, hbad, Bool.not_false, if_true]

theorem patchDesc_sets (hg : devRead s v (jdGraph d) 256 = .ok h s1) (hgood : PatchGood h d)
    (hw : devWrite s1 v (jdGraph d + 8) (natBytes 4 (jdVer d)) = .ok [] s2) : patchDesc s v d = descEvent s2 v d 2 0 := by
  rw [← patchGood_iff] at hgood
  simp only [patchDesc, hg, hgood, hw, Bool.not_true, Bool.false_eq_true, if_false]

/-! ## The claim -/

/-- Settles O54: the job unit meets the head descriptor in one way for the three operations, and a LAUNCH and its retry end by the
same push; each operation then has a lemma for each way in which it ends. -/
theorem jobDescriptorsLaunchReplayAndPatch : Obligations.JobDescriptorsLaunchReplayAndPatch := by
  intro s s1 s2 s3 s4 s5 s6 vf bs rb h t v d r g push nodes ver pushed
  have pushed_of {t : State} {step : Host.Outcome State Fault Refusal} (hstep : step = .next (launchPush t v d))
      (hroot : devRead t v (jdRoot d) 64 = .ok rb s3) : pushed step := by
    rw [launchPush_ends hroot] at hstep
    have ends {p : PushRes} (hp : push = p) : step = .next (launchEnd s3 v d p) := hp ▸ hstep
    exact ⟨ends, ends, ends, ends⟩
  refine ⟨fun hr => ?notReady, fun hr hread => ⟨fun hnone hbad => ?malformed, fun hnone hgood => ?wellFormed,
    fun hwait hpast hroot => ?retry, exec_launchPushRetry_early⟩⟩
  case notReady =>
    exact ⟨congrArg _ (jobStep_notReady hr), congrArg _ (jobStep_notReady hr), congrArg _ (jobStep_notReady hr)⟩
  case malformed =>
    have hd : HoldsDesc s v bs s1 := ⟨hr, hread, hnone⟩
    exact ⟨congrArg _ (jobStep_malformed hd hbad), congrArg _ (jobStep_malformed hd hbad), congrArg _ (jobStep_malformed hd hbad)⟩
  case wellFormed =>
    have hd : HoldsDesc s v bs s1 := ⟨hr, hread, hnone⟩
    refine ⟨fun hop hwrites hroot => ?launch, fun hop hg => ?replay, fun hop hg => ?patch⟩
    case launch =>
      exact pushed_of (congrArg _ ((jobStep_runs hd hgood hop).trans (launchDesc_pushes hwrites))) hroot
    case replay =>
      have ends {u : State} (hu : replayDesc s1 v d = u) : exec (.replay vf) s = .next u :=
        congrArg _ ((jobStep_runs hd hgood hop).trans hu)
      exact ⟨fun n hfill => ends (replayDesc_goesOn hg hfill), fun hfill hbad => ends (replayDesc_refuses hg hfill hbad),
        fun hfill hok hflight hinfl => ends (replayDesc_waits hg hfill hok hflight hinfl),
        fun hfill hok hown hmark hver hnodes hdone =>
          ends ((replayDesc_marks hg hfill hok hown hmark).trans (replayWrites_pushes hver hnodes hdone))⟩
    case patch =>
      have ends {u : State} (hu : patchDesc s1 v d = u) : exec (.patch vf) s = .next u :=
        congrArg _ ((jobStep_runs hd hgood hop).trans hu)
      exact ⟨fun hbad => ends (patchDesc_refused hg hbad), fun hok hw => ends (patchDesc_sets hg hok hw)⟩
  case retry => exact pushed_of (exec_launchPushRetry_pushes hwait hpast hr hread) hroot

end Sys2Proof.Machine
end
